-- ==== Sys2Proof/Word.lean ====
section
/-! DEFINITION. The data formats of 00 R4 to R5: words, half-words, doubles and the octets of the octet world.
Bit 0 of every field is its least significant bit. -/

namespace Sys2Proof

/-- A word: 36 bits, bit 35 most significant (R5). -/
abbrev Word := BitVec 36

/-- A half-word, 18 bits (R5); also a cox register (R238). -/
abbrev Half := BitVec 18

/-- An octet of a stream (R5). -/
abbrev Octet := BitVec 8

/-- The 36-bit space: word addresses, cursors and bounds lie below this (R29). -/
abbrev space36 : Nat := 2 ^ 36

/-- A 72-bit double from its low and high words (R5: word a holds bits 35-0, word a+1 holds bits 71-36). -/
def double (lo hi : Word) : Nat := lo.toNat + space36 * hi.toNat

/-- The low word of a double. -/
def doubleLo (n : Nat) : Word := BitVec.ofNat 36 n

/-- The high word of a double. -/
def doubleHi (n : Nat) : Word := BitVec.ofNat 36 (n / space36)

/-- Bits hi down to lo of a word as a number (R4 writes ranges high to low). -/
def bits (w : Word) (hi lo : Nat) : Nat := w.toNat / 2 ^ lo % 2 ^ (hi + 1 - lo)

/-- Bit n of a word. -/
def bit (w : Word) (n : Nat) : Bool := w.toNat / 2 ^ n % 2 == 1

/-- A word whose field starting at bit lo holds v; fields are joined with |||. -/
def field (lo v : Nat) : Word := BitVec.ofNat 36 (2 ^ lo * v)

/-- A flag at bit n. -/
def flag (n : Nat) (b : Bool) : Word := if b then field n 1 else 0

/-- H1, bits 35-18 (R5). -/
def half1 (w : Word) : Half := BitVec.ofNat 18 (w.toNat / 2 ^ 18)

/-- H0, bits 17-0 (R5). -/
def half0 (w : Word) : Half := BitVec.ofNat 18 w.toNat

/-- A word made of H1 and H0. -/
def joinHalves (h1 h0 : Half) : Word := BitVec.ofNat 36 (2 ^ 18 * h1.toNat + h0.toNat)

end Sys2Proof
end

