-- ==== Sys2Proof/Machine/Flags.lean ====
section
/-! DEFINITION. Conditions and carries. A seat has no flag register: the B format compares registers (04 R132) and ADDCO
returns a carry (05 R143); a cox compares registers, and BNXT tests its boundary flag (08 R243, R246). -/

namespace Sys2Proof.Machine

/-- Is the branch taken (04 R132)? An unassigned cond never reaches this. -/
def condTaken (cond : Nat) (a b : Word) : Bool :=
  match cond with
  | 0 => a == b
  | 1 => a != b
  | 2 => a.slt b
  | 3 => !a.slt b
  | 4 => a.ult b
  | 5 => !a.ult b
  | 6 => a &&& b != 0
  | 7 => a &&& b == 0
  | 8 => true
  | _ => false

/-- The carry out of the unsigned sum (05 R143 ADDCO). -/
def carryOut (a b : Word) : Word := if space36 ≤ a.toNat + b.toNat then 1 else 0

/-- 1 or 0, as the set instructions write it. -/
def boolWord (b : Bool) : Word := if b then 1 else 0

end Sys2Proof.Machine
end

