-- ==== Sys2Proof/Syntax.lean ====
section
/-! DEFINITION. The commands of the block: one constructor per row of spec/opcode_table.json, with its operands.
A seat instruction names the seat that executes it and its encoding fields (04 R128). -/

namespace Sys2Proof

/-- A physical seat number 9c+s, 0 to 71 (04 SEAT_ID). -/
abbrev SeatNo := Fin 72

/-- A crew by its HOME code: 0 T, 1 H0, 2 H1, 3 to 10 C0 to C7 (09 R277). -/
abbrev CoxNo := Fin 11

/-- A leaf crew C0 to C7. -/
abbrev LeafNo := Fin 8

/-- An Ethernet port ET0 to ET3. -/
abbrev PortNo := Fin 4

/-- A lane number (09 R274). -/
abbrev LaneNo := BitVec 16

/-- A galley channel (13 R396). -/
abbrev ChannelNo := Fin 1024

/-- A unit code in the CL_LINK.UNIT encoding (09 R277). -/
abbrev UnitCode := BitVec 8

/-- A 5-bit register field, or the 5-bit aux field (04 R128, R129). -/
abbrev Reg := BitVec 5

/-- The operand fields of the M format below the rd field (04 R128, R133). -/
structure MemOp where
  ca   : BitVec 4
  mode : BitVec 3
  ix   : BitVec 5
  disp : BitVec 12
deriving DecidableEq, Repr

/-- What a case bank finds when it scrubs a granule (10 R321, R322), or an upset that strikes the granule and that the next
access or scrub of it finds (log 74). -/
inductive BitErrors where
  | none | single | double | latentSingle | latentDouble
deriving DecidableEq, Repr

/-- What the bulk controller finds when it reads a stripe (10 R334, R336): the MAC passes; fails once and passes on the
re-read; fails twice; or the stripe's metadata entry is uncorrectable. Or an upset that the next access or patrol of the
stripe finds (log 74). -/
inductive StripeCheck where
  | good | passesOnReread | fails | metadataLost | latentReread | latentFails | latentLost
deriving DecidableEq, Repr

/-- A seat's load (05 R151, R152, R154, R182), with its operands. -/
inductive HostLoad where
  | ldw (rd : Reg) (m : MemOp)
  | ldd (rd : Reg) (m : MemOp)
  | ldc (rd : Reg) (m : MemOp)
  | ldm (rd : Reg) (m : MemOp)
  | movw (rd ra rb aux : Reg)
  | vld (vd : Reg) (m : MemOp)
deriving DecidableEq, Repr

/-- Who made the read of the host window that times out (10 R341, 19 R537): a seat load, a galley burst, a host put. -/
inductive HostReader where
  | seatLoad (q : SeatNo) (l : HostLoad)
  | galleyBurst (ch : ChannelNo)
  | hostPut (record : List Octet)
deriving DecidableEq, Repr

/-- The states of a feed monitor, in the coding of entry 0x2102 (16 R458, 17 R487). -/
inductive FeedState where
  | good | sag | loss | over
deriving DecidableEq, Repr

/-- A monitor whose leaving its range is a paddle trigger, the VBAT monitor, or a process and ageing monitor: 0 to 71 of a seat
by physical code, 72 to 95 of a platen (16 R452, R456). -/
inductive Monitor where
  | rail (n : Fin 40)
  | droop (q : SeatNo)
  | ageing (n : Fin 96)
deriving DecidableEq, Repr

/-- The cause of a journal seal (16 R469, R470). -/
inductive SealCause where
  | feeds | temperature
deriving DecidableEq, Repr

/-- The tamper sensors (18 R518). -/
inductive TamperSource where
  | lidMesh | lidLight | custodyTemperature | vbat | voltage | clockGlitch
  | tamperIn (n : Fin 8)
deriving DecidableEq, Repr

/-- The transport an Irrix frame came over (17 R472, R483 to R485). Both field ports serve one session (R481). -/
inductive Transport where
  | fieldPort (fp : Fin 2)
  | window
  | udp (p : PortNo)
  | mailbox (q : SeatNo)
deriving DecidableEq, Repr

/-- A received Irrix frame: its transport, its 29-bit identifier (17 R473) and its octets (R475). -/
structure Frame where
  transport : Transport
  ident     : BitVec 29
  octets    : List Octet
  /-- on a field port: a classical frame, or one with an 11-bit identifier (17 R472) -/
  classical : Bool := false
deriving DecidableEq, Repr

/-- An offset in a memory BAR of the PCI Express endpoint: BAR0, 4 MiB with the registers, or BAR2, 1 GiB with the aperture (19
R538). -/
inductive BarOff where
  | bar0 (o : BitVec 22)
  | bar2 (o : BitVec 30)
deriving DecidableEq, Repr

/-- The commands. -/
inductive Instr where
  /-- ADD (R143): Adds two word registers modulo 2^36. -/
  | add (q : SeatNo) (rd : Reg) (ra : Reg) (rb : Reg)
  /-- SUB (R143): Subtracts two word registers modulo 2^36. -/
  | sub (q : SeatNo) (rd : Reg) (ra : Reg) (rb : Reg)
  /-- AND (R143): Bitwise and of two word registers. -/
  | and (q : SeatNo) (rd : Reg) (ra : Reg) (rb : Reg)
  /-- OR (R143): Bitwise or of two word registers. -/
  | or (q : SeatNo) (rd : Reg) (ra : Reg) (rb : Reg)
  /-- XOR (R143): Bitwise exclusive or of two word registers. -/
  | xor (q : SeatNo) (rd : Reg) (ra : Reg) (rb : Reg)
  /-- ANDN (R143): And of one register with the complement of another. -/
  | andn (q : SeatNo) (rd : Reg) (ra : Reg) (rb : Reg)
  /-- SLT (R143): Sets 1 if ra is less than rb, signed. -/
  | slt (q : SeatNo) (rd : Reg) (ra : Reg) (rb : Reg)
  /-- SLTU (R143): Sets 1 if ra is less than rb, unsigned. -/
  | sltu (q : SeatNo) (rd : Reg) (ra : Reg) (rb : Reg)
  /-- MIN (R143): Signed minimum of two registers. -/
  | min (q : SeatNo) (rd : Reg) (ra : Reg) (rb : Reg)
  /-- MAX (R143): Signed maximum of two registers. -/
  | max (q : SeatNo) (rd : Reg) (ra : Reg) (rb : Reg)
  /-- MINU (R143): Unsigned minimum of two registers. -/
  | minu (q : SeatNo) (rd : Reg) (ra : Reg) (rb : Reg)
  /-- MAXU (R143): Unsigned maximum of two registers. -/
  | maxu (q : SeatNo) (rd : Reg) (ra : Reg) (rb : Reg)
  /-- CLZ (R143): Counts leading zero bits of a word. -/
  | clz (q : SeatNo) (rd : Reg) (ra : Reg)
  /-- POPC (R143): Counts one bits of a word. -/
  | popc (q : SeatNo) (rd : Reg) (ra : Reg)
  /-- ADDCO (R143): Returns the carry out of an unsigned add. -/
  | addco (q : SeatNo) (rd : Reg) (ra : Reg) (rb : Reg)
  /-- SLL (R144): Logical left shift by a register count. -/
  | sll (q : SeatNo) (rd : Reg) (ra : Reg) (rb : Reg)
  /-- SRL (R144): Logical right shift by a register count. -/
  | srl (q : SeatNo) (rd : Reg) (ra : Reg) (rb : Reg)
  /-- SRA (R144): Arithmetic right shift by a register count. -/
  | sra (q : SeatNo) (rd : Reg) (ra : Reg) (rb : Reg)
  /-- ROL (R144): Rotate left by a register count mod 36. -/
  | rol (q : SeatNo) (rd : Reg) (ra : Reg) (rb : Reg)
  /-- SLLA (R143): Logical left shift by aux. -/
  | slla (q : SeatNo) (rd : Reg) (ra : Reg) (aux : Reg)
  /-- SRLA (R143): Logical right shift by aux. -/
  | srla (q : SeatNo) (rd : Reg) (ra : Reg) (aux : Reg)
  /-- SRAA (R143): Arithmetic right shift by aux. -/
  | sraa (q : SeatNo) (rd : Reg) (ra : Reg) (aux : Reg)
  /-- ROLA (R143): Rotate left by aux. -/
  | rola (q : SeatNo) (rd : Reg) (ra : Reg) (aux : Reg)
  /-- MUL (R143): Low 36 bits of a product. -/
  | mul (q : SeatNo) (rd : Reg) (ra : Reg) (rb : Reg)
  /-- MULH (R143): High 36 bits of the signed product. -/
  | mulh (q : SeatNo) (rd : Reg) (ra : Reg) (rb : Reg)
  /-- MULHU (R143): High 36 bits of the unsigned product. -/
  | mulhu (q : SeatNo) (rd : Reg) (ra : Reg) (rb : Reg)
  /-- MULD (R147): Unsigned 72-bit product into a register pair. -/
  | muld (q : SeatNo) (rd : Reg) (ra : Reg) (rb : Reg)
  /-- DIV (R145): Signed quotient truncated toward zero; DIVZERO on zero divisor. -/
  | div (q : SeatNo) (rd : Reg) (ra : Reg) (rb : Reg)
  /-- DIVU (R145): Unsigned quotient; DIVZERO on zero divisor. -/
  | divu (q : SeatNo) (rd : Reg) (ra : Reg) (rb : Reg)
  /-- REM (R145): Signed remainder with the dividend's sign. -/
  | rem (q : SeatNo) (rd : Reg) (ra : Reg) (rb : Reg)
  /-- REMU (R145): Unsigned remainder. -/
  | remu (q : SeatNo) (rd : Reg) (ra : Reg) (rb : Reg)
  /-- HSWAP (R143): Swaps the half-words of a register. -/
  | hswap (q : SeatNo) (rd : Reg) (ra : Reg)
  /-- HADD (R143): Adds half-words independently mod 2^18. -/
  | hadd (q : SeatNo) (rd : Reg) (ra : Reg) (rb : Reg)
  /-- HSUB (R143): Subtracts half-words independently mod 2^18. -/
  | hsub (q : SeatNo) (rd : Reg) (ra : Reg) (rb : Reg)
  /-- HJOIN (R143): Joins the H0 halves of two registers. -/
  | hjoin (q : SeatNo) (rd : Reg) (ra : Reg) (rb : Reg)
  /-- HSX0 (R143): Sign-extends H0 to 36 bits. -/
  | hsx0 (q : SeatNo) (rd : Reg) (ra : Reg)
  /-- HSX1 (R143): Sign-extends H1 to 36 bits. -/
  | hsx1 (q : SeatNo) (rd : Reg) (ra : Reg)
  /-- EXTU (R146): Unsigned bit-field extract. -/
  | extu (q : SeatNo) (rd : Reg) (ra : Reg) (pos : BitVec 6) (aux : Reg)
  /-- EXTS (R146): Signed bit-field extract. -/
  | exts (q : SeatNo) (rd : Reg) (ra : Reg) (pos : BitVec 6) (aux : Reg)
  /-- INS (R146): Inserts a bit field into rd. -/
  | ins (q : SeatNo) (rd : Reg) (ra : Reg) (pos : BitVec 6) (aux : Reg)
  /-- ADDI (R148): Adds a sign-extended immediate. -/
  | addi (q : SeatNo) (rd : Reg) (ra : Reg) (imm : BitVec 19)
  /-- ANDI (R148): Ands with an immediate. -/
  | andi (q : SeatNo) (rd : Reg) (ra : Reg) (imm : BitVec 19)
  /-- ORI (R148): Ors with an immediate. -/
  | ori (q : SeatNo) (rd : Reg) (ra : Reg) (imm : BitVec 19)
  /-- XORI (R148): Exclusive-ors with an immediate. -/
  | xori (q : SeatNo) (rd : Reg) (ra : Reg) (imm : BitVec 19)
  /-- SLTI (R148): Signed compare with an immediate. -/
  | slti (q : SeatNo) (rd : Reg) (ra : Reg) (imm : BitVec 19)
  /-- SLTIU (R148): Unsigned compare with an extended immediate. -/
  | sltiu (q : SeatNo) (rd : Reg) (ra : Reg) (imm : BitVec 19)
  /-- LIH (R148): Loads the immediate into H1, keeping H0. -/
  | lih (q : SeatNo) (rd : Reg) (ra : Reg) (imm : BitVec 19)
  /-- MULI (R148): Multiplies by an immediate. -/
  | muli (q : SeatNo) (rd : Reg) (ra : Reg) (imm : BitVec 19)
  /-- LI (R149): Loads a 36-bit long immediate. -/
  | li (q : SeatNo) (rd : Reg) (imm : Word)
  /-- ADDL (R149): Adds a long immediate. -/
  | addl (q : SeatNo) (rd : Reg) (ra : Reg) (imm : Word)
  /-- ANDL (R149): Ands with a long immediate. -/
  | andl (q : SeatNo) (rd : Reg) (ra : Reg) (imm : Word)
  /-- ORL (R149): Ors with a long immediate. -/
  | orl (q : SeatNo) (rd : Reg) (ra : Reg) (imm : Word)
  /-- XORL (R149): Exclusive-ors with a long immediate. -/
  | xorl (q : SeatNo) (rd : Reg) (ra : Reg) (imm : Word)
  /-- OPACK (R150): Packs n octets of a register into a prefix-form word. -/
  | opack (q : SeatNo) (rd : Reg) (ra : Reg) (aux : Reg)
  /-- OUNPK (R150): Unpacks present octets into an unsigned integer. -/
  | ounpk (q : SeatNo) (rd : Reg) (ra : Reg)
  /-- OGET (R150): Reads one octet slot. -/
  | oget (q : SeatNo) (rd : Reg) (ra : Reg) (rb : Reg) (aux : Reg)
  /-- OPUT (R150): Writes one octet slot. -/
  | oput (q : SeatNo) (rd : Reg) (ra : Reg) (rb : Reg) (aux : Reg)
  /-- OCNT (R150): Counts presence bits and reports prefix form. -/
  | ocnt (q : SeatNo) (rd : Reg) (ra : Reg)
  /-- LDW (R151): Loads a word through a capability after the R48 checks. -/
  | ldw (q : SeatNo) (rd : Reg) (m : MemOp)
  /-- STW (R151): Stores a word and clears the granule's tag. -/
  | stw (q : SeatNo) (rd : Reg) (m : MemOp)
  /-- LDD (R151): Loads an even-aligned double into a register pair. -/
  | ldd (q : SeatNo) (rd : Reg) (m : MemOp)
  /-- STD (R151): Stores a register pair as a double. -/
  | std (q : SeatNo) (rd : Reg) (m : MemOp)
  /-- LDC (R37): Loads a granule into a capability register, carrying the tag only if every condition holds. -/
  | ldc (q : SeatNo) (rd : Reg) (m : MemOp)
  /-- STC (R38): Stores a capability granule with its tag under WC and WL rules. -/
  | stc (q : SeatNo) (rd : Reg) (m : MemOp)
  /-- LDM (R152): Loads masked registers from consecutive words, restartable. -/
  | ldm (q : SeatNo) (rd : Reg) (m : MemOp)
  /-- STM (R152): Stores masked registers to consecutive words, restartable. -/
  | stm (q : SeatNo) (rd : Reg) (m : MemOp)
  /-- MOVW (R154): Copies a block of words ascending or descending. -/
  | movw (q : SeatNo) (rd : Reg) (ra : Reg) (rb : Reg) (aux : Reg)
  /-- FILLW (R154): Fills a block of words with one value. -/
  | fillw (q : SeatNo) (rd : Reg) (ra : Reg) (rb : Reg)
  /-- CGETC (R160): Reads a capability's cursor. -/
  | cgetc (q : SeatNo) (rd : Reg) (ca : Reg)
  /-- CGETB (R160): Reads a capability's base. -/
  | cgetb (q : SeatNo) (rd : Reg) (ca : Reg)
  /-- CGETL (R160): Reads a capability's last word. -/
  | cgetl (q : SeatNo) (rd : Reg) (ca : Reg)
  /-- CGETP (R160): Reads a capability's word 3. -/
  | cgetp (q : SeatNo) (rd : Reg) (ca : Reg)
  /-- CGETT (R160): Reads a capability's tag. -/
  | cgett (q : SeatNo) (rd : Reg) (ca : Reg)
  /-- CMOV (R160): Copies a capability register with its tag. -/
  | cmov (q : SeatNo) (rd : Reg) (ca : Reg)
  /-- CTEST (R161): Reports the first failing step of R48 steps 1 to 6 without trapping. -/
  | ctest (q : SeatNo) (rd : Reg) (ca : Reg) (rb : Reg) (aux : Reg)
  /-- CINC (R46): Moves a capability's cursor by a register amount. -/
  | cinc (q : SeatNo) (rd : Reg) (ca : Reg) (rb : Reg)
  /-- CINCI (R160): Moves a capability's cursor by an immediate. -/
  | cinci (q : SeatNo) (rd : Reg) (ca : Reg) (imm : BitVec 19)
  /-- CSETB (R47): Narrows bounds from the cursor by a register length. -/
  | csetb (q : SeatNo) (rd : Reg) (ca : Reg) (rb : Reg)
  /-- CSETBI (R160): Narrows bounds from the cursor by an immediate length. -/
  | csetbi (q : SeatNo) (rd : Reg) (ca : Reg) (imm : BitVec 19)
  /-- CANDR (R45): Removes rights from a capability. -/
  | candr (q : SeatNo) (rd : Reg) (ca : Reg) (rb : Reg)
  /-- CCLG (R45): Clears a capability's GLOBAL bit. -/
  | cclg (q : SeatNo) (rd : Reg) (ca : Reg)
  /-- CSEAL (R59): Seals a capability under an SE authority. -/
  | cseal (q : SeatNo) (rd : Reg) (ca : Reg) (cb : Reg)
  /-- CUNSEAL (R60): Unseals a capability under a matching US authority. -/
  | cunseal (q : SeatNo) (rd : Reg) (ca : Reg) (cb : Reg)
  /-- CINVOKE (R61): Enters a compartment through a gate pair as a call, crossing or M invoke. -/
  | cinvoke (q : SeatNo) (ca : Reg) (cb : Reg)
  /-- B (R132): Conditional branch by comparing two registers. -/
  | b (q : SeatNo) (cond : BitVec 4) (ra : Reg) (rb : Reg) (disp : BitVec 15)
  /-- J (R162): Jumps to register plus immediate. -/
  | j (q : SeatNo) (ra : Reg) (imm : BitVec 19)
  /-- JAL (R162): Jumps and writes the return address. -/
  | jal (q : SeatNo) (rd : Reg) (ra : Reg) (imm : BitVec 19)
  /-- TRAP (R163): Raises CALL with the immediate in SV_ADDR. -/
  | trap (q : SeatNo) (imm : BitVec 19)
  /-- RET (R230): Returns through the current level's save set under the return checks. -/
  | ret (q : SeatNo)
  /-- END (R165): Ends the activation, clears wide state and save sets, and returns the seat to its cox. -/
  | endAct (q : SeatNo)
  /-- SYNCI (R166): Discards fetched instructions so the next fetch sees earlier stores. -/
  | synci (q : SeatNo)
  /-- FENCE_FULL (R167): Orders every earlier access before every later one. -/
  | fenceFull (q : SeatNo)
  /-- FENCE_ACQUIRE (R167): Orders earlier loads before later accesses. -/
  | fenceAcquire (q : SeatNo)
  /-- FENCE_RELEASE (R167): Orders earlier accesses before later stores. -/
  | fenceRelease (q : SeatNo)
  /-- FENCEW (R366): Waits until accesses checked under replaced fence descriptors complete. -/
  | fencew (q : SeatNo)
  /-- SEALSYNC (R67): Waits until operations admitted under replaced seal values complete. -/
  | sealsync (q : SeatNo)
  /-- MAPSYNC_ALL (R350): Invalidates every TLB and walk-cache entry of the seat. -/
  | mapsyncAll (q : SeatNo)
  /-- MAPSYNC_MAP (R350): Invalidates the entries of one map. -/
  | mapsyncMap (q : SeatNo) (ra : Reg)
  /-- MAPSYNC_PAGE (R350): Invalidates the entries for one page of one map. -/
  | mapsyncPage (q : SeatNo) (ra : Reg) (rb : Reg)
  /-- DOORBELL (R169): Sends a word to a seat's doorbell lane as a priority-7 event. -/
  | doorbell (q : SeatNo) (rd : Reg) (ra : Reg) (rb : Reg)
  /-- CALLG (R106): Calls a gate region from ring mode, lowering the ring. -/
  | callg (q : SeatNo) (ra : Reg) (imm : BitVec 19)
  /-- LOPEN (R296): Opens a lane with its consumer gate and stow reference. -/
  | lopen (q : SeatNo) (rd : Reg) (ca : Reg) (cb : Reg) (aux : Reg)
  /-- LCLOSE (R177): Closes a lane, breaking reservations and discarding queued messages. -/
  | lclose (q : SeatNo) (rd : Reg) (ca : Reg)
  /-- LPUT (R285): Reserves, writes and commits a message on a lane. -/
  | lput (q : SeatNo) (rd : Reg) (ca : Reg) (rb : Reg)
  /-- LTAKE (R175): Takes the message at HEAD, or blocks, times out or reports none. -/
  | ltake (q : SeatNo) (rd : Reg) (ca : Reg) (rb : Reg) (aux : Reg)
  /-- LGIVE (R176): Returns taken credits to a lane. -/
  | lgive (q : SeatNo) (rd : Reg) (ra : Reg) (rb : Reg)
  /-- LARM (R176): Arms or disarms a lane's deadline. -/
  | larm (q : SeatNo) (rd : Reg) (ca : Reg) (rb : Reg)
  /-- LSTAT (R176): Reads one word of a lane descriptor. -/
  | lstat (q : SeatNo) (rd : Reg) (ca : Reg) (aux : Reg)
  /-- SYSRD (R125): Reads a system word under level checks. -/
  | sysrd (q : SeatNo) (rd : Reg) (sw : BitVec 12)
  /-- SYSWR (R126): Writes a system word that has no behaviour of its own. -/
  | syswr (q : SeatNo) (ra : Reg) (sw : BitVec 12)
  /-- WAYEN (R180): Hands a way-enough command to the way-enough unit from M. -/
  | wayen (q : SeatNo) (rd : Reg) (ra : Reg) (rb : Reg)
  /-- VADD (R181): Word-by-word add of wide registers. -/
  | vadd (q : SeatNo) (vd : Reg) (va : Reg) (vb : Reg)
  /-- VSUB (R181): Word-by-word subtract of wide registers. -/
  | vsub (q : SeatNo) (vd : Reg) (va : Reg) (vb : Reg)
  /-- VAND (R181): Word-by-word and of wide registers. -/
  | vand (q : SeatNo) (vd : Reg) (va : Reg) (vb : Reg)
  /-- VOR (R181): Word-by-word or of wide registers. -/
  | vor (q : SeatNo) (vd : Reg) (va : Reg) (vb : Reg)
  /-- VXOR (R181): Word-by-word exclusive or of wide registers. -/
  | vxor (q : SeatNo) (vd : Reg) (va : Reg) (vb : Reg)
  /-- VANDN (R181): Word-by-word and-not of wide registers. -/
  | vandn (q : SeatNo) (vd : Reg) (va : Reg) (vb : Reg)
  /-- VCMPEQ (R181): Compares wide registers word by word into a mask. -/
  | vcmpeq (q : SeatNo) (rd : Reg) (va : Reg) (vb : Reg)
  /-- VADDW (R181): 288-bit integer add. -/
  | vaddw (q : SeatNo) (vd : Reg) (va : Reg) (vb : Reg)
  /-- VSUBW (R181): 288-bit integer subtract. -/
  | vsubw (q : SeatNo) (vd : Reg) (va : Reg) (vb : Reg)
  /-- VSHLW (R181): 288-bit logical left shift. -/
  | vshlw (q : SeatNo) (vd : Reg) (va : Reg) (rb : Reg)
  /-- VSHRW (R181): 288-bit logical right shift. -/
  | vshrw (q : SeatNo) (vd : Reg) (va : Reg) (rb : Reg)
  /-- VLD (R182): Loads 8 aligned words into a wide register. -/
  | vld (q : SeatNo) (rd : Reg) (m : MemOp)
  /-- VST (R182): Stores a wide register to 8 aligned words. -/
  | vst (q : SeatNo) (rd : Reg) (m : MemOp)
  /-- VINS (R181): Inserts a word into a wide register. -/
  | vins (q : SeatNo) (vd : Reg) (ra : Reg) (aux : Reg)
  /-- VEXT (R181): Extracts a word from a wide register. -/
  | vext (q : SeatNo) (rd : Reg) (va : Reg) (aux : Reg)
  /-- VSPLAT (R181): Copies a word into every word of a wide register. -/
  | vsplat (q : SeatNo) (vd : Reg) (ra : Reg)
  /-- CXENC (R184): AES-encrypts two blocks under a key handle. -/
  | cxenc (q : SeatNo) (vd : Reg) (va : Reg) (cb : Reg)
  /-- CXDEC (R184): AES-decrypts two blocks under a key handle. -/
  | cxdec (q : SeatNo) (vd : Reg) (va : Reg) (cb : Reg)
  /-- DGS256 (R185): Runs one SHA-256 compression on wide registers. -/
  | dgs256 (q : SeatNo) (vd : Reg) (va : Reg)
  /-- PMUL18 (R184): Multiplies 18-bit limbs word by word. -/
  | pmul18 (q : SeatNo) (vd : Reg) (va : Reg) (vb : Reg)
  /-- PMAC18 (R184): Multiply-accumulates 18-bit limbs word by word. -/
  | pmac18 (q : SeatNo) (vd : Reg) (va : Reg) (vb : Reg)
  /-- TB_LO_READ (R127): Reading TB_LO captures the timebase high bits into the bank's TB_HI. -/
  | tbLoRead (q : SeatNo) (rd : Reg)
  /-- SEAL_LIVE_WRITE (R66): Sets or retires a seal device-wide and clears its predictions. -/
  | sealLiveWrite (q : SeatNo) (ra : Reg)
  /-- REGPASS (R72): Requests a register pass and clears REGDONE. -/
  | regpass (q : SeatNo) (ra : Reg)
  /-- REGISTER_PASS (R74): At the next leaf stroke boundary seats clear matching tags in registers and buffers. -/
  | registerPass (c : LeafNo)
  /-- SV_XFER_LOAD (R218): Copies a selected save-set granule or trap vector into c11 with its tag. -/
  | svXferLoad (q : SeatNo) (ra : Reg)
  /-- SV_XFER_STORE (R218): Copies c11 into a selected save-set granule or trap vector. -/
  | svXferStore (q : SeatNo) (ra : Reg)
  /-- BANK_SEL_FETCH (R219): Copies a capability of another bank into c11 of T. -/
  | bankSelFetch (q : SeatNo) (ra : Reg)
  /-- BANK_SEL_PLACE (R219): Copies c11 of T into a capability of another bank. -/
  | bankSelPlace (q : SeatNo) (ra : Reg)
  /-- BANK_DATA_WRITE (R219): Writes a word of another bank's register, clearing a capability's tag. -/
  | bankDataWrite (q : SeatNo) (ra : Reg)
  /-- LOAD_DATA (R210): Copies the data window from case into the stick. -/
  | loadData (q : SeatNo) (ra : Reg)
  /-- SAVE_DATA (R210): Copies the stick back to case. -/
  | saveData (q : SeatNo) (ra : Reg)
  /-- LOAD_CODE (R210): Copies the code window into the code store. -/
  | loadCode (q : SeatNo) (ra : Reg)
  /-- RELEASE (R210): Unbinds the stick and code store without copying. -/
  | release (q : SeatNo) (ra : Reg)
  /-- LANE_BASE_WRITE (R279): Moves the descriptor array while every lane is closed, zeroing the new array. -/
  | laneBaseWrite (q : SeatNo) (ra : Reg)
  /-- SETASIDE_SET (R326): Sets an eighth of case aside as bulk cache, zeroing it. -/
  | setasideSet (q : SeatNo) (ra : Reg)
  /-- SETASIDE_CLEAR (R326): Writes back dirty lines and returns an eighth to case. -/
  | setasideClear (q : SeatNo) (ra : Reg)
  /-- PADDLE_REQ (R461): M asserts or clears the KEEL paddle trigger. -/
  | paddleReq (q : SeatNo) (ra : Reg)
  /-- MEAS_EXTEND (R507): Extends a measurement register with MEAS_IN. -/
  | measExtend (q : SeatNo) (ra : Reg)
  /-- ETH_MODE_WRITE (R535): Changing a port's speed or FEC drops its link. -/
  | ethModeWrite (q : SeatNo) (ra : Reg)
  /-- FENCE_DESCRIPTOR_WRITE (R356): An untagged STC of four words installs a fence descriptor. -/
  | fenceDescriptorWrite (q : SeatNo) (rd : Reg) (m : MemOp)
  /-- ACTIVATION_ENTRY (R87): A posted bank enters the lane's compartment through its gate pair. -/
  | activationEntry (q : SeatNo)
  /-- PREEMPTION (R204): A higher posted bank stops the running bank at an instruction boundary. -/
  | preemption (q : SeatNo)
  /-- ACTIVATION_OVERRUN (R257): An activation exceeding MAXACT ends ABORTED. -/
  | activationOverrun (lane : LaneNo)
  /-- RESIDENCE_TIMEOUT (R226): A held pre-emption waiting beyond RESID_LIM delivers an M interruption. -/
  | residenceTimeout (q : SeatNo)
  /-- STOW_COMPLETE (R258): A stow finishes writing a blocked bank out and the bank becomes POSTED. -/
  | stowComplete (q : SeatNo)
  /-- RESTORE_COMPLETE (R261): A restore reads a stowed activation back and leaves the bank READY. -/
  | restoreComplete (q : SeatNo)
  /-- STOW_DELIVERY (R262): A pending STOW fault is delivered to M at an instruction boundary. -/
  | stowDelivery (q : SeatNo)
  /-- PAIR_MISMATCH_DELIVERY (R268): PAIR_MISMATCH is delivered to a disagreeing seat. -/
  | pairMismatchDelivery (q : SeatNo)
  /-- PAIR_WAIT_EXPIRY (R265): A pair wait elapsing with one seat unfinished sends the activation to the referee. -/
  | pairWaitExpiry (c : LeafNo) (buf : Fin 8)
  /-- APPLY_SUBSTITUTION (R271): The leaf cox applies a substitution row set at the crew's stroke boundary. -/
  | applySubstitution (c : LeafNo)
  /-- SPARE_POWER_ON (R271): The spare seat's domain comes up after a check stop. -/
  | sparePowerOn (c : LeafNo)
  /-- STROKE_BOUNDARY (R244): A crew's stroke begins at a multiple of its stroke length. -/
  | strokeBoundary (x : CoxNo)
  /-- PICK_RETURN (R250): An unused pick returns to the head of its queue after 16 cox cycles. -/
  | pickReturn (x : CoxNo) (lane : LaneNo)
  /-- COX_ADD (R243): Cox add. -/
  | coxAdd (x : CoxNo) (rd : Reg) (ra : Reg) (rb : Reg)
  /-- COX_SUB (R243): Cox subtract. -/
  | coxSub (x : CoxNo) (rd : Reg) (ra : Reg) (rb : Reg)
  /-- COX_AND (R243): Cox and. -/
  | coxAnd (x : CoxNo) (rd : Reg) (ra : Reg) (rb : Reg)
  /-- COX_OR (R243): Cox or. -/
  | coxOr (x : CoxNo) (rd : Reg) (ra : Reg) (rb : Reg)
  /-- COX_XOR (R243): Cox exclusive or. -/
  | coxXor (x : CoxNo) (rd : Reg) (ra : Reg) (rb : Reg)
  /-- SHL (R243): Cox left shift. -/
  | shl (x : CoxNo) (rd : Reg) (ra : Reg) (imm : BitVec 18)
  /-- SHR (R243): Cox right shift. -/
  | shr (x : CoxNo) (rd : Reg) (ra : Reg) (imm : BitVec 18)
  /-- COX_ADDI (R243): Cox add immediate. -/
  | coxAddi (x : CoxNo) (rd : Reg) (ra : Reg) (imm : BitVec 18)
  /-- LD (R243): Loads a half-word from the data store. -/
  | ld (x : CoxNo) (rd : Reg) (ra : Reg) (imm : BitVec 18)
  /-- ST (R243): Stores a half-word to the data store. -/
  | st (x : CoxNo) (rd : Reg) (ra : Reg) (imm : BitVec 18)
  /-- BEQ (R243): Cox branch if equal. -/
  | beq (x : CoxNo) (ra : Reg) (rb : Reg) (target : BitVec 13)
  /-- BNE (R243): Cox branch if not equal. -/
  | bne (x : CoxNo) (ra : Reg) (rb : Reg) (target : BitVec 13)
  /-- BLTU (R243): Cox branch if unsigned less. -/
  | bltu (x : CoxNo) (ra : Reg) (rb : Reg) (target : BitVec 13)
  /-- JMP (R243): Cox unconditional branch. -/
  | jmp (x : CoxNo) (target : BitVec 13)
  /-- BNXT (R243): Branches if a stroke boundary has passed. -/
  | bnxt (x : CoxNo) (target : BitVec 13)
  /-- WAITS (R246): Waits for the next stroke boundary and returns the row address. -/
  | waits (x : CoxNo) (rd : Reg)
  /-- IDLE (R243): Holds the cox until a pend, relay, refusal, comparison, POSTABLE change or boundary. -/
  | idle (x : CoxNo)
  /-- STRK (R243): Reads the stroke index and row-set selection. -/
  | strk (x : CoxNo) (rd : Reg)
  /-- PEND (R243): Reads 16 pend bits. -/
  | pend (x : CoxNo) (rd : Reg) (ra : Reg)
  /-- PICK (R243): Takes the head of a ready queue. -/
  | pick (x : CoxNo) (rd : Reg) (ra : Reg)
  /-- SEATST (R243): Reads a logical position's seat-state word. -/
  | seatst (x : CoxNo) (rd : Reg) (ra : Reg)
  /-- POST (R255): Posts a pick to a seat, accepted or refused under the acceptance rule. -/
  | post (x : CoxNo) (rd : Reg) (ra : Reg) (rb : Reg)
  /-- POSTP (R264): Posts a pair-checked activation under a pair triple. -/
  | postp (x : CoxNo) (rd : Reg) (ra : Reg) (rb : Reg)
  /-- RELAY (R17): Relays a pick to a member crew. -/
  | relay (x : CoxNo) (rd : Reg) (ra : Reg) (rb : Reg)
  /-- TAKER (R243): Takes the next relay and its tag. -/
  | taker (x : CoxNo) (rd : Reg)
  /-- CNT (R243): Increments a cox event counter. -/
  | cnt (x : CoxNo) (imm : BitVec 18)
  /-- FRAME_RECEIVE (R305): An Ethernet port checks, classifies and steers a received frame to an ingress lane. -/
  | frameReceive (p : PortNo) (octets : List Octet) (fcsGood : Bool)
  /-- FRAME_TRANSMIT (R553): A port transmits one egress message as a frame or refuses it. -/
  | frameTransmit (p : PortNo) (lane : LaneNo)
  /-- HOST_PUT (R312): The host's put record places a message on a lane. -/
  | hostPut (record : List Octet)
  /-- HELD_MESSAGE_RETRY (R292): A hardware producer retries a held message at a credit return or stroke boundary. -/
  | heldMessageRetry (lane : LaneNo)
  /-- LANE_TIMEOUT (R301): An unmet deadline sets TOF after the settle window and readies a waiter. -/
  | laneTimeout (lane : LaneNo)
  /-- STEERING_SWITCH (R310): The bucket table copies swap at crew T's stroke boundary. -/
  | steeringSwitch
  /-- IMBALANCE_EVENT (R311): A bucket exceeding its limit in a 1 ms window raises an imbalance event. -/
  | imbalanceEvent (p : PortNo) (bucket : BitVec 12)
  /-- DESCRIPTOR_FETCH (R403): A galley channel fetches and checks the descriptor at HEAD. -/
  | descriptorFetch (ch : ChannelNo)
  /-- COPY (R406): Moves words, octets or gathered elements between memories. -/
  | copy (ch : ChannelNo)
  /-- PROOF (R417): Computes a check value over source data. -/
  | proof (ch : ChannelNo)
  /-- ZERO (R419): Writes zero words with tag 0. -/
  | zero (ch : ChannelNo)
  /-- TAG_SWEEP (R420): Clears matching tags over a range, including bound sticks. -/
  | tagSweep (ch : ChannelNo)
  /-- DESCRIPTOR_COMPLETION (R410): Writes word 14 and commits the completion record or event. -/
  | descriptorCompletion (ch : ChannelNo)
  /-- CHANNEL_ENABLE (R399): Enables a channel or resumes it from STOPPED or FAULTED. -/
  | channelEnable (q : SeatNo) (ch : ChannelNo) (v : Word)
  /-- CHANNEL_PAUSE (R413): Requests a channel to drain and pause. -/
  | channelPause (q : SeatNo) (ch : ChannelNo) (v : Word)
  /-- CHANNEL_PAUSED (R413): The drain completes and the channel reports PAUSED. -/
  | channelPaused (ch : ChannelNo)
  /-- CHANNEL_RESUME (R413): Clearing PAUSE resumes the transfer. -/
  | channelResume (q : SeatNo) (ch : ChannelNo) (v : Word)
  /-- GALLEY_DOORBELL (R400): A doorbell word write sets a channel's TAIL. -/
  | galleyDoorbell (q : SeatNo) (ch : ChannelNo) (v : Word)
  /-- MODADD (R382): Platen modular add or subtract. -/
  | modadd (unit : UnitCode) (lane : LaneNo)
  /-- MODMUL (R382): Platen modular multiply. -/
  | modmul (unit : UnitCode) (lane : LaneNo)
  /-- MODEXP (R382): Platen modular exponentiation. -/
  | modexp (unit : UnitCode) (lane : LaneNo)
  /-- RSA_PRIV (R383): Blinded CRT RSA private operation with verify-after-sign. -/
  | rsaPriv (unit : UnitCode) (lane : LaneNo)
  /-- RSA_PUB (R382): RSA public operation with a slot or inline key. -/
  | rsaPub (unit : UnitCode) (lane : LaneNo)
  /-- AES_ECB (R385): AES ECB encrypt or decrypt. -/
  | aesEcb (unit : UnitCode) (lane : LaneNo)
  /-- AES_CBC (R385): AES CBC encrypt or decrypt. -/
  | aesCbc (unit : UnitCode) (lane : LaneNo)
  /-- AES_CTR (R385): AES counter mode. -/
  | aesCtr (unit : UnitCode) (lane : LaneNo)
  /-- AES_GCM (R385): AES GCM encrypt or verify-decrypt. -/
  | aesGcm (unit : UnitCode) (lane : LaneNo)
  /-- AES_CMAC (R385): AES CMAC generate or verify. -/
  | aesCmac (unit : UnitCode) (lane : LaneNo)
  /-- TDES_ECB (R385): TDES ECB encrypt or decrypt. -/
  | tdesEcb (unit : UnitCode) (lane : LaneNo)
  /-- TDES_CBC (R385): TDES CBC encrypt or decrypt. -/
  | tdesCbc (unit : UnitCode) (lane : LaneNo)
  /-- TDES_CMAC (R385): TDES CMAC generate or verify. -/
  | tdesCmac (unit : UnitCode) (lane : LaneNo)
  /-- PIN_XLATE (R386): Translates a PIN block between keys and formats. -/
  | pinXlate (unit : UnitCode) (lane : LaneNo)
  /-- DUKPT_PIN (R387): Derives an AES DUKPT PIN key and translates the block. -/
  | dukptPin (unit : UnitCode) (lane : LaneNo)
  /-- DUKPT_DEC (R385): Decrypts data under the DUKPT data working key. -/
  | dukptDec (unit : UnitCode) (lane : LaneNo)
  /-- RANDOM (R385): Returns random octets from the DRBG. -/
  | random (unit : UnitCode) (lane : LaneNo)
  /-- KGEN (R389): Generates a fresh key into an empty slot. -/
  | kgen (unit : UnitCode) (lane : LaneNo)
  /-- KIMPORT (R390): Unwraps a blob into an empty slot. -/
  | kimport (unit : UnitCode) (lane : LaneNo)
  /-- KEXPORT (R390): Wraps a loaded exportable slot into a blob. -/
  | kexport (unit : UnitCode) (lane : LaneNo)
  /-- KDEL (R381): Zeroes a slot and answers once earlier jobs on it finish. -/
  | kdel (unit : UnitCode) (lane : LaneNo)
  /-- KINFO (R389): Returns a slot's public part. -/
  | kinfo (unit : UnitCode) (lane : LaneNo)
  /-- KSEAL (R389): Returns the master key's check value. -/
  | kseal (unit : UnitCode) (lane : LaneNo)
  /-- SHA (R391): Computes a SHA digest or chained state. -/
  | sha (unit : UnitCode) (lane : LaneNo)
  /-- HMAC_GEN (R391): Generates an HMAC tag. -/
  | hmacGen (unit : UnitCode) (lane : LaneNo)
  /-- HMAC_VER (R391): Verifies an HMAC tag. -/
  | hmacVer (unit : UnitCode) (lane : LaneNo)
  /-- PARSE (R428): A compositor parses a message under a form into field view records. -/
  | parse (unit : UnitCode) (lane : LaneNo)
  /-- ENGINE_RESPONSE (R376): An engine or compositor commits a finished job's response on its response lane. -/
  | engineResponse (unit : UnitCode) (lane : LaneNo)
  /-- ENTROPY_FAILURE (R392): A noise source failing a health test stops contributing. -/
  | entropyFailure (src : Fin 2)
  /-- DRBG_RESEED (R393): A DRBG instance reseeds every 100 ms or after 2^16 requests. -/
  | drbgReseed (inst : Fin 4)
  /-- CASE_SCRUB (R321): A bank scrubs its granules, correcting or poisoning. -/
  | caseScrub (a : Word) (errors : BitErrors)
  /-- ROW_REPAIR (R323): A bank copies a failing row to a spare and remaps it. -/
  | rowRepair (a : Word)
  /-- BULK_PATROL (R336): The bulk controller reads every stripe once per 24 hours. -/
  | bulkPatrol (stripe : BitVec 28) (found : StripeCheck)
  /-- HOST_READ_TIMEOUT (R537): A module read of the host window times out after 10 ms. -/
  | hostReadTimeout (reader : HostReader)
  /-- COUNTER_DUMP (R445): A dump falls due and the counter store snapshots the selected counters. -/
  | counterDump
  /-- DUMP_RECORD_COMPLETE (R447): The galley finishes writing a dump record and puts its word on DUMP_LANE. -/
  | dumpRecordComplete
  /-- SAMPLE_TAG (R448): The sampling countdown expires and tags the decoded instruction. -/
  | sampleTag (q : SeatNo)
  /-- SAMPLE_RECORD (R449): A tagged instruction retiring or trapping produces a sample record. -/
  | sampleRecord (q : SeatNo)
  /-- FEED_STATE_CHANGE (R458): A feed enters SAG, LOSS or OVER after 4 samples, or GOOD after 1 ms. -/
  | feedStateChange (feed : Fin 2) (st : FeedState)
  /-- MONITOR_OUT_OF_RANGE (R456): A rail or droop monitor goes out of range. -/
  | monitorOutOfRange (m : Monitor)
  /-- THERMAL_LIMIT (R460): A temperature above 105 °C in two samples asserts THERMAL. -/
  | thermalLimit (sensor : Fin 112) (reading : Int)
  /-- THROTTLE_START (R453): A sensor at 100 °C caps seat clocks and drives THERM_N low. -/
  | throttleStart (sensor : Fin 112) (reading : Int)
  /-- THROTTLE_END (R453): Every sensor at 97 °C or less ends throttling. -/
  | throttleEnd (readings : List Int)
  /-- HOLD_ASSERT (R531): HOLD_N low for 1 µs asserts the HOLD trigger. -/
  | holdAssert
  /-- HOLD_CLEAR (R531): HOLD_N high for 1 µs clears the HOLD trigger. -/
  | holdClear
  /-- PADDLE_COURSE_SWITCH (R273): The paddle crew's cox switches to the paddle course at its boundary. -/
  | paddleCourseSwitch
  /-- PADDLE_EXIT (R467): The settle time expires and domain switch-on begins. -/
  | paddleExit
  /-- PADDLE_EXIT_COMPLETE (R467): At crew T's boundary after 200 µs every cox resumes and PADDLE clears. -/
  | paddleExitComplete
  /-- JOURNAL_SEAL (R469): Low input or high temperature starts sealing the journal. -/
  | journalSeal (cause : SealCause)
  /-- JOURNAL_SEAL_COMPLETE (R471): The journal header is written; a temperature seal switches off domains. -/
  | journalSealComplete
  /-- DROPOUT (R471): The input falling below 6.0 V removes power from every domain. -/
  | dropout
  /-- READ_REQ (R476): A manager reads a dictionary entry. -/
  | readReq (f : Frame)
  /-- WRITE_REQ (R486): A manager writes a dictionary entry without command behaviour. -/
  | writeReq (f : Frame)
  /-- SEGMENT (R476): A segment or acknowledgement of a segmented transfer. -/
  | segment (f : Frame)
  /-- TRANSFER_ABORT (R476): Either side abandons a segmented transfer. -/
  | transferAbort (f : Frame)
  /-- TRANSFER_TIMEOUT (R476): A 100 ms wait for a segment ends the transfer. -/
  | transferTimeout (tr : Transport) (mgr : BitVec 8)
  /-- WAYENOUGH (R491): A WAYENOUGH frame submits a way-enough command. -/
  | wayenough (f : Frame)
  /-- AUTH_REQUEST (R480): AUTH step 1; the device answers with its nonce. -/
  | authRequest (f : Frame)
  /-- AUTH_SIGNATURE (R480): AUTH step 3; the device verifies and installs the session. -/
  | authSignature (f : Frame) (signature : List Octet)
  /-- AUTH_TIMEOUT (R480): A wait over 1 s between AUTH steps ends the attempt. -/
  | authTimeout (tr : Transport) (mgr : BitVec 8)
  /-- SESSION_IDLE_TIMEOUT (R481): A session with no valid frame for the idle time ends. -/
  | sessionIdleTimeout (tr : Transport) (mgr : BitVec 8)
  /-- HEARTBEAT (R475): The device sends a periodic heartbeat frame. -/
  | heartbeat (fp : Fin 2)
  /-- BUS_OFF_RECOVERY (R472): A field port recovers from bus-off after 128 idle sequences. -/
  | busOffRecovery (fp : Fin 2)
  /-- DICTIONARY_WINDOW_REQUEST (R483): The host advances REQ_TAIL and the device takes a request slot. -/
  | dictionaryWindowRequest (record : List Octet)
  /-- WINDOW_EVENT_DROP (R483): An EVENT waiting 1 ms for a response slot is dropped. -/
  | windowEventDrop
  /-- MIRROR_DATAGRAM (R484): A UDP datagram to the management address carries an Irrix frame. -/
  | mirrorDatagram (p : PortNo) (src : List Octet) (payload : List Octet)
  /-- MIRROR_NEIGHBOUR (R484): A port answers ARP or neighbour solicitation for the management address. -/
  | mirrorNeighbour (p : PortNo) (target : List Octet)
  /-- MAILBOX_SUBMIT (R485): Keel submits a frame record through the monitor mailbox. -/
  | mailboxSubmit (q : SeatNo)
  /-- TB_SET (R487): Sets the timebase forward before any lane is open. -/
  | tbSet (f : Frame)
  /-- STEER_SW (R310): Requests a bucket table switch. -/
  | steerSw (f : Frame)
  /-- IMAGE (R511): Stores octets into the staged set, erasing a sector at each 64 KiB offset. -/
  | image (f : Frame)
  /-- MASTER_KEY_GENERATE (R368): Generates the master key while it is absent or zeroised. -/
  | masterKeyGenerate (f : Frame)
  /-- MASTER_KEY_ZEROISE (R368): Zeroises the master key. -/
  | masterKeyZeroise (f : Frame)
  /-- ROOTKEY_REVOKE (R496): Revokes a root slot by programming its fuse. -/
  | rootkeyRevoke (f : Frame)
  /-- WAYENOUGH_WRITE (R491): A write of 0xF001 sub-index 3 submits a way-enough command. -/
  | wayenoughWrite (f : Frame)
  /-- WAYENOUGH_LANE (R314): Aborts a lane's reservations and messages and closes it. -/
  | wayenoughLane (lane : LaneNo)
  /-- WAYENOUGH_JOB (R388): Aborts a cipher or digest job within 1 µs. -/
  | wayenoughJob (number : Word)
  /-- WAYENOUGH_PLATEN (R384): Stops a platen job at a limb-loop boundary. -/
  | wayenoughPlaten (number : Word)
  /-- WAYENOUGH_CHANNEL (R414): Aborts a galley channel's descriptor and stops it. -/
  | wayenoughChannel (ch : ChannelNo)
  /-- WAYENOUGH_COMPARTMENT (R490): Ends every activation of a seal ABORTED. -/
  | wayenoughCompartment (sealv : BitVec 16)
  /-- WAYENOUGH_CREW (R490): Ends every activation beneath a crew ABORTED. -/
  | wayenoughCrew (x : CoxNo)
  /-- WAYENOUGH_DEVICE (R490): Aborts all activations, channels and non-custody jobs. -/
  | wayenoughDevice
  /-- WAYENOUGH_COMPLETE (R491): A way-enough command completes and reports its elapsed time. -/
  | wayenoughComplete
  /-- PADDLE_COMMAND (R460): A manager asserts or clears the COMMAND paddle trigger. -/
  | paddleCommand (f : Frame)
  /-- CHANGEOVER_VERIFY (R513): Verifies the staged set and loads the standby copies. -/
  | changeoverVerify (f : Frame)
  /-- CHANGEOVER_SWITCH (R514): Arms the switch for the first T course boundary after 1 ms. -/
  | changeoverSwitch (f : Frame)
  /-- CHANGEOVER_DISCARD (R512): Clears the standby copies. -/
  | changeoverDiscard (f : Frame)
  /-- VERIFY_COMPLETE (R512): Verification ends with STANDBY verified or refused. -/
  | verifyComplete
  /-- M_HOLD (R516): The M hold asserts at the T boundary before a Keel switch. -/
  | mHold
  /-- CHANGEOVER_BOUNDARY (R514): Standby copies become active at the course boundary. -/
  | changeoverBoundary
  /-- DRAIN_END (R515): With no old activation live, the marker and counters are written. -/
  | drainEnd
  /-- PROOF_REQUEST (R509): A nonce write requests a signed proof sheet. -/
  | proofRequest (f : Frame)
  /-- PROOF_SHEET_COMPLETE (R510): The signed proof sheet becomes readable. -/
  | proofSheetComplete
  /-- SUBST (R234): A seat reported failed enters check stop. -/
  | subst (f : Frame)
  /-- POR_ASSERT (R529): POR_N low resets every domain except custody. -/
  | porAssert
  /-- POR_RELEASE (R502): Release of POR_N starts the boot sequence. -/
  | porRelease (node : BitVec 7) (en0 : Bool) (en1 : Bool)
  /-- BOOT_LANE_TIMEOUT (R504): No lane opened within 2.5 s reports result 8. -/
  | bootLaneTimeout
  /-- TAMPER_DETECT (R519): A tamper sensor fires and custody zeroises the keys. -/
  | tamperDetect (source : TamperSource)
  /-- ENDPOINT_RESET (R539): Hot reset, link down, FLR or GP[0] low resets only the PCI Express endpoint. -/
  | endpointReset
  /-- APERTURE_READ (R538): A host read through BAR2 returns octet slots; one through BAR0, its registers (log 56). -/
  | apertureRead (off : BarOff) (n : BitVec 13)
  /-- APERTURE_WRITE (R538): A host write through BAR2 sets octet slots and clears the tag; one through BAR0 reaches APER_BASE
  (log 56). -/
  | apertureWrite (off : BarOff) (octets : List Octet)
  /-- LINK_UP (R535): An Ethernet link comes up under its new setting. -/
  | linkUp (p : PortNo)
  /-- REFCLK_LOSS (R532): REFCLK absent for 10 µs moves the timebase to the internal oscillator. -/
  | refclkLoss
  /-- TB_SYNC_EDGE (R533): A TB_SYNC edge is captured and disciplines the rate. -/
  | tbSyncEdge
  /-- TB_OUT_PULSE (R533): TB_OUT rises at each whole second of timebase. -/
  | tbOutPulse
  /-- BYPASS (R543): Boundary-scan bypass. -/
  | bypass
  /-- IDCODE (R543): Boundary-scan identification code. -/
  | idcode
  /-- SAMPLE_PRELOAD (R543): Boundary-scan sample and preload. -/
  | samplePreload (preload : List Bool)
  /-- EXTEST (R543): Boundary-scan external test while POR_N is low. -/
  | extest
  /-- CLAMP (R543): Boundary-scan clamp while POR_N is low. -/
  | clamp
  /-- HIGHZ (R543): Boundary-scan high impedance while POR_N is low. -/
  | highz
  /-- UNASSIGNED_OPCODE (R130): A seat retires an instruction word whose major, fn or cond is unassigned, including the KT1836 decimal majors and the all-zero word, and raises ILLEGAL or ATTACHED. -/
  | unassignedOpcode (q : SeatNo) (word : Word) (next : Word)
  /-- THERMAL_CLEAR (R460): Every temperature sensor reads 100 °C or less, which clears the THERMAL paddle trigger and can start the settle time. -/
  | thermalClear (readings : List Int)
  /-- MONITOR_IN_RANGE (R456): Every rail and seat droop monitor is back in range, which clears the MONITOR paddle trigger and the ERR_N condition. -/
  | monitorInRange (m : Monitor)
  /-- REFCLK_RETURN (R532): REFCLK returns after a loss, and the timebase moves back to it without stepping backward. -/
  | refclkReturn
  /-- PCIE_LINK_UP (R539): The PCI Express link trains up again after a link-down or reset, ending the state in which host window reads fail and writes are discarded. -/
  | pcieLinkUp
  /-- LINK_LOSS (R535): An Ethernet port loses the far end's signal and its link goes down. -/
  | linkLoss (p : PortNo)
  /-- BUS_OFF (R472): A CAN FD field port enters bus-off and counts a bus-off event. -/
  | busOff (fp : Fin 2)
  /-- RSP_HEAD_WRITE (R483): The host advances RSP_HEAD of the dictionary window, which frees response slots so that held answers and events can be written. -/
  | rspHeadWrite (head : BitVec 4)
deriving DecidableEq, Repr

end Sys2Proof
end

