-- ==== Sys2Proof/Decode.lean ====
section
/-! DEFINITION. The encodings of seat instructions (04 R128 to R139, 05 R140 to R185): the word of each instruction, the
decode checks that look at the word alone, and the reading of a word. spec/opcode_table.json gives its rows no bits, so
decodeTableWord reads none. -/

namespace Sys2Proof

/-- Format A of R128. -/
def encA (op : BitVec 7) (rd ra rb : Reg) (fn : BitVec 9) (aux : Reg) : Word := op ++ rd ++ ra ++ rb ++ fn ++ aux

/-- Format I of R128. -/
def encI (op : BitVec 7) (rd ra : Reg) (imm : BitVec 19) : Word := op ++ rd ++ ra ++ imm

/-- Format M of R128. -/
def encM (op : BitVec 7) (rd : Reg) (m : MemOp) : Word := op ++ rd ++ m.ca ++ m.mode ++ m.ix ++ m.disp

/-- Format B of R128. -/
def encB (op : BitVec 7) (cond : BitVec 4) (ra rb : Reg) (disp : BitVec 15) : Word := op ++ cond ++ ra ++ rb ++ disp

/-- The first word of format L (R128). -/
def encL (op : BitVec 7) (rd ra : Reg) (fn : BitVec 9) : Word := op ++ rd ++ ra ++ fn ++ (0 : BitVec 10)

/-- SYSRD and SYSWR: bits 16-5 hold the system-word number (R179). -/
def encS (op : BitVec 7) (rd ra : Reg) (sw : BitVec 12) : Word := op ++ rd ++ ra ++ (0 : BitVec 2) ++ sw ++ (0 : BitVec 5)

/-- The first word of a seat instruction; 0, which is never an instruction (R137), for every other command. Where the aux of a
MAPSYNC does not use ra or rb (R168), the field is 0, and a word that has it otherwise raises ILLEGAL. DESIGN CHOICE, log
101. -/
def seatWord : Instr → Word
  | .add _ rd ra rb => encA 0o001 rd ra rb 0o000 0
  | .sub _ rd ra rb => encA 0o001 rd ra rb 0o001 0
  | .and _ rd ra rb => encA 0o001 rd ra rb 0o002 0
  | .or _ rd ra rb => encA 0o001 rd ra rb 0o003 0
  | .xor _ rd ra rb => encA 0o001 rd ra rb 0o004 0
  | .andn _ rd ra rb => encA 0o001 rd ra rb 0o005 0
  | .slt _ rd ra rb => encA 0o001 rd ra rb 0o006 0
  | .sltu _ rd ra rb => encA 0o001 rd ra rb 0o007 0
  | .min _ rd ra rb => encA 0o001 rd ra rb 0o010 0
  | .max _ rd ra rb => encA 0o001 rd ra rb 0o011 0
  | .minu _ rd ra rb => encA 0o001 rd ra rb 0o012 0
  | .maxu _ rd ra rb => encA 0o001 rd ra rb 0o013 0
  | .clz _ rd ra => encA 0o001 rd ra 0 0o014 0
  | .popc _ rd ra => encA 0o001 rd ra 0 0o015 0
  | .addco _ rd ra rb => encA 0o001 rd ra rb 0o016 0
  | .sll _ rd ra rb => encA 0o002 rd ra rb 0o000 0
  | .srl _ rd ra rb => encA 0o002 rd ra rb 0o001 0
  | .sra _ rd ra rb => encA 0o002 rd ra rb 0o002 0
  | .rol _ rd ra rb => encA 0o002 rd ra rb 0o003 0
  | .slla _ rd ra aux => encA 0o002 rd ra 0 0o004 aux
  | .srla _ rd ra aux => encA 0o002 rd ra 0 0o005 aux
  | .sraa _ rd ra aux => encA 0o002 rd ra 0 0o006 aux
  | .rola _ rd ra aux => encA 0o002 rd ra 0 0o007 aux
  | .mul _ rd ra rb => encA 0o003 rd ra rb 0o000 0
  | .mulh _ rd ra rb => encA 0o003 rd ra rb 0o001 0
  | .mulhu _ rd ra rb => encA 0o003 rd ra rb 0o002 0
  | .muld _ rd ra rb => encA 0o003 rd ra rb 0o003 0
  | .div _ rd ra rb => encA 0o003 rd ra rb 0o004 0
  | .divu _ rd ra rb => encA 0o003 rd ra rb 0o005 0
  | .rem _ rd ra rb => encA 0o003 rd ra rb 0o006 0
  | .remu _ rd ra rb => encA 0o003 rd ra rb 0o007 0
  | .hswap _ rd ra => encA 0o004 rd ra 0 0o000 0
  | .hadd _ rd ra rb => encA 0o004 rd ra rb 0o001 0
  | .hsub _ rd ra rb => encA 0o004 rd ra rb 0o002 0
  | .hjoin _ rd ra rb => encA 0o004 rd ra rb 0o003 0
  | .hsx0 _ rd ra => encA 0o004 rd ra 0 0o004 0
  | .hsx1 _ rd ra => encA 0o004 rd ra 0 0o005 0
  | .extu _ rd ra pos aux => encA 0o004 rd ra 0 (0o100 ||| pos.zeroExtend 9) aux
  | .exts _ rd ra pos aux => encA 0o004 rd ra 0 (0o200 ||| pos.zeroExtend 9) aux
  | .ins _ rd ra pos aux => encA 0o004 rd ra 0 (0o300 ||| pos.zeroExtend 9) aux
  | .addi _ rd ra imm => encI 0o010 rd ra imm
  | .andi _ rd ra imm => encI 0o011 rd ra imm
  | .ori _ rd ra imm => encI 0o012 rd ra imm
  | .xori _ rd ra imm => encI 0o013 rd ra imm
  | .slti _ rd ra imm => encI 0o014 rd ra imm
  | .sltiu _ rd ra imm => encI 0o015 rd ra imm
  | .lih _ rd ra imm => encI 0o016 rd ra imm
  | .muli _ rd ra imm => encI 0o017 rd ra imm
  | .li _ rd _ => encL 0o030 rd 0 0o000
  | .addl _ rd ra _ => encL 0o030 rd ra 0o001
  | .andl _ rd ra _ => encL 0o030 rd ra 0o002
  | .orl _ rd ra _ => encL 0o030 rd ra 0o003
  | .xorl _ rd ra _ => encL 0o030 rd ra 0o004
  | .opack _ rd ra aux => encA 0o040 rd ra 0 0o000 aux
  | .ounpk _ rd ra => encA 0o040 rd ra 0 0o001 0
  | .oget _ rd ra rb aux => encA 0o040 rd ra rb 0o002 aux
  | .oput _ rd ra rb aux => encA 0o040 rd ra rb 0o003 aux
  | .ocnt _ rd ra => encA 0o040 rd ra 0 0o004 0
  | .ldw _ rd m => encM 0o050 rd m
  | .stw _ rd m => encM 0o051 rd m
  | .ldd _ rd m => encM 0o052 rd m
  | .std _ rd m => encM 0o053 rd m
  | .ldc _ rd m => encM 0o054 rd m
  | .stc _ rd m => encM 0o055 rd m
  | .ldm _ rd m => encM 0o056 rd m
  | .stm _ rd m => encM 0o057 rd m
  | .movw _ rd ra rb aux => encA 0o060 rd ra rb 0o000 aux
  | .fillw _ rd ra rb => encA 0o061 rd ra rb 0o000 0
  | .cgetc _ rd ca => encA 0o070 rd ca 0 0o000 0
  | .cgetb _ rd ca => encA 0o070 rd ca 0 0o001 0
  | .cgetl _ rd ca => encA 0o070 rd ca 0 0o002 0
  | .cgetp _ rd ca => encA 0o070 rd ca 0 0o003 0
  | .cgett _ rd ca => encA 0o070 rd ca 0 0o004 0
  | .cmov _ rd ca => encA 0o070 rd ca 0 0o010 0
  | .ctest _ rd ca rb aux => encA 0o070 rd ca rb 0o020 aux
  | .cinc _ rd ca rb => encA 0o071 rd ca rb 0o000 0
  | .cinci _ rd ca imm => encI 0o072 rd ca imm
  | .csetb _ rd ca rb => encA 0o073 rd ca rb 0o000 0
  | .csetbi _ rd ca imm => encI 0o074 rd ca imm
  | .candr _ rd ca rb => encA 0o075 rd ca rb 0o000 0
  | .cclg _ rd ca => encA 0o075 rd ca 0 0o001 0
  | .cseal _ rd ca cb => encA 0o076 rd ca cb 0o000 0
  | .cunseal _ rd ca cb => encA 0o076 rd ca cb 0o001 0
  | .cinvoke _ ca cb => encA 0o077 0 ca cb 0o000 0
  | .b _ cond ra rb disp => encB 0o100 cond ra rb disp
  | .j _ ra imm => encI 0o101 0 ra imm
  | .jal _ rd ra imm => encI 0o102 rd ra imm
  | .trap _ imm => encI 0o103 0 0 imm
  | .ret _ => encA 0o104 0 0 0 0o000 0
  | .endAct _ => encA 0o105 0 0 0 0o000 0
  | .synci _ => encA 0o106 0 0 0 0o000 0
  | .fenceFull _ => encA 0o107 0 0 0 0o000 0
  | .fenceAcquire _ => encA 0o107 0 0 0 0o000 1
  | .fenceRelease _ => encA 0o107 0 0 0 0o000 2
  | .fencew _ => encA 0o110 0 0 0 0o000 0
  | .sealsync _ => encA 0o111 0 0 0 0o000 0
  | .mapsyncAll _ => encA 0o112 0 0 0 0o000 0
  | .mapsyncMap _ ra => encA 0o112 0 ra 0 0o000 1
  | .mapsyncPage _ ra rb => encA 0o112 0 ra rb 0o000 2
  | .doorbell _ rd ra rb => encA 0o113 rd ra rb 0o000 0
  | .callg _ ra imm => encI 0o114 0 ra imm
  | .lopen _ rd ca cb aux => encA 0o120 rd ca cb 0o000 aux
  | .lclose _ rd ca => encA 0o121 rd ca 0 0o000 0
  | .lput _ rd ca rb => encA 0o122 rd ca rb 0o000 0
  | .ltake _ rd ca rb aux => encA 0o123 rd ca rb 0o000 aux
  | .lgive _ rd ra rb => encA 0o124 rd ra rb 0o000 0
  | .larm _ rd ca rb => encA 0o125 rd ca rb 0o000 0
  | .lstat _ rd ca aux => encA 0o126 rd ca 0 0o000 aux
  | .sysrd _ rd sw => encS 0o130 rd 0 sw
  | .syswr _ ra sw => encS 0o131 0 ra sw
  | .wayen _ rd ra rb => encA 0o132 rd ra rb 0o000 0
  | .vadd _ vd va vb => encA 0o160 vd va vb 0o000 0
  | .vsub _ vd va vb => encA 0o160 vd va vb 0o001 0
  | .vand _ vd va vb => encA 0o160 vd va vb 0o002 0
  | .vor _ vd va vb => encA 0o160 vd va vb 0o003 0
  | .vxor _ vd va vb => encA 0o160 vd va vb 0o004 0
  | .vandn _ vd va vb => encA 0o160 vd va vb 0o005 0
  | .vcmpeq _ rd va vb => encA 0o160 rd va vb 0o006 0
  | .vaddw _ vd va vb => encA 0o161 vd va vb 0o000 0
  | .vsubw _ vd va vb => encA 0o161 vd va vb 0o001 0
  | .vshlw _ vd va rb => encA 0o161 vd va rb 0o002 0
  | .vshrw _ vd va rb => encA 0o161 vd va rb 0o003 0
  | .vld _ rd m => encM 0o162 rd m
  | .vst _ rd m => encM 0o163 rd m
  | .vins _ vd ra aux => encA 0o164 vd ra 0 0o000 aux
  | .vext _ rd va aux => encA 0o164 rd va 0 0o001 aux
  | .vsplat _ vd ra => encA 0o164 vd ra 0 0o002 0
  | .cxenc _ vd va cb => encA 0o170 vd va cb 0o000 0
  | .cxdec _ vd va cb => encA 0o170 vd va cb 0o001 0
  | .dgs256 _ vd va => encA 0o174 vd va 0 0o000 0
  | .pmul18 _ vd va vb => encA 0o176 vd va vb 0o000 0
  | .pmac18 _ vd va vb => encA 0o176 vd va vb 0o001 0
  | .tbLoRead _ rd => encS 0o130 rd 0 0o0040
  | .sealLiveWrite _ ra => encS 0o131 0 ra 0o0401
  | .regpass _ ra => encS 0o131 0 ra 0o0410
  | .svXferLoad _ ra => encS 0o131 0 ra 0o0164
  | .svXferStore _ ra => encS 0o131 0 ra 0o0164
  | .bankSelFetch _ ra => encS 0o131 0 ra 0o0165
  | .bankSelPlace _ ra => encS 0o131 0 ra 0o0165
  | .bankDataWrite _ ra => encS 0o131 0 ra 0o0166
  | .loadData _ ra => encS 0o131 0 ra 0o0203
  | .saveData _ ra => encS 0o131 0 ra 0o0203
  | .loadCode _ ra => encS 0o131 0 ra 0o0203
  | .release _ ra => encS 0o131 0 ra 0o0203
  | .laneBaseWrite _ ra => encS 0o131 0 ra 0o0430
  | .setasideSet _ ra => encS 0o131 0 ra 0o0440
  | .setasideClear _ ra => encS 0o131 0 ra 0o0440
  | .paddleReq _ ra => encS 0o131 0 ra 0o0461
  | .measExtend _ ra => encS 0o131 0 ra 0o0500
  | .ethModeWrite _ ra => encS 0o131 0 ra 0o0510
  | .fenceDescriptorWrite _ rd m => encM 0o055 rd m
  | _ => 0

/-- The second word of an L-format instruction (R149). -/
def seatImm : Instr → Word
  | .li _ _ imm => imm
  | .addl _ _ _ imm | .andl _ _ _ imm | .orl _ _ _ imm | .xorl _ _ _ imm => imm
  | _ => 0

/-- The length of a seat instruction in words: two for the L format (R128). -/
def seatLen (i : Instr) : Nat := if (seatWord i).extractLsb' 29 7 = 0o030 then 2 else 1

/-- Does a 5-bit field name a register of a file of 16 (R129)? -/
def reg16 (r : Reg) : Bool := decide (r.toNat < 16)

/-- Is the field even (R147, R185)? -/
def regEven (r : Reg) : Bool := r.toNat % 2 == 0

/-- The res0 fields of the addressing modes (R133). -/
def memLegal (m : MemOp) : Bool :=
  if m.mode = 0 then m.ix == 0 else if m.mode = 1 ∨ m.mode = 2 then m.ix == 0 && m.disp == 0 else true

/-- Does the mode change the base register (R133)? -/
def MemOp.updates (m : MemOp) : Bool := m.mode == 1 || m.mode == 2

/-- The checks of R130 steps 2 and 3 on an instruction's fields: register fields (R129), values a field may not take, and
the decode conditions of the instruction reference. -/
def seatLegal : Instr → Bool
  | .extu _ _ _ pos aux | .exts _ _ _ pos aux | .ins _ _ _ pos aux => decide (pos.toNat + aux.toNat + 1 ≤ 36)
  | .muld _ rd _ _ => regEven rd
  | .opack _ _ _ aux => decide (1 ≤ aux.toNat) && decide (aux.toNat ≤ 4)
  | .ldw _ _ m | .stw _ _ m | .ldm _ _ m | .stm _ _ m => memLegal m
  | .ldd _ rd m | .std _ rd m => regEven rd && memLegal m
  | .ldc _ rd m => reg16 rd && memLegal m && !(m.updates && rd.toNat == m.ca.toNat)
  | .stc _ rd m | .fenceDescriptorWrite _ rd m | .vld _ rd m | .vst _ rd m => reg16 rd && memLegal m
  | .movw _ rd ra _ aux => reg16 rd && reg16 ra && decide (aux.toNat ≤ 1)
  | .fillw _ rd _ _ => reg16 rd
  | .cgetc _ _ ca | .cgetb _ _ ca | .cgetl _ _ ca | .cgetp _ _ ca | .cgett _ _ ca | .ctest _ _ ca _ _ => reg16 ca
  | .cmov _ rd ca | .cinc _ rd ca _ | .cinci _ rd ca _ | .csetb _ rd ca _ | .csetbi _ rd ca _ | .candr _ rd ca _
  | .cclg _ rd ca => reg16 rd && reg16 ca
  | .cseal _ rd ca cb | .cunseal _ rd ca cb => reg16 rd && reg16 ca && reg16 cb
  | .cinvoke _ ca cb => reg16 ca && reg16 cb
  | .b _ cond ra rb _ => decide (cond.toNat ≤ 8) && (cond.toNat != 8 || (ra == 0 && rb == 0))
  | .callg _ ra _ => reg16 ra
  | .lopen _ _ ca cb aux => reg16 ca && reg16 cb && reg16 aux
  | .lclose _ _ ca | .lput _ _ ca _ | .larm _ _ ca _ => reg16 ca
  | .ltake _ _ ca _ aux => reg16 ca && decide (aux.toNat ≤ 1)
  | .lstat _ _ ca aux => reg16 ca && reg16 aux
  | .vadd _ vd va vb | .vsub _ vd va vb | .vand _ vd va vb | .vor _ vd va vb | .vxor _ vd va vb | .vandn _ vd va vb
  | .vaddw _ vd va vb | .vsubw _ vd va vb | .pmul18 _ vd va vb | .pmac18 _ vd va vb
  | .cxenc _ vd va vb | .cxdec _ vd va vb => reg16 vd && reg16 va && reg16 vb
  | .vcmpeq _ _ va vb => reg16 va && reg16 vb
  | .vshlw _ vd va _ | .vshrw _ vd va _ => reg16 vd && reg16 va
  | .vins _ vd _ aux => reg16 vd && decide (aux.toNat ≤ 7)
  | .vext _ _ va aux => reg16 va && decide (aux.toNat ≤ 7)
  | .vsplat _ vd _ => reg16 vd
  | .dgs256 _ vd va => reg16 vd && reg16 va && regEven va
  | _ => true

def fRd (w : Word) : Reg := w.extractLsb' 24 5
def fRa (w : Word) : Reg := w.extractLsb' 19 5
def fRb (w : Word) : Reg := w.extractLsb' 14 5
def fFn (w : Word) : BitVec 9 := w.extractLsb' 5 9
def fAux (w : Word) : Reg := w.extractLsb' 0 5
def fImm (w : Word) : BitVec 19 := w.extractLsb' 0 19
def fBa (w : Word) : Reg := w.extractLsb' 20 5
def fBb (w : Word) : Reg := w.extractLsb' 15 5
def fMem (w : Word) : MemOp :=
  { ca := w.extractLsb' 20 4, mode := w.extractLsb' 17 3, ix := w.extractLsb' 12 5, disp := w.extractLsb' 0 12 }

/-- The instruction that the opcode map assigns to a word's major, fn and cond (R137); none where one is unassigned. imm is
the word that follows. -/
def seatCandidate (q : SeatNo) (w imm : Word) : Option Instr :=
  match (w.extractLsb' 29 7).toNat with
  | 0o001 =>
    match (fFn w).toNat with
    | 0o000 => some (.add q (fRd w) (fRa w) (fRb w))
    | 0o001 => some (.sub q (fRd w) (fRa w) (fRb w))
    | 0o002 => some (.and q (fRd w) (fRa w) (fRb w))
    | 0o003 => some (.or q (fRd w) (fRa w) (fRb w))
    | 0o004 => some (.xor q (fRd w) (fRa w) (fRb w))
    | 0o005 => some (.andn q (fRd w) (fRa w) (fRb w))
    | 0o006 => some (.slt q (fRd w) (fRa w) (fRb w))
    | 0o007 => some (.sltu q (fRd w) (fRa w) (fRb w))
    | 0o010 => some (.min q (fRd w) (fRa w) (fRb w))
    | 0o011 => some (.max q (fRd w) (fRa w) (fRb w))
    | 0o012 => some (.minu q (fRd w) (fRa w) (fRb w))
    | 0o013 => some (.maxu q (fRd w) (fRa w) (fRb w))
    | 0o014 => some (.clz q (fRd w) (fRa w))
    | 0o015 => some (.popc q (fRd w) (fRa w))
    | 0o016 => some (.addco q (fRd w) (fRa w) (fRb w))
    | _ => none
  | 0o002 =>
    match (fFn w).toNat with
    | 0o000 => some (.sll q (fRd w) (fRa w) (fRb w))
    | 0o001 => some (.srl q (fRd w) (fRa w) (fRb w))
    | 0o002 => some (.sra q (fRd w) (fRa w) (fRb w))
    | 0o003 => some (.rol q (fRd w) (fRa w) (fRb w))
    | 0o004 => some (.slla q (fRd w) (fRa w) (fAux w))
    | 0o005 => some (.srla q (fRd w) (fRa w) (fAux w))
    | 0o006 => some (.sraa q (fRd w) (fRa w) (fAux w))
    | 0o007 => some (.rola q (fRd w) (fRa w) (fAux w))
    | _ => none
  | 0o003 =>
    match (fFn w).toNat with
    | 0o000 => some (.mul q (fRd w) (fRa w) (fRb w))
    | 0o001 => some (.mulh q (fRd w) (fRa w) (fRb w))
    | 0o002 => some (.mulhu q (fRd w) (fRa w) (fRb w))
    | 0o003 => some (.muld q (fRd w) (fRa w) (fRb w))
    | 0o004 => some (.div q (fRd w) (fRa w) (fRb w))
    | 0o005 => some (.divu q (fRd w) (fRa w) (fRb w))
    | 0o006 => some (.rem q (fRd w) (fRa w) (fRb w))
    | 0o007 => some (.remu q (fRd w) (fRa w) (fRb w))
    | _ => none
  | 0o004 =>
    match (fFn w).toNat with
    | 0o000 => some (.hswap q (fRd w) (fRa w))
    | 0o001 => some (.hadd q (fRd w) (fRa w) (fRb w))
    | 0o002 => some (.hsub q (fRd w) (fRa w) (fRb w))
    | 0o003 => some (.hjoin q (fRd w) (fRa w) (fRb w))
    | 0o004 => some (.hsx0 q (fRd w) (fRa w))
    | 0o005 => some (.hsx1 q (fRd w) (fRa w))
    | _ =>
      match (w.extractLsb' 11 3).toNat with
      | 1 => some (.extu q (fRd w) (fRa w) (w.extractLsb' 5 6) (fAux w))
      | 2 => some (.exts q (fRd w) (fRa w) (w.extractLsb' 5 6) (fAux w))
      | 3 => some (.ins q (fRd w) (fRa w) (w.extractLsb' 5 6) (fAux w))
      | _ => none
  | 0o010 => some (.addi q (fRd w) (fRa w) (fImm w))
  | 0o011 => some (.andi q (fRd w) (fRa w) (fImm w))
  | 0o012 => some (.ori q (fRd w) (fRa w) (fImm w))
  | 0o013 => some (.xori q (fRd w) (fRa w) (fImm w))
  | 0o014 => some (.slti q (fRd w) (fRa w) (fImm w))
  | 0o015 => some (.sltiu q (fRd w) (fRa w) (fImm w))
  | 0o016 => some (.lih q (fRd w) (fRa w) (fImm w))
  | 0o017 => some (.muli q (fRd w) (fRa w) (fImm w))
  | 0o030 =>
    match (w.extractLsb' 10 9).toNat with
    | 0o000 => some (.li q (fRd w) imm)
    | 0o001 => some (.addl q (fRd w) (fRa w) imm)
    | 0o002 => some (.andl q (fRd w) (fRa w) imm)
    | 0o003 => some (.orl q (fRd w) (fRa w) imm)
    | 0o004 => some (.xorl q (fRd w) (fRa w) imm)
    | _ => none
  | 0o040 =>
    match (fFn w).toNat with
    | 0o000 => some (.opack q (fRd w) (fRa w) (fAux w))
    | 0o001 => some (.ounpk q (fRd w) (fRa w))
    | 0o002 => some (.oget q (fRd w) (fRa w) (fRb w) (fAux w))
    | 0o003 => some (.oput q (fRd w) (fRa w) (fRb w) (fAux w))
    | 0o004 => some (.ocnt q (fRd w) (fRa w))
    | _ => none
  | 0o050 => some (.ldw q (fRd w) (fMem w))
  | 0o051 => some (.stw q (fRd w) (fMem w))
  | 0o052 => some (.ldd q (fRd w) (fMem w))
  | 0o053 => some (.std q (fRd w) (fMem w))
  | 0o054 => some (.ldc q (fRd w) (fMem w))
  | 0o055 => some (.stc q (fRd w) (fMem w))
  | 0o056 => some (.ldm q (fRd w) (fMem w))
  | 0o057 => some (.stm q (fRd w) (fMem w))
  | 0o060 => some (.movw q (fRd w) (fRa w) (fRb w) (fAux w))
  | 0o061 => some (.fillw q (fRd w) (fRa w) (fRb w))
  | 0o070 =>
    match (fFn w).toNat with
    | 0o000 => some (.cgetc q (fRd w) (fRa w))
    | 0o001 => some (.cgetb q (fRd w) (fRa w))
    | 0o002 => some (.cgetl q (fRd w) (fRa w))
    | 0o003 => some (.cgetp q (fRd w) (fRa w))
    | 0o004 => some (.cgett q (fRd w) (fRa w))
    | 0o010 => some (.cmov q (fRd w) (fRa w))
    | 0o020 => some (.ctest q (fRd w) (fRa w) (fRb w) (fAux w))
    | _ => none
  | 0o071 => some (.cinc q (fRd w) (fRa w) (fRb w))
  | 0o072 => some (.cinci q (fRd w) (fRa w) (fImm w))
  | 0o073 => some (.csetb q (fRd w) (fRa w) (fRb w))
  | 0o074 => some (.csetbi q (fRd w) (fRa w) (fImm w))
  | 0o075 =>
    match (fFn w).toNat with
    | 0o000 => some (.candr q (fRd w) (fRa w) (fRb w))
    | 0o001 => some (.cclg q (fRd w) (fRa w))
    | _ => none
  | 0o076 =>
    match (fFn w).toNat with
    | 0o000 => some (.cseal q (fRd w) (fRa w) (fRb w))
    | 0o001 => some (.cunseal q (fRd w) (fRa w) (fRb w))
    | _ => none
  | 0o077 => some (.cinvoke q (fRa w) (fRb w))
  | 0o100 => some (.b q (w.extractLsb' 25 4) (fBa w) (fBb w) (w.extractLsb' 0 15))
  | 0o101 => some (.j q (fRa w) (fImm w))
  | 0o102 => some (.jal q (fRd w) (fRa w) (fImm w))
  | 0o103 => some (.trap q (fImm w))
  | 0o104 => some (.ret q)
  | 0o105 => some (.endAct q)
  | 0o106 => some (.synci q)
  | 0o107 =>
    match (fAux w).toNat with
    | 0 => some (.fenceFull q)
    | 1 => some (.fenceAcquire q)
    | 2 => some (.fenceRelease q)
    | _ => none
  | 0o110 => some (.fencew q)
  | 0o111 => some (.sealsync q)
  | 0o112 =>
    match (fAux w).toNat with
    | 0 => some (.mapsyncAll q)
    | 1 => some (.mapsyncMap q (fRa w))
    | 2 => some (.mapsyncPage q (fRa w) (fRb w))
    | _ => none
  | 0o113 => some (.doorbell q (fRd w) (fRa w) (fRb w))
  | 0o114 => some (.callg q (fRa w) (fImm w))
  | 0o120 => some (.lopen q (fRd w) (fRa w) (fRb w) (fAux w))
  | 0o121 => some (.lclose q (fRd w) (fRa w))
  | 0o122 => some (.lput q (fRd w) (fRa w) (fRb w))
  | 0o123 => some (.ltake q (fRd w) (fRa w) (fRb w) (fAux w))
  | 0o124 => some (.lgive q (fRd w) (fRa w) (fRb w))
  | 0o125 => some (.larm q (fRd w) (fRa w) (fRb w))
  | 0o126 => some (.lstat q (fRd w) (fRa w) (fAux w))
  | 0o130 => some (.sysrd q (fRd w) (w.extractLsb' 5 12))
  | 0o131 => some (.syswr q (fRa w) (w.extractLsb' 5 12))
  | 0o132 => some (.wayen q (fRd w) (fRa w) (fRb w))
  | 0o160 =>
    match (fFn w).toNat with
    | 0o000 => some (.vadd q (fRd w) (fRa w) (fRb w))
    | 0o001 => some (.vsub q (fRd w) (fRa w) (fRb w))
    | 0o002 => some (.vand q (fRd w) (fRa w) (fRb w))
    | 0o003 => some (.vor q (fRd w) (fRa w) (fRb w))
    | 0o004 => some (.vxor q (fRd w) (fRa w) (fRb w))
    | 0o005 => some (.vandn q (fRd w) (fRa w) (fRb w))
    | 0o006 => some (.vcmpeq q (fRd w) (fRa w) (fRb w))
    | _ => none
  | 0o161 =>
    match (fFn w).toNat with
    | 0o000 => some (.vaddw q (fRd w) (fRa w) (fRb w))
    | 0o001 => some (.vsubw q (fRd w) (fRa w) (fRb w))
    | 0o002 => some (.vshlw q (fRd w) (fRa w) (fRb w))
    | 0o003 => some (.vshrw q (fRd w) (fRa w) (fRb w))
    | _ => none
  | 0o162 => some (.vld q (fRd w) (fMem w))
  | 0o163 => some (.vst q (fRd w) (fMem w))
  | 0o164 =>
    match (fFn w).toNat with
    | 0o000 => some (.vins q (fRd w) (fRa w) (fAux w))
    | 0o001 => some (.vext q (fRd w) (fRa w) (fAux w))
    | 0o002 => some (.vsplat q (fRd w) (fRa w))
    | _ => none
  | 0o170 =>
    match (fFn w).toNat with
    | 0o000 => some (.cxenc q (fRd w) (fRa w) (fRb w))
    | 0o001 => some (.cxdec q (fRd w) (fRa w) (fRb w))
    | _ => none
  -- major 0o174 carries DGS256 alone: a nonzero fn is one that the major does not implement (R138), not a res0 field
  -- (R128). DEDUCED, log 100.
  | 0o174 =>
    match (fFn w).toNat with
    | 0o000 => some (.dgs256 q (fRd w) (fRa w))
    | _ => none
  | 0o176 =>
    match (fFn w).toNat with
    | 0o000 => some (.pmul18 q (fRd w) (fRa w) (fRb w))
    | 0o001 => some (.pmac18 q (fRd w) (fRa w) (fRb w))
    | _ => none
  | _ => none

/-- How a seat decodes a word (R130): the instruction, or the cause of steps 1 to 3. Codes of 07 R214: 17 ILLEGAL, and 20
ATTACHED for what the attached block does not assign (R137, R138). -/
def decodeSeat (q : SeatNo) (w imm : Word) : Except Nat Instr :=
  match seatCandidate q w imm with
  | none => .error (if 0o160 ≤ (w.extractLsb' 29 7).toNat then 0o20 else 0o17)
  | some i => if seatWord i = w ∧ seatLegal i then .ok i else .error 0o17

/-- The command a word spells by the bits of spec/opcode_table.json: none, for no row of the table gives bits. -/
def decodeTableWord (_nbits _w : Nat) : Option Instr := none

end Sys2Proof
end

