-- ==== Sys2Proof/Config.lean ====
section
/-! DEFINITION. The free values: what the spec leaves open, as constants without a body. A statement about one holds
whatever it is. Each takes the counter State.free (a fresh value each time) or the operands it depends on. -/

namespace Sys2Proof

/-- A word of the boot ROM, offset 0 to 16,383 (18 R493 gives its place, not its contents). DESIGN CHOICE, log 3. -/
opaque Config.bootRomWord : Nat → Word

/-- One octet of conditioned entropy: the source EN0 or EN1, or 2 for a nonce from both; the draw's number; the octet's
position (12 R392, R393). Log 5. -/
opaque Config.entropyOctet : Nat → Nat → Nat → Octet

/-- One octet that an instance without a state gives, as none does between boot and tamper (12 R393): the instance, the draw's
number, the octet's position. Log 5. -/
opaque Config.drbgOctet : Nat → Nat → Nat → Octet

/-- An octet the host holds at a host address when the module reads it (10 R340): the host is outside. Log 5. -/
opaque Config.hostOctet : Nat → Nat → Octet

/-- Does a seat translate through the entry its TLB still holds, although it may have been evicted (10 R351)? Log 6. -/
opaque Config.tlbKeeps : Nat → Bool

/-- The set of the 8-way L2 TLB that a page of a map falls in (10 R348 names no index function). Log 6. -/
opaque Config.tlbSet : Nat → Nat → Nat

/-- A word of system space that no chapter of the spec names. Log 7. -/
opaque Config.systemWord : Nat → Nat → Word

/-- The level at the GP pins (19 R544 GP_IN). Log 5. -/
opaque Config.gpPins : Nat → BitVec 16

/-- The levels a boundary-scan capture finds at the module's 1.8 V pins, by cell (19 R543). Log 5. -/
opaque Config.scanPin : Nat → Nat → Bool

/-- The number of cells of the boundary register (19 R543 gives the pins covered, not the cells or their order). Log 5. -/
opaque Config.scanLength : Nat

/-- What a counter adds for events that only the pipeline, the caches or the predictor know, wrong paths among them (15 R439):
the double's number, the time, the draw's number. Log 55. -/
opaque Config.pipelineEvents : Nat → Nat → Nat → Nat

/-- Figures of a sample record that only the pipeline knows: mispredicted, data source, cycles (15 R449). Log 8. -/
opaque Config.sampleFigure : Nat → Nat → Nat

/-- Octet i, 12 to 31, of event log entry n: the code and the detail, whose values the spec does not state (17 R492).
Log 5. -/
opaque Config.eventOctet : Nat → Nat → Octet

/-- Entry 0x1003 SERIAL and the other one-time values come from fuses; this is a monitor reading that no command
brings: feed millivolts, milliamperes, temperatures, rails, margins, power (17 R487). Log 5. -/
opaque Config.reading : Nat → Nat → Nat → Nat

/-- A word the spec leaves open: two results that one instruction writes to one register in no stated order, an
interpretation of data that no rule gives a value. Log 5. -/
opaque Config.openWord : Nat → Word

/-- The event lane that Keel designates for imbalance events (0) and for way-enough acknowledgements (1): no rule says how
(09 R275, R311). Log 83. -/
opaque Config.eventLane : Nat → BitVec 16

/-- Word i of the message on an event lane about an event of a kind with its data; no rule lays it out (09 R275). Log 83. -/
opaque Config.eventWord : Nat → List Nat → Nat → Word

/-- The length of such a message less 1, modulo 8. Log 83. -/
opaque Config.eventLength : Nat → Nat

/-- Octet i, 12 to 31, of the event log entry of an imbalance event of a bucket with its count (09 R311). Log 83. -/
opaque Config.imbalanceOctet : Nat → Nat → Nat → Octet

/-- Does a posted write of the host window end in an error (10 R341)? The host is outside. Log 84. -/
opaque Config.hostWriteErr : Nat → Bool

/-- Does a write of an RWP value to the log store fail (17 R477, PERSIST)? Log 45. -/
opaque Config.persistFails : Nat → Bool

/-- Record r, 1 to 32, of the manager key set that boot loads from the octets of the two side images (17 R479 names the
set; no rule lays it out). Log 5. -/
opaque Config.managerRecord : List Octet → Nat → List Octet

end Sys2Proof
end

