-- ==== Sys2Proof/Machine/State.lean ====
section
/-! DEFINITION. The state of the block, as plain data: every piece of state the spec gives the machine, the queue of
waiting commands, and the stop reasons. A structure's field default is its reset value; a field without a rule's reset
value stands at the value log 1 names. -/

namespace Sys2Proof.Machine

/-- What stops the model. -/
inductive Fault where
  /-- A command names a unit code that is no unit of the command's kind (09 R277 lists the units). Raised by the
  engine commands; safe: the hardware has no such unit, so no such command reaches it. -/
  | noSuchUnit
deriving DecidableEq, Repr

/-- What the model declines. -/
inductive Refusal where
  /-- A command that has no meaning yet. Raised by the dispatch; safe. -/
  | notModelled (mnemonic : String)
deriving DecidableEq, Repr

/-- The outcome of a command. -/
abbrev Out (σ : Type) := Host.Outcome σ Fault Refusal

/-- The levels of a seat (03 R81): U, S and M. -/
inductive Level where
  | U | S | M
deriving DecidableEq, Repr

/-- A capability register or a granule: four words and the tag (02 R29). Its fields are read by the accessors of
Machine/Cap.lean, so an untagged granule keeps its data bits. -/
structure Cap where
  w0  : Word := 0
  w1  : Word := 0
  w2  : Word := 0
  w3  : Word := 0
  tag : Bool := false
deriving DecidableEq, Repr

/-- STATUS, system word 0o0010 (03 R81). bank is 0 to 7, or 8 for the trap bank T. side is true for bow side. -/
structure Status where
  ring     : BitVec 2 := 0
  ringMode : Bool := false
  wideOn   : Bool := false
  det      : Bool := true
  bank     : Nat := 8
  side     : Bool := false
  lvl      : Level := .M
deriving DecidableEq, Repr

/-- The states of a priority bank (08 R253). -/
inductive BankSt where
  | free | posted | running | ready | blocked | stowing | restoring
deriving DecidableEq, Repr

/-- The role of a seat in a pair-checked activation (08 R268 PAIR_ST). -/
inductive PairRole where
  | none | seatA | seatB | referee
deriving DecidableEq, Repr

/-- A register bank of a seat (04 R118): its registers, its per-bank system words, and the activation it holds (08 R253). -/
structure Bank where
  w         : SMap Word := []
  c         : SMap Cap := []
  pcc       : Cap := {}
  ctx       : Word := 0
  xctx      : Word := 0
  xretPc    : Word := 0
  xretDb    : Word := 0
  ringLink  : Word := 0
  tbHi      : Word := 0
  /-- the hidden progress word of R157 -/
  progress  : Word := 0
  st        : BankSt := .free
  lane      : LaneNo := 0
  /-- STATUS as the bank last ran it, for a bank that is not in use (R119, R120). DET in it is the activation's own mode:
  06 R206's FORCE of the seat is added where the mode is read -/
  status    : Status := {}
  role      : PairRole := .none
  partner   : Nat := 0
  /-- the pair buffer of a pair-checked activation -/
  pairBuf   : Nat := 0
  /-- timebase of the post, for MAXACT (R257) -/
  since     : Nat := 0
  /-- the lane awaited in LTAKE (R249) -/
  waitLane  : LaneNo := 0
  /-- the LTAKE at which the bank resumes completes ABORTED (R175) -/
  abortTake : Bool := false
  /-- sequence number and full length of the last message the activation took (R303) -/
  lastMsg   : Option (Nat × Nat) := none
  /-- a way-enough or overrun waits for M to leave (R237) -/
  abortHeld : Bool := false
  /-- posted before the switch boundary of a running drain (R515) -/
  old       : Bool := false
deriving DecidableEq, Repr

/-- A save set (07 R217). granB is SV_C13 of an S set and MV_ATTEMPT of the M set. -/
structure SaveSet where
  pcc   : Cap := {}
  granB : Cap := {}
  st    : Word := 0
  cause : Word := 0
  addr  : Word := 0
  aux   : Word := 0
  prog  : Word := 0
  bank  : Word := 0
  atst  : Word := 0
  /-- DET_CTL.FORCE alone put the trapped activation in deterministic mode (06 R206) -/
  forced : Bool := false
deriving DecidableEq, Repr

/-- A translation a seat holds (10 R348): a leaf, a block (lvl 1) or a contiguity slot. entry is the word the walk read,
ea its address. setA and setD list the pages of the entry whose A and D this seat has seen set (R347). -/
structure TlbEntry where
  map   : Nat
  glob  : Bool
  vpage : Nat
  entry : Word
  lvl   : Nat
  ea    : Nat
  slot  : Bool
  setA  : List Nat
  setD  : List Nat
deriving DecidableEq, Repr

/-- A walk-cache entry: a level-1 entry with T = 1, by map and level-1 index (10 R348). -/
structure WalkEntry where
  map   : Nat
  idx   : Nat
  entry : Word
deriving DecidableEq, Repr

/-- What the stow engine is at (08 R256, R258): the bank, whether a stow is being written (else a restore is being read),
and the post that follows: its pick's lane and STOWED bit. -/
structure StowJob where
  bank     : Nat
  stowing  : Bool
  lane     : LaneNo
  stowed   : Bool
  since    : Nat
  /-- what a post of a pair-checked activation brings (08 R264) -/
  role     : PairRole := .none
  partner  : Nat := 0
  buf      : Nat := 0
  /-- the activation that the post brings has ended before its bank was free -/
  void     : Bool := false
  /-- posted before the switch boundary of a running drain (18 R515) -/
  old      : Bool := false
deriving DecidableEq, Repr

/-- A pair output (08 R266): kind 0 word store, 1 granule store, 2 LPUT, 3 LGIVE, 4 DOORBELL, 5 removal of a taken
message, with its address or lane, its words and its tags. -/
structure PairOut where
  kind  : Nat
  addr  : Nat
  words : List Word
  tags  : List Bool
  /-- the fence class of the store's seat (11 R353) -/
  cls   : Nat := 0
  /-- of a removal, the message's full length (09 R303) -/
  len   : Nat := 0
  /-- of a store, the seats that have written the fence since it was checked (11 R366) -/
  waits : List Nat := []
deriving DecidableEq, Repr

/-- What SAMPLE_RECORD needs of a tagged instruction that has retired or trapped (15 R449). -/
structure Sample where
  addr    : Word
  word    : Word
  ctxSt   : Word
  trapped : Bool
  cause   : Nat
  taken   : Bool
  ea      : Word
  pa      : Word
  /-- 0 no access, 3 case, 5 bulk, 6 host window, 7 stick (15 R449) -/
  source  : Nat
  /-- a TLB missed; a walk followed -/
  miss    : Bool := false
  walk    : Bool := false
  lane    : LaneNo
  stamp   : Nat
  bank    : Nat
deriving DecidableEq, Repr

/-- A seat (04 R118, 06, 07). -/
structure Seat where
  status    : Status := {}
  banks     : SMap Bank := []
  /-- the wide file: word j of vk at key 8k+j (R121) -/
  wide      : SMap Word := []
  wideOwned : Bool := false
  wideOwner : Nat := 0
  svStroke  : SaveSet := {}
  svBow     : SaveSet := {}
  svM       : SaveSet := {}
  strokeC   : Word := 0
  strokeR   : Word := 0
  bowC      : Word := 0
  bowR      : Word := 0
  /-- BANK_SEL without its CMD field (R219) -/
  bankSel   : Word := 0
  residLim  : Nat := 2000
  /-- ns the RESIDENCE timer has run, and the instant it last started (R226) -/
  residRun  : Nat := 0
  residFrom : Option Nat := none
  watchBase : Word := 0
  watchLast : Word := 0
  watchCtl  : Word := 0
  untimed   : Bool := false
  force     : Bool := false
  stickBase : Nat := 0
  /-- BOUND of STICK_BASE (06 R209) -/
  stickOn   : Bool := false
  /-- the seat's accesses to the window use the stick: from a LOAD_DATA to the next SAVE_DATA or RELEASE (06 R208) -/
  stickUse  : Bool := false
  codeBase  : Nat := 0
  codeOn    : Bool := false
  stick     : SMap Word := []
  stickTag  : SMap Bool := []
  code      : SMap Word := []
  stale     : SMap Bool := []
  pfWalk    : Bool := true
  kHint     : Bool := true
  mapsync   : Nat := 0
  tlb       : List TlbEntry := []
  walks     : List WalkEntry := []
  sampOn    : Bool := false
  sampStroke : Bool := false
  sampBow   : Bool := false
  sampK     : Nat := 8
  sampLane  : LaneNo := 0
  sampSeed  : Nat := 1
  sampCount : Nat := 0
  /-- the next decoded instruction is tagged (R448) -/
  sampTag   : Bool := false
  samples   : List Sample := []
  powered   : Bool := true
  /-- handed back to its cox: no instruction stream runs (R165, R231) -/
  idle      : Bool := true
  /-- the timebase of its check stop (R234) -/
  checkStop : Option Nat := none
  /-- the pending STOW traps, oldest first: lane and failing physical address (R223, R227, R262) -/
  pendStow  : List (LaneNo × Word) := []
  /-- the pending PAIR_MISMATCH traps, oldest first: their lanes (R223, R268) -/
  pendPair  : List LaneNo := []
  /-- the RESIDENCE timer has delivered its M interruption for the pre-emption that is held (R226) -/
  residFired : Bool := false
  /-- what the stow engine has to do, the job at work first (R258) -/
  stow      : List StowJob := []
  /-- a substitution has taken the seat out of service; only a module reset returns it (07 R234, R235) -/
  gone      : Bool := false
deriving DecidableEq, Repr

/-- A pair buffer of a leaf cox (08 R238, R264 to R268). outs hold the sides A, B and referee; done says which have
ended; bad names a side in check stop. -/
structure PairBuf where
  used    : Bool := false
  lane    : LaneNo := 0
  prio    : Nat := 0
  seatA   : Nat := 0
  seatB   : Nat := 0
  ref     : Nat := 0
  wait    : Nat := 0
  /-- timebase of the post, for MAXACT (R257) -/
  since   : Nat := 0
  /-- posted before the switch boundary of a running drain (18 R515) -/
  old     : Bool := false
  outA    : List PairOut := []
  outB    : List PairOut := []
  outR    : List PairOut := []
  doneA   : Bool := false
  doneB   : Bool := false
  doneR   : Bool := false
  badA    : Bool := false
  badB    : Bool := false
  badR    : Bool := false
  /-- a side has passed 256 words in the instruction that runs (R268) -/
  full    : Bool := false
  /-- the first END or check stop (R265) -/
  waitFrom : Option Nat := none
  /-- the comparison failed; the referee is to be posted, or runs -/
  toRef   : Bool := false
  refOn   : Bool := false
deriving DecidableEq, Repr

/-- A pick taken from a ready queue or a relay and not yet used (08 R250). -/
structure Pick where
  lane   : LaneNo
  stowed : Bool
  home   : Nat
  pend   : Nat
  at_    : Nat
deriving DecidableEq, Repr

/-- A cox (08 R238, R240): the stores with their standby copies, the registers, and what the two stages hold. -/
structure Cox where
  prog      : SMap Word := []
  data      : SMap Half := []
  course    : SMap Word := []
  progSb    : SMap Word := []
  dataSb    : SMap Half := []
  courseSb  : SMap Word := []
  /-- the paddle course (R273) -/
  paddleCourse : SMap Word := []
  paddleCourseSb : SMap Word := []
  paddleSrc : Bool := false
  h         : SMap Half := []
  pc        : Nat := 0
  /-- the writes a delayed writer has still to deliver (R240) -/
  delayed   : List (Nat × Half) := []
  /-- the target of a branch whose delay slot is next (R240) -/
  branch    : Option Nat := none
  /-- the next instruction stands in the delay slot of a branch, taken or not (R240) -/
  slot      : Bool := false
  bflag     : Bool := false
  /-- the number of the last stroke whose boundary has passed (R244) -/
  lastStroke : Option Nat := none
  /-- posts that SEATST does not reflect yet (R240): the seat, the bank, its state before, the instructions left -/
  posted    : List (Nat × Nat × BankSt × Nat) := []
  waiting   : Option Nat := none
  idling    : Bool := false
  n         : Nat := 3
  l         : Nat := 1
  nSb       : Nat := 3
  lSb       : Nat := 1
  /-- the substitution set applied: 0 to 8, 15 none (R270) -/
  set       : Nat := 15
  /-- position map, logical position to physical seat; 72 = no seat (R269) -/
  map       : SMap Nat := []
  spent     : Bool := false
  /-- failed seats whose set is still to apply (R271) -/
  pendSub   : List Nat := []
  /-- a second check stop of the crew holds the CHECKSTOP trigger (16 R460) -/
  trig      : Bool := false
  /-- pair triple words of the sets: key 16 set + i, sets 0 to 8, and 15 for the unsubstituted set (R265, R270) -/
  triples   : SMap Word := []
  triplesSb : SMap Word := []
  relays    : List (Half × Half) := []
  picks     : List Pick := []
  pairs     : SMap PairBuf := []
  /-- the register pass of R74 is still to run in this leaf crew: the timebase of the write -/
  passDue   : Option Nat := none
deriving DecidableEq, Repr

/-- A message a hardware producer holds for a lane that refused it (09 R292). unit is its UNIT code; 0o200 is the galley,
with its channel or none. -/
structure Held where
  lane    : LaneNo
  unit    : Nat
  channel : Option Nat
  words   : List Word
  /-- the request lane, for an engine's response -/
  req     : Option LaneNo
deriving DecidableEq, Repr

/-- A stowed activation that is still live (08 R261, R263). -/
structure Stowed where
  lane     : LaneNo
  seat     : Nat
  prio     : Nat
  waitLane : LaneNo
  since    : Nat
  /-- ns its seat's domain has been off in paddle mode (16 R465) -/
  offFor   : Nat
  /-- sequence number and full length of the last message it took (R303) -/
  lastMsg  : Option (Nat × Nat)
  /-- its own deterministic mode (06 R206) -/
  det      : Bool
  /-- the lane that it awaits has been closed or aborted (05 R175) -/
  aborted  : Bool
  old      : Bool
deriving DecidableEq, Repr

/-- The lane unit (09). Descriptors, rings and slot records stand in case. -/
structure LaneUnit where
  /-- class store, word i of class k at key 8k+i (R274) -/
  cls      : SMap Word := []
  clsSb    : SMap Word := []
  fault    : SMap Bool := []
  /-- lanes whose descriptor the lane unit has written since reset or the last move of the array (R279) -/
  opened   : SMap Bool := []
  admitted : SMap Nat := []
  /-- ready queues: key 1024 home + pend index; entries (lane, STOWED) (R248) -/
  ready    : SMap (List (LaneNo × Bool)) := []
  held     : List Held := []
  stowed   : List Stowed := []
  /-- the doorbell lane of each physical seat, 65,536 = none (R252) -/
  doorbell : SMap Nat := []
  doorbellSb : SMap Nat := []
  /-- RESID_LIM of each seat in the standby copy of the seat table (08 R273) -/
  residSb   : SMap Nat := []
  refused  : Nat := 0
  /-- the lane that a unit has served last at a class priority: key 8 unit + PRIO (09 R553, 12 R378, 14 R422) -/
  served   : SMap Nat := []
deriving DecidableEq, Repr

/-- Memory: case, bulk and what guards them (10). -/
structure Mem where
  words   : SMap Word := []
  /-- tag of granule g, addresses 4g to 4g+3 -/
  tags    : SMap Bool := []
  /-- poisoned case granules (R322) -/
  poison  : SMap Bool := []
  /-- bulk stripes: generation, epoch, poison and lost generation (R328 to R335) -/
  gen     : SMap Nat := []
  epoch   : SMap Nat := []
  stripePoison : SMap Bool := []
  genLost : SMap Bool := []
  maxGen  : Nat := 0
  /-- errors that no access has met yet: per granule of case 1 a single-bit, 2 a double-bit error (R321, R322); per bulk
  stripe 1 a MAC failure that a re-read clears, 2 one that it does not, 3 a lost metadata entry (R334) -/
  flips   : SMap Nat := []
  rot     : SMap Nat := []
  /-- spare rows used per bank, corrected errors per row in this scrub pass, rows repaired (R323) -/
  spares  : SMap Nat := []
  rowErrs : SMap Nat := []
  rowMap  : SMap Nat := []
  /-- poisoned granules whose row has been repaired since they became so (R323) -/
  moved   : SMap Bool := []
  corrected : Nat := 0
  discarded : Nat := 0
deriving DecidableEq, Repr

/-- The fence (11): descriptor d's words at key 4d+i, and the fault record. -/
structure Fence where
  d        : SMap Word := []
  fltAddr  : Word := 0
  fltInfo  : Word := 0
  fltCount : Nat := 0
  ignored  : Nat := 0
deriving DecidableEq, Repr

/-- The device-wide system words that belong to no other part (04 R124). -/
structure SysWords where
  sealIndex : Nat := 0
  sealLive  : SMap Bool := []
  sealMode  : Bool := false
  sealVal   : Nat := 0
  arm       : Nat := 0
  regDone   : Bool := true
  /-- SWEEP_Qn_BASE at 2n, SWEEP_Qn_LAST at 2n+1 -/
  sweepQ    : SMap Word := []
  laneBase  : Nat := 0
  laneLock  : Bool := false
  setAside  : Nat := 0
  hwinOn    : Bool := false
  hbase     : Nat := 0
  measIn    : SMap Word := []
  measLock  : Bool := false
  measWord  : Nat := 0
  measReg   : Nat := 0
  /-- MR0 to MR7: word j of MRi at key 8i+j -/
  mr        : SMap Word := []
  measIgnored : Nat := 0
  ethMode   : Word := 0
  mapBase   : SMap Word := []
  /-- trap vectors, SEL 6 to 10 (07 R218) -/
  vectors   : SMap Cap := []
deriving DecidableEq, Repr

/-- An Ethernet port (09 R305 to R311, 19 R533 to R535). -/
structure Port where
  linkUp   : Bool := false
  /-- frames steered to a bucket in the current 1 ms window, and that window's number (R311) -/
  counts   : SMap Nat := []
  window   : Nat := 0
  /-- buckets that have raised their imbalance event in this window -/
  raised   : SMap Bool := []
  ptpStamp : Nat := 0
  ptpSeq   : Nat := 0
  /-- frames sent, newest first: the octets with pad, without the FCS -/
  sent     : List (List Octet) := []
  /-- management addresses answered by ARP or neighbour discovery, with the station address, newest first (17 R484) -/
  neighbours : List (List Octet × List Octet) := []
deriving DecidableEq, Repr

/-- The Ethernet side shared by the ports (09 R305, R306, R310). -/
structure Eth where
  ports     : SMap Port := []
  steerKey  : List Octet := []
  bucket    : SMap Word := []
  bucketSb  : SMap Word := []
  /-- the timebase of a request to switch that is pending (R310) -/
  switchReq : Option Nat := none
  /-- pending switches that a changeover has discarded (18 R514) -/
  switchDropped : Nat := 0
deriving DecidableEq, Repr

/-- A fetched galley descriptor and its progress (13 R401 to R411). -/
structure Xfer where
  words   : List Word
  srcCap  : Cap
  dstCap  : Cap
  idxCap  : Cap
  /-- the pages the spans translated to at the fetch: (virtual page, physical page) -/
  pages   : List (Nat × Nat)
  /-- profile words of PALG 4 to 7, read at the fetch (R418) -/
  profile : List Word
  status  : Nat := 0
  step    : Nat := 0
  /-- words, octets, or elements done -/
  moved   : Nat := 0
  total   : Nat := 0
  fvalid  : Bool := false
  ffirst  : Nat := 0
  failed  : Nat := 0
  skipped : Nat := 0
  /-- granules of unwritten stripes that a sweep passed over (13 R420) -/
  unwritten : Nat := 0
  crc     : Nat := 0
  ended   : Bool := false
  /-- a proofing unit serves the descriptor (13 R417) -/
  proof   : Bool := false
deriving DecidableEq, Repr

/-- A galley channel (13 R398 to R400). state is the STATE code. -/
structure Chan where
  enable : Bool := false
  pause  : Bool := false
  paused : Bool := false
  state  : Nat := 0
  priv   : Bool := false
  cmode  : Bool := false
  prio   : Nat := 0
  rlog   : Nat := 0
  buflim : Nat := 0
  mapid  : Nat := 0
  rbase  : Word := 0
  tail   : Nat := 0
  head   : Nat := 0
  clane  : Word := 0
  src    : Word := 0
  dst    : Word := 0
  rem    : Nat := 0
  eidx   : Nat := 0
  part   : Nat := 0
  xfer   : Option Xfer := none
  /-- the record of the completed descriptor is held for its lane (R410) -/
  hold   : Bool := false
  evCount  : Nat := 0
  evStatus : Nat := 0
deriving DecidableEq, Repr

/-- A counter dump being written (15 R445 to R447). -/
structure Dump where
  seq    : Nat
  stamp  : Nat
  words  : List Word
  lane   : LaneNo
  base   : Nat
  rlog   : Nat
deriving DecidableEq, Repr

/-- The galley and the counter dumps (13, 15). -/
structure Galley where
  chans    : SMap Chan := []
  /-- the channel served last at each PRIO (13 R396) -/
  served   : SMap Nat := []
  /-- profile words, 4p+i (R418) -/
  profiles : SMap Word := []
  refused  : Nat := 0
  dumpGroups : Nat := 0
  dumpK    : Nat := 0
  dumpBase : Word := 0
  dumpGeo  : Word := 0
  dumpLane : Word := 0
  dumpSeq  : Nat := 0
  skipped  : Nat := 0
  dump     : Option Dump := none
  /-- the counts as the timebase reached the last stroke boundary of crew T, and the last boundary whose dump fell due (15
  R445) -/
  shadow   : SMap Nat := []
  dumpAt   : Option Nat := none
deriving DecidableEq, Repr

/-- The master key's state, in the coding of entry 0xA000 (12 R368). -/
inductive MkState where
  | absent | present | zeroised
deriving DecidableEq, Repr

/-- The working state of a CTR_DRBG instance with AES-256 (12 R393, SP 800-90A): the key and V. -/
structure Drbg where
  key : List Octet
  v   : List Octet
deriving DecidableEq, Repr

/-- Custody (12 R367 to R394, 18 R495): the stores, the sources of entropy and the DRBG. -/
structure Custody where
  mkState   : MkState := .absent
  mkKey     : List Octet := []
  /-- word i of slot n at key 16n+i -/
  slots     : SMap Word := []
  slotPoison : SMap Bool := []
  arena     : SMap Word := []
  deviceKey : List Octet := []
  bulkKey   : List Octet := []
  /-- the identity store: the words of an RSA CRT private key, or none while the blob has not unwrapped (18 R495) -/
  identity  : Option (List Word) := none
  entropy0  : Bool := false
  entropy1  : Bool := false
  /-- requests served since the last reseed, per instance, and whether the instance refuses (R393, R394) -/
  requests  : SMap Nat := []
  reseedAt  : SMap Nat := []
  refusing  : SMap Bool := []
  /-- the instances D0 to D3; none before the boot instantiates them and after tamper response (R393, 18 R519) -/
  drbgs     : SMap (Option Drbg) := []
  tamper    : List Nat := []
deriving DecidableEq, Repr

/-- What a custody operation writes at its completion (12 R381): the words of a slot and of the arena from an offset.
clear says that the slot's poison goes with it, as at an import (R369). -/
structure SlotWrite where
  slot  : Nat
  words : List Word
  aoff  : Nat := 0
  arena : List Word := []
  clear : Bool := false
deriving DecidableEq, Repr

/-- An engine or compositor job that has read its request and not yet committed its response (12 R375 to R378). -/
structure Job where
  unit   : Nat
  lane   : LaneNo
  rlane  : LaneNo
  reqId  : Word
  op     : Nat
  status : Nat
  detail : Nat
  result : List Word
  /-- the slots it read (R381) -/
  slots  : List Nat
  custody : Bool := false
  /-- what it writes at its completion (R381) -/
  commit : Option SlotWrite := none
  /-- a reject notice for REJLANE, of a parse (14 R433) -/
  reject : Option (LaneNo × List Word) := none
  /-- the seats whose write of SEAL_LIVE replaced the value under which its key handle was admitted (02 R67) -/
  sealWaits : List Nat := []
  /-- the parse runs on the standby-to-be copy of the form store (14 R423) -/
  oldForm : Bool := false
deriving DecidableEq, Repr

/-- Engines and compositors: jobs in the order taken; the form store (14 R423): word i of form f at key 65,536 f + i. -/
structure Engines where
  jobs    : List Job := []
  forms   : SMap Word := []
  formsSb : SMap Word := []
deriving DecidableEq, Repr

/-- Paddle mode, feeds, monitors, domains and the journal (16). -/
structure Power where
  feedT : Bool := false
  thermalT : Bool := false
  checkstopT : Bool := false
  monitorT : Bool := false
  holdT : Bool := false
  commandT : Bool := false
  keelT : Bool := false
  paddle : Bool := false
  /-- since when paddle mode has its seats switched off (R465) -/
  offFrom : Option Nat := none
  /-- the end of the running settle time (R461) -/
  settleEnd : Option Nat := none
  /-- exit began at this instant (R467) -/
  exitFrom : Option Nat := none
  throttle : Bool := false
  crew : Nat := 3
  crewSb : Nat := 3
  courseDue : Bool := false
  feedA : FeedState := .good
  feedB : FeedState := .good
  railOut : SMap Bool := []
  droopOut : SMap Bool := []
  /-- domains switched off, keys 0 to 183 in the order of R454 -/
  domOff : SMap Bool := []
  /-- the journal being sealed, the last one sealed, and the seal sequence (R469 to R471) -/
  sealing : Option SealCause := none
  journal : List Octet := []
  /-- the header of the seal in progress, which is written last (R471) -/
  sealHead : List Octet := []
  journalOk : Bool := false
  sealSeq : Nat := 0
  sealedTemp : Bool := false
  dropout : Bool := false
  /-- tamper response has switched off every domain but the always-on fabric and custody (18 R519) -/
  offAll : Bool := false
  lowHolds : Bool := false
deriving DecidableEq, Repr

/-- Where an Irrix answer goes, and its frame (17 R473, R475, R483). -/
structure OutFrame where
  transport : Transport
  /-- the address and port a UDP datagram goes to and those it leaves from (R484), and its station address (19 R536) -/
  peer      : List Octet := []
  src       : List Octet := []
  mac       : List Octet := []
  ident     : Nat
  octets    : List Octet
deriving DecidableEq, Repr

/-- An open segmented transfer (17 R476). -/
structure Transfer where
  write  : Bool
  index  : Nat
  sub    : Nat
  tcode  : Nat
  seq    : Nat
  total  : Nat
  data   : List Octet
  /-- next segment expected (write), or first segment not acknowledged (read) -/
  next   : Nat
  since  : Nat
deriving DecidableEq, Repr

/-- An Irrix session (17 R479 to R482). trClass: 0 field ports, 1 window, 2 UDP, 3 mailbox. -/
structure Session where
  trClass : Nat := 3
  /-- the transport of its last valid frame, and the UDP source of it, where its EVENTs go (log 21) -/
  tr      : Transport := .mailbox 0
  peer    : List Octet := []
  mgr     : Nat := 0
  /-- bit 0 observer, 1 operator, 2 officer (R479); the mailbox holds observer and operator (R485) -/
  roles   : Nat := 3
  key     : List Octet := []
  rxCount : Nat := 0
  txCount : Nat := 0
  evSeq   : Nat := 0
  lastAt  : Nat := 0
  /-- selectors and other per-session values, key 256 index + sub -/
  sel     : SMap Nat := []
  xfer    : Option Transfer := none
  /-- frames accepted in the last second, with the identifier before the octets, each with its answer and time (R482) -/
  recent  : List (List Octet × List OutFrame × Nat) := []
  /-- proof sheet: the nonce pending, the sheet readable (18 R509) -/
  nonce   : Option (List Octet) := none
  sheet   : List Octet := []
deriving DecidableEq, Repr

/-- An authentication attempt after step 2 (17 R480). -/
structure Auth where
  transport : Transport
  mgr     : Nat
  record  : Nat
  roles   : Nat
  mnonce  : List Octet
  dnonce  : List Octet
  since   : Nat
  /-- the segments of the signature received so far, in order -/
  sig     : List Octet := []
deriving DecidableEq, Repr

/-- A way-enough command in the unit (17 R490, R491). by_ is the session that is answered, frame the request's sequence. -/
structure WayCmd where
  kind    : Nat
  number  : Nat
  at_     : Nat
  /-- the target's actions have been done -/
  acted   : Bool
  by_     : Option (Nat × Nat × Nat)
  /-- the transport of a frame, which is answered at completion, and the frame's key for a repeat (R482) -/
  tr      : Option Transport
  key     : List Octet := []
deriving DecidableEq, Repr

/-- The management side: dictionary server, sessions, way-enough unit, event log, timebase discipline (17). -/
structure Irrix where
  /-- RWP and RW values, key 256 index + sub; an unlisted key reads its default -/
  values   : SMap (List Octet) := []
  sessions : List Session := []
  auths    : List Auth := []
  frames   : SMap Nat := []
  /-- frames sent, newest first -/
  out      : List OutFrame := []
  /-- the octets of the dictionary window's slots, by offset, and its slot pointers (R483) -/
  window   : SMap Octet := []
  reqTail  : Nat := 0
  reqHead  : Nat := 0
  rspTail  : Nat := 0
  rspHead  : Nat := 0
  /-- answers and events held for the full window: (is an EVENT, since, session's trClass, octets) -/
  held     : List (Bool × Nat × List Octet) := []
  mailbox  : SMap Word := []
  /-- a write of word 17 whose request the server has still to take (R485) -/
  mailReq  : Bool := false
  mailDone : Bool := false
  /-- the answer in words 18 to 34 has been read to its end, and the answers that wait behind it (R485; log 105) -/
  mailTaken : Bool := false
  mailOut  : List OutFrame := []
  /-- the mailbox's own selectors and pending transfer: it counts as one session (R486) -/
  mail     : Session := {}
  /-- each field port's last heartbeat -/
  beats    : SMap Nat := []
  /-- how far TB_SET has moved the timebase forward: UPTIME does not move with it -/
  tbShift  : Nat := 0
  log      : SMap (List Octet) := []
  logNext  : Nat := 0
  way      : List WayCmd := []
  /-- sub-indices 4 and 5 of 0xF001: the way-enough unit's status and elapsed time (R487, R491) -/
  wayStat  : Nat := 0
  wayTime  : Nat := 0
  /-- TB_SYNC: the last edge's timebase and phase error, edges taken and ignored (19 R533) -/
  ppsCap   : Nat := 0
  ppsErr   : Int := 0
  /-- the last edge that the module took, from which it sets its rate (17 R489) -/
  ppsLast  : Nat := 0
  edges    : Nat := 0
  edgesIgnored : Nat := 0
  /-- field ports in bus-off (R472) -/
  busOff   : SMap Bool := []
  /-- frames ignored and counted under R472, R473, R529, and transfers' segments out of order -/
  ignored  : Nat := 0
deriving DecidableEq, Repr

/-- An image staged by changeover: header octets and the words of the image (18 R498, R499). -/
structure Staged where
  kind   : Nat
  header : List Octet
deriving DecidableEq, Repr

/-- Boot, fuses, flash and changeover (18). -/
structure Boot where
  otp       : SMap Word := []
  /-- flash octets; an erased octet reads 0xFF -/
  flash     : SMap Octet := []
  /-- the flash's SFDP shows a 64 KiB erase (19 R541) -/
  erase64   : Bool := true
  result    : Nat := 1
  done      : Bool := false
  tampered  : Bool := false
  setBooted : Nat := 0
  markerSeq : Nat := 0
  rootSlot  : Nat := 0
  laneOpened : Bool := false
  impHash   : List Octet := []
  impHashSb : List Octet := []
  standby   : Nat := 0
  phase     : Nat := 0
  armedAt   : Option Nat := none
  mhold     : Bool := false
  keelNew   : Bool := false
  strokeNew : Bool := false
  bowNew    : Bool := false
  impNew    : Bool := false
  staged    : List Staged := []
  keelAbi   : Nat := 0
  /-- SVN and COMMIT of the running images, key = type 1 to 4: 2 SVN + COMMIT -/
  svn       : SMap Nat := []
  /-- case words of the running Keel and side images, key = type 1 to 3: 2^40 base + length -/
  ranges    : SMap Nat := []
  /-- the manager key set of the side images, by record (17 R479) -/
  mgrKeys   : SMap (List Octet) := []
deriving DecidableEq, Repr

/-- A boundary-scan port (19 R543): the instruction in force, the selected register, the update latches. -/
structure Tap where
  ir      : Nat := 1
  reg     : List Bool := []
  latch   : List Bool := []
  driving : Bool := false
  highz   : Bool := false
deriving DecidableEq, Repr

/-- Balls and the PCI Express endpoint (19). -/
structure Pins where
  porN     : Bool := true
  node     : BitVec 7 := 0
  tamperOutLow : Bool := false
  gpDir    : BitVec 16 := 0
  gpOut    : BitVec 16 := 0
  perstEn  : Bool := true
  gpIgnored : Nat := 0
  /-- the last rise of TB_OUT, which then stays high for 100 ms (19 R533) -/
  tbRise   : Option Nat := none
  refclk   : Bool := true
  pcieUp   : Bool := false
  aperBase : Nat := 0
  barIgnored : Nat := 0
  /-- errors on posted writes of the host window (10 R341) -/
  writeErrs : Nat := 0
  /-- the host window read that a seat's load makes in this command ends in a timeout (10 R341, 19 R537) -/
  readFails : Bool := false
  /-- octets sent to the host: posted writes (host address, octet), aperture read completions, newest first -/
  hostOut  : List (Nat × Octet) := []
  completions : List (Option (List Octet) × Bool) := []
  /-- the MSI-X vectors signalled, newest first; the table's octets, whose mask bits are set at reset, and the pending bits
  (R537, R538; log 106) -/
  msix     : List Nat := []
  msixTable : SMap Octet := []
  msixPend : SMap Bool := []
  tap      : Tap := {}
deriving DecidableEq, Repr

/-- The block. -/
structure State where
  /-- the commands waiting, first in, first out -/
  pending : List Instr := []
  /-- the timebase, in ns (04 R117) -/
  time    : Nat := 0
  /-- the model's own counter, which free values are applied to (log 5) -/
  free    : Nat := 0
  seats   : SMap Seat := []
  mem     : Mem := {}
  fence   : Fence := {}
  sys     : SysWords := {}
  lanes   : LaneUnit := {}
  coxes   : SMap Cox := []
  eth     : Eth := {}
  galley  : Galley := {}
  custody : Custody := {}
  engines : Engines := {}
  /-- the counter store: key = double number from CB; WRAP at bit 54 (15 R436, R440) -/
  counters : SMap Nat := []
  power   : Power := {}
  irrix   : Irrix := {}
  boot    : Boot := {}
  pins    : Pins := {}
deriving DecidableEq, Repr

/-- A seat whose domain is off, as each but C0.0 is until Keel powers the crews (18 R502). -/
def seatDefault : Seat := { powered := false }

/-- A seat whose domain has come up: its reset state, handed to its cox (01 R15, 08 R269, 16 R455). -/
def seatFresh : Seat := {}

/-- A root capability of R70. -/
def rootCap (last : Word) (rights : Nat) (side : Bool) : Cap :=
  { w0 := 0, w1 := 0, w2 := last,
    w3 := field 8 rights ||| flag 7 true ||| flag 6 side, tag := true }

/-- The boot ROM capability (18 R493). RIGHTS bits from RD (bit 11 of the field) to KY (bit 0). -/
def bootRomCap : Cap :=
  { w0 := 0o000203000000, w1 := 0o000203000000, w2 := 0o000203037777,
    w3 := field 8 0b101000000100 ||| flag 7 true ||| flag 6 true, tag := true }

/-- Bank T of C0.0 at the release of POR_N (02 R70). RIGHTS runs from RD, bit 11 of the field, to KY, bit 0. -/
def rootBank : Bank :=
  { c := [(1, rootCap 0o777777777777 0b111111001100 false), (2, rootCap 0o777777777777 0b111111001100 true),
          (3, rootCap 65535 0b000000110000 false), (4, rootCap 65535 0b000000110000 true),
          (5, rootCap 65535 0b000000000010 false), (6, rootCap 65535 0b000000000010 true),
          (7, rootCap 1048575 0b000000000001 true)],
    pcc := bootRomCap }

/-- Seat C0.0 at the release of POR_N: at M in bank T, in deterministic mode (03 R82). -/
def rootSeat : Seat := { banks := [(8, rootBank)], idle := false }

/-- The block at the release of POR_N, before the boot sequence. -/
def State.reset : State :=
  { seats := [(0, rootSeat)] }

end Sys2Proof.Machine
end

