-- ==== Sys2Proof/Machine/Cap.lean ====
section
/-! DEFINITION. Capabilities: their fields (02 R29), the rights (R33), derivation (R43 to R47) and the tests that an
access makes of a capability alone (R48 steps 1 to 6). -/

namespace Sys2Proof.Machine

/-- The null capability (R30). -/
def capNull : Cap := {}

/-- CURSOR as a number. -/
def capCursor (c : Cap) : Nat := c.w0.toNat
/-- BASE as a number. -/
def capBase (c : Cap) : Nat := c.w1.toNat
/-- LAST as a number. -/
def capLast (c : Cap) : Nat := c.w2.toNat
/-- SEAL, word 3 bits 35-20. -/
def capSeal (c : Cap) : Nat := bits c.w3 35 20
/-- RIGHTS, word 3 bits 19-8. -/
def capRights (c : Cap) : Nat := bits c.w3 19 8
/-- GLOBAL, word 3 bit 7. -/
def capGlobal (c : Cap) : Bool := bit c.w3 7
/-- SIDE, word 3 bit 6; true is bow side. -/
def capSide (c : Cap) : Bool := bit c.w3 6
/-- RING, word 3 bits 5-4. -/
def capRing (c : Cap) : Nat := bits c.w3 5 4

/-- The capability with another cursor. -/
def capSetCursor (c : Cap) (a : Nat) : Cap := { c with w0 := BitVec.ofNat 36 a }

/-- The capability with another SEAL. -/
def capSetSeal (c : Cap) (v : Nat) : Cap :=
  { c with w3 := (c.w3 &&& 0o000003777777) ||| field 20 v }

/-- The capability with another RIGHTS field. -/
def capSetRights (c : Cap) (v : Nat) : Cap :=
  { c with w3 := (c.w3 &&& ~~~(field 8 0xFFF)) ||| field 8 v }

/-- The capability with another GLOBAL. -/
def capSetGlobal (c : Cap) (b : Bool) : Cap :=
  { c with w3 := (c.w3 &&& ~~~(flag 7 true)) ||| flag 7 b }

/-- The rights of R33 as bits of the RIGHTS field. -/
def rRD : Nat := 0x800
def rWR : Nat := 0x400
def rEX : Nat := 0x200
def rRC : Nat := 0x100
def rWC : Nat := 0x080
def rWL : Nat := 0x040
def rSE : Nat := 0x020
def rUS : Nat := 0x010
def rGT : Nat := 0x008
def rSY : Nat := 0x004
def rLN : Nat := 0x002
def rKY : Nat := 0x001

/-- Does the RIGHTS field r hold every right of need? -/
def holds (r need : Nat) : Bool := r &&& need == need

/-- What a value copied into PCC leaves there: a capability without EX cannot become PCC (R33), so its words arrive without its tag
and are no capability. DEDUCED, log 89. -/
def asPcc (c : Cap) : Cap := { c with tag := c.tag && holds (capRights c) rEX }

/-- The number rights of R33: SE, US, LN, KY. -/
def numberRights : Nat := rSE + rUS + rLN + rKY

/-- Any memory right, R33. -/
def hasMemoryRight (c : Cap) : Bool := capRights c &&& (0xFFF - numberRights) != 0

/-- Any number right, R33. -/
def hasNumberRight (c : Cap) : Bool := capRights c &&& numberRights != 0

/-- Causes of 07 R214, in octal as the table gives them. -/
def cALIGN : Nat := 0o01
def cTAG : Nat := 0o02
def cSEALED : Nat := 0o03
def cRIGHTS : Nat := 0o04
def cBOUNDS : Nat := 0o05
def cSEALRETIRED : Nat := 0o06
def cDERIVE : Nat := 0o07
def cLOCAL : Nat := 0o10
def cGATE : Nat := 0o11
def cFENCE : Nat := 0o12
def cTRANSLATE : Nat := 0o13
def cWALKIO : Nat := 0o14
def cWALKPOISON : Nat := 0o15
def cPOISON : Nat := 0o16
def cILLEGAL : Nat := 0o17
def cATTACHED : Nat := 0o20
def cWIDEOFF : Nat := 0o21
def cDIVZERO : Nat := 0o22
def cRETURNCHECK : Nat := 0o23
def cSTOW : Nat := 0o24
def cDOUBLE : Nat := 0o25
def cWATCH : Nat := 0o26
def cSYSWORD : Nat := 0o27
def cCALL : Nat := 0o30
def cPAIRMISMATCH : Nat := 0o31
def cLANE : Nat := 0o32

/-- What a trap records beside the save set's copies: the fields of SV_CAUSE, SV_ADDR and SV_AUX (07 R214, R217), and the
progress of SV_PROG (05 R157). -/
structure Trap where
  cause : Nat
  addr  : Word := 0
  aux   : Word := 0
  step  : Nat := 0
  fkind : Nat := 0
  wlvl  : Nat := 0
  write : Bool := false
  fetch : Bool := false
  prog  : Word := 0
  attempt : Cap := {}
  atst  : Word := 0
  /-- routed to M whatever the cause (R95) -/
  toM   : Bool := false
deriving DecidableEq, Repr

/-- One access as R48 sees it before translation: the capability, the address as an exact integer (R52), the number of
words, the alignment, the rights step 4 needs, and whether a tagged value is stored. -/
structure Access where
  cap   : Cap
  ea    : Int
  n     : Nat
  align : Nat := 1
  need  : Nat := 0
  write : Bool := false
  fetch : Bool := false
  /-- a tagged value is stored: WC, and WL for a local value (R39) -/
  tagged : Bool := false
  local_ : Bool := false
  /-- the scaled index is out of range (R134) -/
  badIx : Bool := false
  /-- step 4 asks for a memory capability only (R177 on c[aux]) -/
  memOnly : Bool := false
  /-- step 8 is made on each word by itself (05 R175) -/
  each : Bool := false
  /-- the trap that the unit behind the access raises once every check of the access has passed (05 R173) -/
  last : Option Trap := none

/-- The effective address in 36 bits, as SV_ADDR records it (R52). -/
def Access.word (a : Access) : Word := BitVec.ofInt 36 a.ea

/-- A trap of an access at a step. -/
def Access.trap (a : Access) (cause step : Nat) : Trap :=
  { cause := cause, addr := a.word, step := step, write := a.write, fetch := a.fetch }

/-- Is the capability usable at the level and side (R49)? -/
def sideUsable (lvl : Level) (side : Bool) (c : Cap) : Bool :=
  match lvl with
  | .M => true
  | _ => capSide c == side

/-- The first word of a span that lies outside the bounds: SV_ADDR of BOUNDS (07 R214). -/
def boundsWord (a : Access) : Nat := if a.ea.toNat < capBase a.cap then a.ea.toNat else max a.ea.toNat (capLast a.cap + 1)

/-- Step 6: the whole span lies within the bounds, without wraparound (R51); an address outside 0 to 2^36 - 1 fails,
with SV_AUX telling which way (R52). -/
def boundsFail (a : Access) : Option Trap :=
  if a.ea < 0 then some { a.trap cBOUNDS 6 with aux := 1 }
  else if a.ea > (space36 : Int) - 1 then some { a.trap cBOUNDS 6 with aux := 2 }
  else if a.badIx then some (a.trap cBOUNDS 6)
  else if capBase a.cap ≤ a.ea.toNat ∧ a.ea.toNat + a.n ≤ capLast a.cap + 1 then none
  else some { a.trap cBOUNDS 6 with addr := BitVec.ofNat 36 (boundsWord a) }

/-- The trap of step k of R48, for steps 1 to 6. -/
def stepFail (lvl : Level) (side : Bool) (a : Access) : Nat → Option Trap
  | 1 => if a.cap.tag then none else some (a.trap cTAG 1)
  | 2 => if capSeal a.cap = 0 then none else some (a.trap cSEALED 2)
  | 3 => if sideUsable lvl side a.cap then none else some (a.trap cRIGHTS 3)
  | 4 =>
    if hasNumberRight a.cap && (a.memOnly || a.need &&& numberRights == 0) then some (a.trap cRIGHTS 4)
    else if !holds (capRights a.cap) a.need then some (a.trap cRIGHTS 4)
    else if a.tagged && !holds (capRights a.cap) rWC then some (a.trap cRIGHTS 4)
    else if a.tagged && a.local_ && !holds (capRights a.cap) rWL then some (a.trap cLOCAL 4)
    else none
  | 5 => if a.ea % (a.align : Int) = 0 then none else some (a.trap cALIGN 5)
  | 6 => boundsFail a
  | _ => none

/-- The first trap of the steps ks over the operands, each step over every operand before the next (R55). -/
def stepsFail (lvl : Level) (side : Bool) (as : List Access) (ks : List Nat) : Option Trap :=
  ks.findSome? fun k => as.findSome? fun a => stepFail lvl side a k

/-- Steps 1 to 6 of R48 on one access. -/
def capFail (lvl : Level) (side : Bool) (a : Access) : Option Trap :=
  stepsFail lvl side [a] [1, 2, 3, 4, 5, 6]

/-- The source check of a derivation (R44): TAG, SEALED, RIGHTS for the side. SV_ADDR is the source cursor (R214). SEALED
is raised at step 2 (R58); STEP of the others is 0, since no rule puts them at a step of R48 (R217). DEDUCED, log 9. -/
def checkSource (lvl : Level) (side : Bool) (c : Cap) : Option Trap :=
  if !c.tag then some { cause := cTAG, addr := c.w0 }
  else if capSeal c ≠ 0 then some { cause := cSEALED, addr := c.w0, step := 2 }
  else if !sideUsable lvl side c then some { cause := cRIGHTS, addr := c.w0 }
  else none

/-- Is n a legal derivation of cs (R45)? -/
def capLegal (cs n : Cap) : Bool :=
  decide (capBase cs ≤ capBase n) && decide (capLast n ≤ capLast cs)
    && (capRights n &&& (0xFFF - capRights cs) == 0)
    && (!capGlobal n || capGlobal cs)
    && !(holds (capRights n) (rWR + rEX) && !holds (capRights n) rSY)
    && !(hasNumberRight n && hasMemoryRight n)

/-- CINC of R45 and R46. -/
def capInc (cs : Cap) (w : Word) : Cap := { cs with w0 := cs.w0 + w }

/-- CSETB of R45 and R47, before the legality test: none when the new LAST passes 2^36 - 1. -/
def capSetBounds (cs : Cap) (w : Word) : Option Cap :=
  if capCursor cs + w.toNat > space36 - 1 then none
  else some { cs with w1 := cs.w0, w2 := cs.w0 + w }

/-- Does a tagged capability match an armed range (R73)? -/
def rangeMatch (base last : Nat) (c : Cap) : Bool :=
  c.tag && hasMemoryRight c && decide (base ≤ last) && decide (capBase c ≤ last) && decide (base ≤ capLast c)

/-- The LVL code of R81. -/
def lvlCode : Level → Nat
  | .U => 0 | .S => 1 | .M => 3

/-- STATUS bits 12-0 in the layout of R81. -/
def statusWord (t : Status) : Word :=
  field 11 t.ring.toNat ||| flag 10 t.ringMode ||| flag 9 t.wideOn ||| flag 8 t.det
    ||| field 4 t.bank ||| flag 2 t.side ||| field 0 (lvlCode t.lvl)

/-- The level a stored LVL field names; 2 is never held by STATUS (R81). -/
def lvlOf (n : Nat) : Level := if n = 0 then .U else if n = 1 then .S else .M

/-- STATUS from a stored word. -/
def statusOf (w : Word) : Status :=
  { ring := BitVec.ofNat 2 (bits w 12 11), ringMode := bit w 10, wideOn := bit w 9, det := bit w 8,
    bank := bits w 7 4, side := bit w 2, lvl := lvlOf (bits w 1 0) }

end Sys2Proof.Machine
end

