-- ==== Sys2Proof/Machine/Regs.lean ====
section
/-! DEFINITION. The one home of every register access: seats, banks, w, c and v registers, counters of counter space. -/

namespace Sys2Proof.Machine

/-- Seat q. -/
def getSeat (s : State) (q : Nat) : Seat := smGet seatDefault s.seats q

/-- The state with another seat q. -/
def setSeat (s : State) (q : Nat) (x : Seat) : State := { s with seats := smSet seatDefault s.seats q x }

/-- The state with seat q changed. -/
def modSeat (s : State) (q : Nat) (f : Seat → Seat) : State := setSeat s q (f (getSeat s q))

/-- Bank b of a seat; 8 is T (04 R118). -/
def getBank (x : Seat) (b : Nat) : Bank := smGet {} x.banks b

/-- The seat with another bank b. -/
def setBank (x : Seat) (b : Nat) (v : Bank) : Seat := { x with banks := smSet {} x.banks b v }

/-- The seat with bank b changed. -/
def modBank (x : Seat) (b : Nat) (f : Bank → Bank) : Seat := setBank x b (f (getBank x b))

/-- The bank in use (04 R119). -/
def curBank (x : Seat) : Bank := getBank x x.status.bank

/-- The state with the bank in use of seat q changed. -/
def modCur (s : State) (q : Nat) (f : Bank → Bank) : State := modSeat s q fun x => modBank x x.status.bank f

/-- Register r of a bank's word file; w0 reads zero (04 R118). -/
def bankW (b : Bank) (r : Nat) : Word := if r = 0 then 0 else smGet 0 b.w r

/-- The bank with w[r] written; a write of w0 is discarded (05 R141). -/
def bankSetW (b : Bank) (r : Nat) (v : Word) : Bank := if r = 0 then b else { b with w := smSet 0 b.w r v }

/-- Register r of a bank's capability file; c0 is the null capability (02 R30). -/
def bankC (b : Bank) (r : Nat) : Cap := if r = 0 then capNull else smGet {} b.c r

/-- The bank with c[r] written; a write of c0 is discarded (02 R30). -/
def bankSetC (b : Bank) (r : Nat) (v : Cap) : Bank := if r = 0 then b else { b with c := smSet {} b.c r v }

/-- w[r] of the bank in use. -/
def wGet (s : State) (q r : Nat) : Word := bankW (curBank (getSeat s q)) r

/-- Writes w[r] of the bank in use. -/
def wSet (s : State) (q r : Nat) (v : Word) : State := modCur s q fun b => bankSetW b r v

/-- c[r] of the bank in use. -/
def cGet (s : State) (q r : Nat) : Cap := bankC (curBank (getSeat s q)) r

/-- Writes c[r] of the bank in use. -/
def cSet (s : State) (q r : Nat) (v : Cap) : State := modCur s q fun b => bankSetC b r v

/-- PCC of the bank in use. -/
def pccGet (s : State) (q : Nat) : Cap := (curBank (getSeat s q)).pcc

/-- Writes PCC of the bank in use. -/
def pccSet (s : State) (q : Nat) (v : Cap) : State := modCur s q fun b => { b with pcc := v }

/-- The address of the instruction being executed (05, "pc"). -/
def pcOf (s : State) (q : Nat) : Nat := capCursor (pccGet s q)

/-- A jump changes only PCC.CURSOR (05 R162). -/
def pcSet (s : State) (q : Nat) (a : Nat) : State := pccSet s q (capSetCursor (pccGet s q) a)

/-- Word j of v[k] (04 R121). -/
def vGet (s : State) (q k j : Nat) : Word := smGet 0 (getSeat s q).wide (8 * k + j)

/-- The eight words of v[k], word 0 first. -/
def vWords (s : State) (q k : Nat) : List Word := smGetList 0 (getSeat s q).wide (8 * k) 8

/-- Writes v[k] from its eight words. -/
def vSet (s : State) (q k : Nat) (ws : List Word) : State :=
  modSeat s q fun x => { x with wide := smSetList 0 x.wide (8 * k) (ws.take 8) }

/-- STATUS of a seat. -/
def statusOfSeat (s : State) (q : Nat) : Status := (getSeat s q).status

/-- Do the seat's accesses to the physical word use its stick (06 R208)? While the arrays serve as caches (ARRAY 0, R207), a
bound window keeps its words and its use. DESIGN CHOICE, log 114. -/
def inStick (x : Seat) (a : Nat) : Bool := x.stickUse && a / 16384 == x.stickBase

/-- Does the seat's code store hold the physical word (06 R209)? -/
def inCode (x : Seat) (a : Nat) : Bool := x.codeOn && a / 16384 == x.codeBase

/-- OCCUPIED of a save set, SV_BANK bit 35 (07 R217). -/
def occupied (v : SaveSet) : Bool := bit v.bank 35

/-- SV_BANK.BANK. -/
def saveBank (v : SaveSet) : Nat := bits v.bank 3 0

/-- Is the seat in an activation: its bank is in use, or M interrupts it (07 R217)? -/
def inActivation (x : Seat) : Bool := decide (x.status.bank < 8) || (occupied x.svM && decide (saveBank x.svM < 8))

/-- Does DET_CTL.FORCE alone put the activation in deterministic mode (06 R206)? -/
def forcedDet (x : Seat) : Bool := x.force && inActivation x && !x.status.det

/-- Is the seat in deterministic mode now: the mode of what runs, or FORCE over an activation (06 R206)? -/
def detOn (x : Seat) : Bool := x.status.det || (x.force && inActivation x)

/-- STATUS as the seat reports and saves it: DET is the mode in force (03 R89, 06 R206). -/
def liveStatus (x : Seat) : Status := { x.status with det := detOn x }

/-- The level a seat runs at. -/
def levelOf (s : State) (q : Nat) : Level := (statusOfSeat s q).lvl

/-- STATUS.SIDE; true is bow. -/
def sideOf (s : State) (q : Nat) : Bool := (statusOfSeat s q).side

/-- STATUS.RINGMODE. -/
def inRing (s : State) (q : Nat) : Bool := (statusOfSeat s q).ringMode

/-- The save sets of a seat, by index 0 stroke, 1 bow, 2 M (07 R217). -/
def saveSet (x : Seat) (i : Nat) : SaveSet := if i = 0 then x.svStroke else if i = 1 then x.svBow else x.svM

/-- The seat with save set i written. -/
def setSaveSet (x : Seat) (i : Nat) (v : SaveSet) : Seat :=
  if i = 0 then { x with svStroke := v } else if i = 1 then { x with svBow := v } else { x with svM := v }

/-- Is any save set OCCUPIED (07 R225)? -/
def anyOccupied (x : Seat) : Bool := occupied x.svStroke || occupied x.svBow || occupied x.svM

/-- The set with OCCUPIED cleared. -/
def clearOcc (v : SaveSet) : SaveSet := { v with bank := v.bank &&& ~~~(flag 35 true) }

/-- CTX.CUR_SEAL (03 R83). -/
def curSeal (b : Bank) : Nat := bits b.ctx 35 20

/-- CTX.MAPID (03 R83). -/
def ctxMap (b : Bank) : Nat := bits b.ctx 6 0

/-- CTX from its fields. -/
def mkCtx (sv map : Nat) : Word := field 20 (sv % 65536) ||| field 0 (map % 128)

/-- The double number of counter index i of the block at an offset from CB (15 R443). -/
def counterKey (off i : Nat) : Nat := off / 2 + i

/-- The unit codes that have counters: those of 09 R277 and 11 R362, and two that no rule names, which read zero: 16 R470
counts 62 blocks (log 59). -/
def unitCodes : List Nat :=
  [0, 1, 2, 3, 8, 9, 10, 11] ++ (List.range 24).map (0o100 + ·) ++ (List.range 8).map (0o140 + ·)
    ++ (List.range 16).map (0o160 + ·) ++ [0o200, 0o201, 0o202, 0o203, 0o204, 0o205]

/-- The kinds of unit that take requests (09 R277). -/
def isPlaten (u : Nat) : Bool := decide (0o100 ≤ u) && decide (u ≤ 0o127)
def isCipher (u : Nat) : Bool := decide (0o140 ≤ u) && decide (u ≤ 0o147)
def isDigest (u : Nat) : Bool := decide (0o160 ≤ u) && decide (u ≤ 0o177)
def isCompositor (u : Nat) : Bool := decide (0o010 ≤ u) && decide (u ≤ 0o013)

/-- The power domain of a unit, in the order of 16 R454. -/
def unitDomain (u : Nat) : Nat :=
  if isPlaten u then 115 + (u - 0o100) else if isCipher u then 139 + (u - 0o140)
  else if isDigest u then 147 + (u - 0o160) else 172

/-- The indices of a seat's counters of cycles, caches, the predictor and wrong paths (15 R439, R444). -/
def seatPipeline : List Nat := [0, 2, 3, 4, 5, 6, 7, 24, 25, 26, 27, 28, 29, 96, 97, 98, 99, 109]

/-- Does the counter at a double also count what no command shows: cycles, caches, the predictor, wrong paths, slot-cache
misses (15 R439, R443, R444)? A reserved word reads zero. DESIGN CHOICE, log 55. -/
def pipelineKey (k : Nat) : Bool :=
  if k < 72 * 256 then seatPipeline.contains (k % 256)
  else if counterKey 0o110000 0 ≤ k ∧ k < counterKey (0o110000 + 0o200 * 11) 0 then k % 64 == 15
  else if counterKey 0o120000 0 ≤ k then
    let u := (k - counterKey 0o120000 0) / 16
    (k % 16 == 3 || k % 16 == 5) && unitCodes.contains u && decide (u ≤ 0o203)
  else false

/-- The count and WRAP of the counter at a double. -/
def counterValue (s : State) (k : Nat) : Nat := smGet 0 s.counters k

/-- n more in the counter at a double: 54 bits and the sticky WRAP (15 R436). -/
def counterBump (m : SMap Nat) (k n : Nat) : SMap Nat :=
  let v := smGet 0 m k
  let c := v % 2 ^ 54 + n
  smSet 0 m k (c % 2 ^ 54 + 2 ^ 54 * (v / 2 ^ 54 ||| (if 2 ^ 54 ≤ c then 1 else 0)))

/-- Adds n to a counter (15 R436). -/
def counterAdd (s : State) (off i n : Nat) : State :=
  { s with counters := counterBump s.counters (counterKey off i) n }

/-- Counts an event of a seat; a seat in check stop and a switched-off spare count nothing (15 R437). -/
def seatCount (s : State) (q i : Nat) : State :=
  let x := getSeat s q
  if x.powered && x.checkStop.isNone then counterAdd s (0o1000 * q) i 1 else s

/-- Counts an event of a cox (15 R443, R444). -/
def coxCount (s : State) (x i : Nat) : State := counterAdd s (0o110000 + 0o200 * x) i 1

/-- Counts n events of a unit. -/
def unitCount (s : State) (u i n : Nat) : State := counterAdd s (0o120000 + 0o40 * u) i n

/-- Counts an event of a lane. -/
def laneCount (s : State) (l i : Nat) : State := counterAdd s (0o1000000 + 8 * l) i 1

/-- Counts a gap of a lane (09 R295). -/
def gapCount (s : State) (l : Nat) : State := counterAdd s (0o3000000 + 2 * l) 0 1

/-- Counts a frame dropped for a bucket of a port (09 R307). -/
def bucketCount (s : State) (p b : Nat) : State := counterAdd s (0o3400000 + 2 * (4096 * p + b)) 0 1

/-- Counts an event of a lane class. -/
def classCount (s : State) (k i : Nat) : State := counterAdd s (0o3500000 + 0o10 * k) i 1

/-- Custody, the always-on fabric and perhaps the field ports alone have power, or nothing has: after a temperature seal,
after a dropout (16 R471), and after tamper response (18 R519). -/
def dark (p : Power) : Bool := p.dropout || p.sealedTemp || p.offAll

/-- Do the units outside custody and the always-on fabric run: out of reset, and with power (16 R471)? -/
def moduleRuns (s : State) : Bool := s.pins.porN && !dark s.power

/-- Does the galley run: its domain has power and is out of reset? -/
def galleyRuns (s : State) : Bool := moduleRuns s

/-- Does the unit of a counter count now: its domain has power, and its seat is not in check stop (15 R437)? -/
def unitCounts (s : State) (k : Nat) : Bool :=
  moduleRuns s &&
  if k < 72 * 256 then
    let x := getSeat s (k / 256)
    x.powered && x.checkStop.isNone
  else if counterKey 0o120000 0 ≤ k then
    let u := (k - counterKey 0o120000 0) / 16
    !((isPlaten u || isCipher u || isDigest u) && smGet false s.power.domOff (unitDomain u))
  else true

/-- What the counter at a double has counted, since it was looked at last, of the events that only the pipeline, the caches or
the predictor know: a free value, none when the timebase has yet to run (15 R436, R437, R439; log 55). -/
def pipelineNow (s : State) (k : Nat) : Nat :=
  if pipelineKey k && unitCounts s k && s.time != 0 then Config.pipelineEvents k s.time s.free else 0

/-- Those events are counted, before the counter is looked at. -/
def counterSettle (s : State) (k : Nat) : State :=
  if pipelineKey k then { s with counters := counterBump s.counters k (pipelineNow s k), free := s.free + 1 } else s

/-- A seat's pipeline events so far are counted, before it stops counting (15 R437). -/
def settleSeat (s : State) (q : Nat) : State := (seatPipeline.map (256 * q + ·)).foldl counterSettle s

/-- A unit's pipeline events so far are counted, before its domain switches off (15 R437). -/
def settleUnit (s : State) (u : Nat) : State :=
  [counterKey (0o120000 + 0o40 * u) 3, counterKey (0o120000 + 0o40 * u) 5].foldl counterSettle s

/-- A cox's pipeline events so far are counted. -/
def settleCox (s : State) (x : Nat) : State := counterSettle s (counterKey (0o110000 + 0o200 * x) 15)

/-- Every pipeline event so far is counted, before the module's units lose power (15 R437, 16 R471). -/
def settleAll (s : State) : State :=
  unitCodes.foldl settleUnit ((List.range 11).foldl settleCox ((List.range 72).foldl settleSeat s))

/-- A fresh free value's number, and the state that has moved past it (log 5). -/
def drawFree (s : State) : Nat × State := (s.free, { s with free := s.free + 1 })

/-- A cox by its HOME code (08 R238). -/
def coxDefault : Cox := {}

/-- Cox x. -/
def getCox (s : State) (x : Nat) : Cox := smGet coxDefault s.coxes x

/-- The state with another cox x. -/
def setCox (s : State) (x : Nat) (c : Cox) : State := { s with coxes := smSet coxDefault s.coxes x c }

/-- The state with cox x changed. -/
def modCox (s : State) (x : Nat) (f : Cox → Cox) : State := setCox s x (f (getCox s x))

/-- The stroke length of a cox in ns (08 R244). -/
def strokeNs (c : Cox) : Nat := 500 * (c.n + 1)

/-- Is this instant a stroke boundary of crew x (08 R244)? -/
def atBoundary (s : State) (x : Nat) : Bool := s.time % strokeNs (getCox s x) == 0

/-- The stored value of a dictionary entry, or its default (17 R487). -/
def entryValue (s : State) (index sub : Nat) (dflt : List Octet) : List Octet :=
  match smGet [] s.irrix.values (256 * index + sub) with
  | [] => dflt
  | os => os

/-- The leaf crew of a seat, as its HOME code 3 to 10 (01 R14). -/
def leafOf (q : Nat) : Nat := 3 + q / 9

end Sys2Proof.Machine
end

