-- ==== Sys2Proof/Machine/Banks.lean ====
section
/-! DEFINITION. Priority banks of a seat (08 R253 to R256, 07 R225, R226): which runs, switching, the residence timer; and
what ends a cox's IDLE. -/

namespace Sys2Proof.Machine

/-- Does a bank in this state ask for the seat (08 R254)? -/
def bankAsks : BankSt → Bool
  | .posted | .running | .ready => true
  | _ => false

/-- The highest-numbered bank in RUNNING, READY or POSTED (08 R254). -/
def topBank (x : Seat) : Option Nat := [7, 6, 5, 4, 3, 2, 1, 0].find? fun b => bankAsks (getBank x b).st

/-- The priority bank whose activation the seat is in: the bank in use, or at M the one SV_BANK names (07 R217). -/
def heldBank (x : Seat) : Option Nat :=
  if x.idle then none
  else if x.status.bank < 8 then some x.status.bank
  else if occupied x.svM && decide (saveBank x.svM < 8) then some (saveBank x.svM) else none

/-- Is a pre-emption pending: a higher bank asks for the seat (08 R254, 07 R225)? -/
def preemptPending (x : Seat) : Bool :=
  match heldBank x, topBank x with
  | some p, some b => decide (p < b)
  | _, _ => false

/-- Has the RESIDENCE timer reached LIMIT, and not delivered its M interruption yet (07 R226)? -/
def residDue (now : Nat) (x : Seat) : Bool :=
  !x.residFired && decide (x.residLim ≠ 0)
    && decide (x.residLim ≤ x.residRun + (match x.residFrom with | some t => now - t | none => 0))

/-- The residence timer (07 R226): it starts when a pre-emption is pending while an S set is OCCUPIED and the M set is
not, stands still while the M set is OCCUPIED, and is stopped when no pre-emption is held. One that has reached LIMIT keeps
its M interruption due until that is delivered (R224). -/
def residUpdate (now : Nat) (x : Seat) : Seat :=
  let run := preemptPending x && (occupied x.svStroke || occupied x.svBow) && !occupied x.svM
  let x := match run, x.residFrom with
    | true, none => { x with residFrom := some now }
    | false, some t => { x with residRun := x.residRun + (now - t), residFrom := none }
    | _, _ => x
  if (preemptPending x && anyOccupied x) || residDue now x then x else { x with residRun := 0, residFired := false }

/-- A cox held in IDLE goes on (08 R243). -/
def coxWake (s : State) (x : Nat) : State :=
  if (getCox s x).idling then modCox s x fun c => { c with idling := false } else s

/-- Is a post at priority p to seat q acceptable (08 R255)? -/
def postable (x : Seat) (p : Nat) : Bool :=
  x.powered && x.checkStop.isNone && !(getBank x p).abortHeld &&
    ((getBank x p).st == .free || ((getBank x p).st == .blocked && !anyOccupied x && x.stow.isEmpty))

/-- The leaf cox leaves IDLE when a POSTABLE bit of its seat q has risen since the seat was x (08 R243). -/
def postRise (x : Seat) (s : State) (q : Nat) : State :=
  if (List.range 8).any fun b => !postable x b && postable (getSeat s q) b then coxWake s (leafOf q) else s

/-- A change of STATUS.SIDE since the seat was x clears its prediction state; no other effect of it can be seen (03 R85, 15
R444). -/
def sideNote (x : Seat) (s : State) (q : Nat) : State :=
  if (getSeat s q).status.side == x.status.side then s else seatCount s q 28

/-- Changes a seat, and keeps what follows from any change: its residence timer, its prediction state, and its cox's IDLE. -/
def modSeatR (s : State) (q : Nat) (f : Seat → Seat) : State :=
  let x := getSeat s q
  postRise x (sideNote x (modSeat s q fun x => residUpdate s.time (f x)) q) q

/-- The bank's own STATUS is kept when the seat leaves it (04 R120). -/
def leaveBank (x : Seat) : Seat := modBank x x.status.bank fun b => { b with status := x.status }

/-- The seat runs bank b, with the STATUS the bank last had; a switch sets WIDE_ON to 0 (04 R119, R122). -/
def runBank (x : Seat) (b : Nat) : Seat :=
  let v := getBank x b
  { setBank x b { v with st := .running } with
      status := { v.status with bank := b, wideOn := false }, idle := false }

/-- M may not be entered while the M hold stands (18 R516). -/
def mHeld (s : State) : Bool := s.boot.mhold

/-- May an asynchronous trap be delivered now (07 R223, 18 R516)? -/
def asyncReady (s : State) (q : Nat) : Bool :=
  let x := getSeat s q
  s.pins.porN && !dark s.power && x.powered && x.checkStop.isNone && !occupied x.svM && !mHeld s

/-- Is an asynchronous trap pending that may be delivered now (07 R223 to R227)? -/
def asyncPending (s : State) (q : Nat) : Bool :=
  let x := getSeat s q
  asyncReady s q && (!x.pendStow.isEmpty || !x.pendPair.isEmpty || residDue s.time x)

/-- An idle seat takes up its highest bank if that bank is READY (08 R254, R256); no bank is switched while a save set is
OCCUPIED (07 R225), and an asynchronous trap that is due is taken first (R224). -/
def selectBank (s : State) (q : Nat) : State :=
  let x := getSeat s q
  if x.idle && x.powered && x.checkStop.isNone && !anyOccupied x && !asyncPending s q then
    match topBank x with
    | some b => if (getBank x b).st = .ready then modSeatR s q fun x => runBank x b else s
    | none => s
  else s

/-- The wide file of a bank that owns it is zeroed, when its activation ends or another enters the bank (04 R123). -/
def dropWide (x : Seat) (b : Nat) : Seat :=
  if x.wideOwned && x.wideOwner == b then { x with wide := [], wideOwned := false } else x

/-- A seat's bank b becomes FREE (08 R256). However its activation ends, no other reads its wide state (04 R123; log 78). -/
def freeBank (s : State) (q b : Nat) : State :=
  modSeatR s q fun x => modBank (dropWide x b) b fun v =>
    { v with st := .free, role := .none, progress := 0, abortTake := false, abortHeld := false, lastMsg := none,
             old := false }

/-- The job of the stow engine on bank b (08 R258). -/
def jobOn (x : Seat) (b : Nat) : Option StowJob := x.stow.find? fun j => j.bank == b

/-- The stow engine has no more to do for bank b. -/
def dropJob (x : Seat) (b : Nat) : Seat := { x with stow := x.stow.filter fun j => j.bank != b }

/-- The post that a stow makes way for, once the bank is its own (08 R256): the bank is POSTED, or its restore comes next; it
is FREE when the activation that the post brings has ended. -/
def postAfterStow (s : State) (q : Nat) (j : StowJob) : State :=
  if j.void then freeBank (modSeatR s q fun x => dropJob x j.bank) q j.bank
  else
    modSeatR s q fun x =>
      let v : Bank := getBank x j.bank
      if j.stowed then
        { setBank x j.bank { v with st := .restoring, lane := j.lane, abortTake := false, old := false } with
            stow := { j with stowing := false } :: (dropJob x j.bank).stow }
      else
        dropJob (setBank x j.bank { v with st := .posted, lane := j.lane, role := j.role, partner := j.partner,
                                           pairBuf := j.buf, since := j.since, lastMsg := none, abortTake := false,
                                           old := j.old }) j.bank

end Sys2Proof.Machine
end

