-- ==== Sys2Proof/Machine/CryptoSha.lean ====
section
/-! DEFINITION. The digest functions the spec names by their standards: SHA-256, SHA-384, SHA-512, HMAC (12 R391, FIPS
180-4, FIPS 198-1), MGF1 and the RSASSA-PSS check (18 R498, RFC 8017). PRESUMED from the standards, log 10. -/

namespace Sys2Proof.Machine

/-- A number from octets, the first most significant. -/
def beNat (os : List Octet) : Nat := os.foldl (fun n o => n * 256 + o.toNat) 0

/-- The n octets of a number, most significant first. -/
def beOctets : Nat → Nat → List Octet
  | 0, _ => []
  | k + 1, v => beOctets k (v / 256) ++ [BitVec.ofNat 8 v]

/-- The list cut into pieces of k, a short last piece kept. -/
def chunks {α : Type} (k : Nat) (xs : List α) : List (List α) :=
  (List.range ((xs.length + k - 1) / k)).map fun i => (xs.drop (k * i)).take k

/-- The round constants of SHA-256 (FIPS 180-4). -/
def sha256K : List (BitVec 32) :=
  [0x428a2f98, 0x71374491, 0xb5c0fbcf, 0xe9b5dba5, 0x3956c25b, 0x59f111f1, 0x923f82a4, 0xab1c5ed5]
  ++ [0xd807aa98, 0x12835b01, 0x243185be, 0x550c7dc3, 0x72be5d74, 0x80deb1fe, 0x9bdc06a7, 0xc19bf174]
  ++ [0xe49b69c1, 0xefbe4786, 0x0fc19dc6, 0x240ca1cc, 0x2de92c6f, 0x4a7484aa, 0x5cb0a9dc, 0x76f988da]
  ++ [0x983e5152, 0xa831c66d, 0xb00327c8, 0xbf597fc7, 0xc6e00bf3, 0xd5a79147, 0x06ca6351, 0x14292967]
  ++ [0x27b70a85, 0x2e1b2138, 0x4d2c6dfc, 0x53380d13, 0x650a7354, 0x766a0abb, 0x81c2c92e, 0x92722c85]
  ++ [0xa2bfe8a1, 0xa81a664b, 0xc24b8b70, 0xc76c51a3, 0xd192e819, 0xd6990624, 0xf40e3585, 0x106aa070]
  ++ [0x19a4c116, 0x1e376c08, 0x2748774c, 0x34b0bcb5, 0x391c0cb3, 0x4ed8aa4a, 0x5b9cca4f, 0x682e6ff3]
  ++ [0x748f82ee, 0x78a5636f, 0x84c87814, 0x8cc70208, 0x90befffa, 0xa4506ceb, 0xbef9a3f7, 0xc67178f2]

/-- The round constants of SHA-384 and SHA-512 (FIPS 180-4). -/
def sha512K : List (BitVec 64) :=
  [0x428a2f98d728ae22, 0x7137449123ef65cd, 0xb5c0fbcfec4d3b2f, 0xe9b5dba58189dbbc, 0x3956c25bf348b538, 0x59f111f1b605d019, 0x923f82a4af194f9b, 0xab1c5ed5da6d8118]
  ++ [0xd807aa98a3030242, 0x12835b0145706fbe, 0x243185be4ee4b28c, 0x550c7dc3d5ffb4e2, 0x72be5d74f27b896f, 0x80deb1fe3b1696b1, 0x9bdc06a725c71235, 0xc19bf174cf692694]
  ++ [0xe49b69c19ef14ad2, 0xefbe4786384f25e3, 0x0fc19dc68b8cd5b5, 0x240ca1cc77ac9c65, 0x2de92c6f592b0275, 0x4a7484aa6ea6e483, 0x5cb0a9dcbd41fbd4, 0x76f988da831153b5]
  ++ [0x983e5152ee66dfab, 0xa831c66d2db43210, 0xb00327c898fb213f, 0xbf597fc7beef0ee4, 0xc6e00bf33da88fc2, 0xd5a79147930aa725, 0x06ca6351e003826f, 0x142929670a0e6e70]
  ++ [0x27b70a8546d22ffc, 0x2e1b21385c26c926, 0x4d2c6dfc5ac42aed, 0x53380d139d95b3df, 0x650a73548baf63de, 0x766a0abb3c77b2a8, 0x81c2c92e47edaee6, 0x92722c851482353b]
  ++ [0xa2bfe8a14cf10364, 0xa81a664bbc423001, 0xc24b8b70d0f89791, 0xc76c51a30654be30, 0xd192e819d6ef5218, 0xd69906245565a910, 0xf40e35855771202a, 0x106aa07032bbd1b8]
  ++ [0x19a4c116b8d2d0c8, 0x1e376c085141ab53, 0x2748774cdf8eeb99, 0x34b0bcb5e19b48a8, 0x391c0cb3c5c95a63, 0x4ed8aa4ae3418acb, 0x5b9cca4f7763e373, 0x682e6ff3d6b2b8a3]
  ++ [0x748f82ee5defb2fc, 0x78a5636f43172f60, 0x84c87814a1f0ab72, 0x8cc702081a6439ec, 0x90befffa23631e28, 0xa4506cebde82bde9, 0xbef9a3f7b2c67915, 0xc67178f2e372532b]
  ++ [0xca273eceea26619c, 0xd186b8c721c0c207, 0xeada7dd6cde0eb1e, 0xf57d4f7fee6ed178, 0x06f067aa72176fba, 0x0a637dc5a2c898a6, 0x113f9804bef90dae, 0x1b710b35131c471b]
  ++ [0x28db77f523047d84, 0x32caab7b40c72493, 0x3c9ebe0a15c9bebc, 0x431d67c49c100d4c, 0x4cc5d4becb3e42b6, 0x597f299cfc657e2a, 0x5fcb6fab3ad6faec, 0x6c44198c4a475817]

/-- The initial state of SHA-256. -/
def sha256Init : List (BitVec 32) :=
  [0x6a09e667, 0xbb67ae85, 0x3c6ef372, 0xa54ff53a, 0x510e527f, 0x9b05688c, 0x1f83d9ab, 0x5be0cd19]

/-- The initial state of SHA-512. -/
def sha512Init : List (BitVec 64) :=
  [0x6a09e667f3bcc908, 0xbb67ae8584caa73b, 0x3c6ef372fe94f82b, 0xa54ff53a5f1d36f1, 0x510e527fade682d1, 0x9b05688c2b3e6c1f, 0x1f83d9abfb41bd6b, 0x5be0cd19137e2179]

/-- The initial state of SHA-384. -/
def sha384Init : List (BitVec 64) :=
  [0xcbbb9d5dc1059ed8, 0x629a292a367cd507, 0x9159015a3070dd17, 0x152fecd8f70e5939, 0x67332667ffc00b31, 0x8eb44a8768581511, 0xdb0c2e0d64f98fa7, 0x47b5481dbefa4fa4]

/-- One message-schedule step of SHA-256: the last 16 words, newest first, give the next. -/
def sha256Next (w : List (BitVec 32)) : BitVec 32 :=
  let x := w.getD 14 0
  let y := w.getD 1 0
  (y.rotateRight 17 ^^^ y.rotateRight 19 ^^^ (y >>> 10)) + w.getD 6 0
    + (x.rotateRight 7 ^^^ x.rotateRight 18 ^^^ (x >>> 3)) + w.getD 15 0

/-- The schedule, newest first, extended n words. -/
def sha256Extend : Nat → List (BitVec 32) → List (BitVec 32)
  | 0, w => w
  | n + 1, w => sha256Extend n (sha256Next w :: w)

/-- One round of SHA-256 on the eight working words. -/
def sha256Round (v : List (BitVec 32)) (kw : BitVec 32 × BitVec 32) : List (BitVec 32) :=
  match v with
  | [a, b, c, d, e, f, g, h] =>
    let s1 := e.rotateRight 6 ^^^ e.rotateRight 11 ^^^ e.rotateRight 25
    let t1 := h + s1 + ((e &&& f) ^^^ (~~~e &&& g)) + kw.1 + kw.2
    let s0 := a.rotateRight 2 ^^^ a.rotateRight 13 ^^^ a.rotateRight 22
    [t1 + s0 + ((a &&& b) ^^^ (a &&& c) ^^^ (b &&& c)), a, b, c, d + t1, e, f, g]
  | _ => v

/-- The SHA-256 compression of a block of 16 words into a state (05 R185). -/
def sha256Compress (st block : List (BitVec 32)) : List (BitVec 32) :=
  let w := (sha256Extend 48 block.reverse).reverse
  List.zipWith (· + ·) st ((sha256K.zip w).foldl sha256Round st)

/-- One message-schedule step of SHA-512. -/
def sha512Next (w : List (BitVec 64)) : BitVec 64 :=
  let x := w.getD 14 0
  let y := w.getD 1 0
  (y.rotateRight 19 ^^^ y.rotateRight 61 ^^^ (y >>> 6)) + w.getD 6 0
    + (x.rotateRight 1 ^^^ x.rotateRight 8 ^^^ (x >>> 7)) + w.getD 15 0

/-- The schedule of SHA-512, newest first, extended n words. -/
def sha512Extend : Nat → List (BitVec 64) → List (BitVec 64)
  | 0, w => w
  | n + 1, w => sha512Extend n (sha512Next w :: w)

/-- One round of SHA-512. -/
def sha512Round (v : List (BitVec 64)) (kw : BitVec 64 × BitVec 64) : List (BitVec 64) :=
  match v with
  | [a, b, c, d, e, f, g, h] =>
    let s1 := e.rotateRight 14 ^^^ e.rotateRight 18 ^^^ e.rotateRight 41
    let t1 := h + s1 + ((e &&& f) ^^^ (~~~e &&& g)) + kw.1 + kw.2
    let s0 := a.rotateRight 28 ^^^ a.rotateRight 34 ^^^ a.rotateRight 39
    [t1 + s0 + ((a &&& b) ^^^ (a &&& c) ^^^ (b &&& c)), a, b, c, d + t1, e, f, g]
  | _ => v

/-- The SHA-512 compression. -/
def sha512Compress (st block : List (BitVec 64)) : List (BitVec 64) :=
  let w := (sha512Extend 64 block.reverse).reverse
  List.zipWith (· + ·) st ((sha512K.zip w).foldl sha512Round st)

/-- The digests of 12 R391, in the coding of MODE bits 1-0. -/
inductive ShaAlg where
  | sha256 | sha384 | sha512
deriving DecidableEq, Repr

/-- Block length in octets. -/
def shaBlock : ShaAlg → Nat
  | .sha256 => 64 | _ => 128

/-- Digest length in octets. -/
def shaLen : ShaAlg → Nat
  | .sha256 => 32 | .sha384 => 48 | .sha512 => 64

/-- Octets of one state word. -/
def shaWordLen : ShaAlg → Nat
  | .sha256 => 4 | _ => 8

/-- The initial state, as numbers. -/
def shaInit : ShaAlg → List Nat
  | .sha256 => sha256Init.map BitVec.toNat
  | .sha384 => sha384Init.map BitVec.toNat
  | .sha512 => sha512Init.map BitVec.toNat

/-- One block of octets compressed into a state. -/
def shaBlockStep (alg : ShaAlg) (st : List Nat) (block : List Octet) : List Nat :=
  let ws := (chunks (shaWordLen alg) block).map beNat
  match alg with
  | .sha256 => (sha256Compress (st.map (BitVec.ofNat 32)) (ws.map (BitVec.ofNat 32))).map BitVec.toNat
  | _ => (sha512Compress (st.map (BitVec.ofNat 64)) (ws.map (BitVec.ofNat 64))).map BitVec.toNat

/-- Whole blocks of data hashed into a state. -/
def shaBlocks (alg : ShaAlg) (st : List Nat) (data : List Octet) : List Nat :=
  (chunks (shaBlock alg) data).foldl (shaBlockStep alg) st

/-- The final padding for a message of total octets whose last len octets are still to hash. -/
def shaPad (alg : ShaAlg) (total len : Nat) : List Octet :=
  let lf := 2 * shaWordLen alg
  let z := (2 * shaBlock alg - (len + 1 + lf) % shaBlock alg) % shaBlock alg
  [0x80] ++ List.replicate z 0 ++ beOctets lf (8 * total)

/-- The digest that ends a chain: state, octets hashed before, last data (12 R391). -/
def shaFinish (alg : ShaAlg) (st : List Nat) (before : Nat) (data : List Octet) : List Octet :=
  let out := shaBlocks alg st (data ++ shaPad alg (before + data.length) data.length)
  (out.flatMap (beOctets (shaWordLen alg))).take (shaLen alg)

/-- A whole message's digest. -/
def sha (alg : ShaAlg) (data : List Octet) : List Octet := shaFinish alg (shaInit alg) 0 data

/-- HMAC. -/
def hmac (alg : ShaAlg) (key data : List Octet) : List Octet :=
  let k0 := if key.length > shaBlock alg then sha alg key else key
  let k := k0 ++ List.replicate (shaBlock alg - k0.length) 0
  sha alg (k.map (· ^^^ 0x5C) ++ sha alg (k.map (· ^^^ 0x36) ++ data))

/-- MGF1 with SHA-256. -/
def mgf1 (seed : List Octet) (len : Nat) : List Octet :=
  ((List.range ((len + 31) / 32)).flatMap fun i => sha .sha256 (seed ++ beOctets 4 i)).take len

/-- Octet-wise exclusive or. -/
def xorOctets (a b : List Octet) : List Octet := List.zipWith (· ^^^ ·) a b

/-- Modular power by squaring, over fuel bits of the exponent. -/
def powModFuel : Nat → Nat → Nat → Nat → Nat
  | 0, _, _, m => 1 % m
  | f + 1, b, e, m =>
    let h := powModFuel f (b * b % m) (e / 2) m
    if e % 2 = 1 then h * b % m else h

/-- b^e mod m. -/
def powMod (b e m : Nat) : Nat := powModFuel (e.log2 + 1) (b % m) e m

/-- The RSASSA-PSS verification with SHA-256, MGF1 with SHA-256 and a 32-octet salt (18 R498). -/
def pssVerify (n e : Nat) (msg sig : List Octet) : Bool :=
  let modBits := n.log2 + 1
  let emLen := (modBits + 6) / 8
  let em := beOctets emLen (powMod (beNat sig) e n)
  let dbLen := emLen - 33
  let h := (em.drop dbLen).take 32
  let top := 8 * emLen - (modBits - 1)
  let db0 := xorOctets (em.take dbLen) (mgf1 h dbLen)
  let db := match db0 with
    | [] => []
    | o :: os => (o &&& BitVec.ofNat 8 (255 / 2 ^ top)) :: os
  let pad := dbLen - 33
  let salt := db.drop (pad + 1)
  decide (sig.length = (modBits + 7) / 8) && decide (beNat sig < n) && decide (65 < emLen)
    && em.getLast? == some 0xBC
    && decide ((em.headD 0).toNat < 2 ^ (8 - top))
    && db.take (pad + 1) == List.replicate pad 0 ++ [1]
    && sha .sha256 (List.replicate 8 0 ++ sha .sha256 msg ++ salt) == h

/-- The RSASSA-PSS signature with a given salt, by the private operation of a key of modulus n (18 R510). -/
def pssSign (n : Nat) (priv : Nat → Nat) (msg salt : List Octet) : List Octet :=
  let modBits := n.log2 + 1
  let emLen := (modBits + 6) / 8
  let h := sha .sha256 (List.replicate 8 0 ++ sha .sha256 msg ++ salt)
  let dbLen := emLen - 33
  let top := 8 * emLen - (modBits - 1)
  let db0 := xorOctets (List.replicate (dbLen - 33) 0 ++ [1] ++ salt) (mgf1 h dbLen)
  let db := match db0 with
    | [] => []
    | o :: os => (o &&& BitVec.ofNat 8 (255 / 2 ^ top)) :: os
  beOctets ((modBits + 7) / 8) (priv (beNat (db ++ h ++ [0xBC])))

/-- RSAES-OAEP with SHA-256 and MGF1 with SHA-256, empty label, under a given seed (17 R480 step 4). -/
def oaepEncrypt (n e : Nat) (msg seed : List Octet) : List Octet :=
  let k := (n.log2 + 8) / 8
  let db := sha .sha256 [] ++ List.replicate (k - msg.length - 66) 0 ++ [1] ++ msg
  let mdb := xorOctets db (mgf1 seed (k - 33))
  let ms := xorOctets seed (mgf1 mdb 32)
  beOctets k (powMod (beNat (0 :: ms ++ mdb)) e n)

end Sys2Proof.Machine
end

