-- ==== Sys2Proof/Machine/CryptoAes.lean ====
section
/-! DEFINITION. AES and its modes: ECB, CBC, CTR, GCM, CMAC, key wrap with padding (12 R385, R390; FIPS 197, SP 800-38A,
-38B, -38D, -38F). PRESUMED from the standards, log 10. -/

namespace Sys2Proof.Machine

/-- The AES substitution table (FIPS 197). -/
def aesSbox : List Octet :=
  [0x63, 0x7C, 0x77, 0x7B, 0xF2, 0x6B, 0x6F, 0xC5, 0x30, 0x01, 0x67, 0x2B, 0xFE, 0xD7, 0xAB, 0x76]
  ++ [0xCA, 0x82, 0xC9, 0x7D, 0xFA, 0x59, 0x47, 0xF0, 0xAD, 0xD4, 0xA2, 0xAF, 0x9C, 0xA4, 0x72, 0xC0]
  ++ [0xB7, 0xFD, 0x93, 0x26, 0x36, 0x3F, 0xF7, 0xCC, 0x34, 0xA5, 0xE5, 0xF1, 0x71, 0xD8, 0x31, 0x15]
  ++ [0x04, 0xC7, 0x23, 0xC3, 0x18, 0x96, 0x05, 0x9A, 0x07, 0x12, 0x80, 0xE2, 0xEB, 0x27, 0xB2, 0x75]
  ++ [0x09, 0x83, 0x2C, 0x1A, 0x1B, 0x6E, 0x5A, 0xA0, 0x52, 0x3B, 0xD6, 0xB3, 0x29, 0xE3, 0x2F, 0x84]
  ++ [0x53, 0xD1, 0x00, 0xED, 0x20, 0xFC, 0xB1, 0x5B, 0x6A, 0xCB, 0xBE, 0x39, 0x4A, 0x4C, 0x58, 0xCF]
  ++ [0xD0, 0xEF, 0xAA, 0xFB, 0x43, 0x4D, 0x33, 0x85, 0x45, 0xF9, 0x02, 0x7F, 0x50, 0x3C, 0x9F, 0xA8]
  ++ [0x51, 0xA3, 0x40, 0x8F, 0x92, 0x9D, 0x38, 0xF5, 0xBC, 0xB6, 0xDA, 0x21, 0x10, 0xFF, 0xF3, 0xD2]
  ++ [0xCD, 0x0C, 0x13, 0xEC, 0x5F, 0x97, 0x44, 0x17, 0xC4, 0xA7, 0x7E, 0x3D, 0x64, 0x5D, 0x19, 0x73]
  ++ [0x60, 0x81, 0x4F, 0xDC, 0x22, 0x2A, 0x90, 0x88, 0x46, 0xEE, 0xB8, 0x14, 0xDE, 0x5E, 0x0B, 0xDB]
  ++ [0xE0, 0x32, 0x3A, 0x0A, 0x49, 0x06, 0x24, 0x5C, 0xC2, 0xD3, 0xAC, 0x62, 0x91, 0x95, 0xE4, 0x79]
  ++ [0xE7, 0xC8, 0x37, 0x6D, 0x8D, 0xD5, 0x4E, 0xA9, 0x6C, 0x56, 0xF4, 0xEA, 0x65, 0x7A, 0xAE, 0x08]
  ++ [0xBA, 0x78, 0x25, 0x2E, 0x1C, 0xA6, 0xB4, 0xC6, 0xE8, 0xDD, 0x74, 0x1F, 0x4B, 0xBD, 0x8B, 0x8A]
  ++ [0x70, 0x3E, 0xB5, 0x66, 0x48, 0x03, 0xF6, 0x0E, 0x61, 0x35, 0x57, 0xB9, 0x86, 0xC1, 0x1D, 0x9E]
  ++ [0xE1, 0xF8, 0x98, 0x11, 0x69, 0xD9, 0x8E, 0x94, 0x9B, 0x1E, 0x87, 0xE9, 0xCE, 0x55, 0x28, 0xDF]
  ++ [0x8C, 0xA1, 0x89, 0x0D, 0xBF, 0xE6, 0x42, 0x68, 0x41, 0x99, 0x2D, 0x0F, 0xB0, 0x54, 0xBB, 0x16]

/-- Its inverse. -/
def aesInvSbox : List Octet :=
  [0x52, 0x09, 0x6A, 0xD5, 0x30, 0x36, 0xA5, 0x38, 0xBF, 0x40, 0xA3, 0x9E, 0x81, 0xF3, 0xD7, 0xFB]
  ++ [0x7C, 0xE3, 0x39, 0x82, 0x9B, 0x2F, 0xFF, 0x87, 0x34, 0x8E, 0x43, 0x44, 0xC4, 0xDE, 0xE9, 0xCB]
  ++ [0x54, 0x7B, 0x94, 0x32, 0xA6, 0xC2, 0x23, 0x3D, 0xEE, 0x4C, 0x95, 0x0B, 0x42, 0xFA, 0xC3, 0x4E]
  ++ [0x08, 0x2E, 0xA1, 0x66, 0x28, 0xD9, 0x24, 0xB2, 0x76, 0x5B, 0xA2, 0x49, 0x6D, 0x8B, 0xD1, 0x25]
  ++ [0x72, 0xF8, 0xF6, 0x64, 0x86, 0x68, 0x98, 0x16, 0xD4, 0xA4, 0x5C, 0xCC, 0x5D, 0x65, 0xB6, 0x92]
  ++ [0x6C, 0x70, 0x48, 0x50, 0xFD, 0xED, 0xB9, 0xDA, 0x5E, 0x15, 0x46, 0x57, 0xA7, 0x8D, 0x9D, 0x84]
  ++ [0x90, 0xD8, 0xAB, 0x00, 0x8C, 0xBC, 0xD3, 0x0A, 0xF7, 0xE4, 0x58, 0x05, 0xB8, 0xB3, 0x45, 0x06]
  ++ [0xD0, 0x2C, 0x1E, 0x8F, 0xCA, 0x3F, 0x0F, 0x02, 0xC1, 0xAF, 0xBD, 0x03, 0x01, 0x13, 0x8A, 0x6B]
  ++ [0x3A, 0x91, 0x11, 0x41, 0x4F, 0x67, 0xDC, 0xEA, 0x97, 0xF2, 0xCF, 0xCE, 0xF0, 0xB4, 0xE6, 0x73]
  ++ [0x96, 0xAC, 0x74, 0x22, 0xE7, 0xAD, 0x35, 0x85, 0xE2, 0xF9, 0x37, 0xE8, 0x1C, 0x75, 0xDF, 0x6E]
  ++ [0x47, 0xF1, 0x1A, 0x71, 0x1D, 0x29, 0xC5, 0x89, 0x6F, 0xB7, 0x62, 0x0E, 0xAA, 0x18, 0xBE, 0x1B]
  ++ [0xFC, 0x56, 0x3E, 0x4B, 0xC6, 0xD2, 0x79, 0x20, 0x9A, 0xDB, 0xC0, 0xFE, 0x78, 0xCD, 0x5A, 0xF4]
  ++ [0x1F, 0xDD, 0xA8, 0x33, 0x88, 0x07, 0xC7, 0x31, 0xB1, 0x12, 0x10, 0x59, 0x27, 0x80, 0xEC, 0x5F]
  ++ [0x60, 0x51, 0x7F, 0xA9, 0x19, 0xB5, 0x4A, 0x0D, 0x2D, 0xE5, 0x7A, 0x9F, 0x93, 0xC9, 0x9C, 0xEF]
  ++ [0xA0, 0xE0, 0x3B, 0x4D, 0xAE, 0x2A, 0xF5, 0xB0, 0xC8, 0xEB, 0xBB, 0x3C, 0x83, 0x53, 0x99, 0x61]
  ++ [0x17, 0x2B, 0x04, 0x7E, 0xBA, 0x77, 0xD6, 0x26, 0xE1, 0x69, 0x14, 0x63, 0x55, 0x21, 0x0C, 0x7D]

/-- Substitution of an octet. -/
def aesSub (o : Octet) : Octet := aesSbox.getD o.toNat 0

/-- The inverse substitution. -/
def aesInvSub (o : Octet) : Octet := aesInvSbox.getD o.toNat 0

/-- Multiplication by x in GF(2^8). -/
def aesXtime (o : Octet) : Octet := (o <<< 1) ^^^ (if o.msb then 0x1B else 0)

/-- Multiplication of an octet by a small constant. -/
def aesMul (k : Nat) (o : Octet) : Octet :=
  let x2 := aesXtime o
  let x4 := aesXtime x2
  let x8 := aesXtime x4
  (if k % 2 = 1 then o else 0) ^^^ (if k / 2 % 2 = 1 then x2 else 0)
    ^^^ (if k / 4 % 2 = 1 then x4 else 0) ^^^ (if k / 8 % 2 = 1 then x8 else 0)

/-- The next 4-octet word of the key schedule; ws holds the words newest first, i is the new word's index. -/
def aesKeyNext (nk : Nat) (ws : List (List Octet)) (i : Nat) (rcon : Octet) : List Octet :=
  let prev := ws.headD []
  let t :=
    if i % nk = 0 then
      xorOctets ((prev.drop 1 ++ prev.take 1).map aesSub) [rcon, 0, 0, 0]
    else if nk = 8 ∧ i % nk = 4 then prev.map aesSub else prev
  xorOctets (ws.getD (nk - 1) []) t

/-- The key schedule, newest word first: count words more from index i on. -/
def aesExpand (nk : Nat) : Nat → Nat → Octet → List (List Octet) → List (List Octet)
  | 0, _, _, ws => ws
  | c + 1, i, rcon, ws =>
    aesExpand nk c (i + 1) (if i % nk = 0 then aesXtime rcon else rcon) (aesKeyNext nk ws i rcon :: ws)

/-- The round keys of 16 octets each, for a key of 16, 24 or 32 octets. -/
def aesRoundKeys (key : List Octet) : List (List Octet) :=
  let nk := key.length / 4
  let ws := (aesExpand nk (4 * (nk + 7) - nk) nk 1 (chunks 4 key).reverse).reverse
  chunks 16 ws.flatten

/-- ShiftRows as a choice of octets: output octet i takes input octet shiftFrom i. -/
def aesShift (st : List Octet) : List Octet :=
  (List.range 16).map fun i => st.getD ((i + 4 * (i % 4)) % 16) 0

/-- The inverse of ShiftRows. -/
def aesUnshift (st : List Octet) : List Octet :=
  (List.range 16).map fun i => st.getD ((i + 12 * (i % 4)) % 16) 0

/-- A column mixed with the coefficients k of the first row. -/
def aesMixCol (k : List Nat) (c : List Octet) : List Octet :=
  (List.range 4).map fun r =>
    (List.range 4).foldl (fun acc j => acc ^^^ aesMul (k.getD ((j + 4 - r) % 4) 0) (c.getD j 0)) 0

/-- MixColumns with the given coefficients. -/
def aesMix (k : List Nat) (st : List Octet) : List Octet := (chunks 4 st).flatMap (aesMixCol k)

/-- The encryption of a 16-octet block. -/
def aesEncrypt (key block : List Octet) : List Octet :=
  match aesRoundKeys key with
  | [] => block
  | k0 :: ks =>
    let mid := ks.dropLast.foldl
      (fun st k => xorOctets (aesMix [2, 3, 1, 1] (aesShift (st.map aesSub))) k) (xorOctets block k0)
    xorOctets (aesShift (mid.map aesSub)) (ks.getLastD [])

/-- The decryption of a 16-octet block. -/
def aesDecrypt (key block : List Octet) : List Octet :=
  match (aesRoundKeys key).reverse with
  | [] => block
  | k0 :: ks =>
    let mid := ks.dropLast.foldl
      (fun st k => aesMix [14, 11, 13, 9] (xorOctets ((aesUnshift st).map aesInvSub) k)) (xorOctets block k0)
    xorOctets ((aesUnshift mid).map aesInvSub) (ks.getLastD [])

/-- ECB with any block function. -/
def ecb (f : List Octet → List Octet) (k : Nat) (data : List Octet) : List Octet := (chunks k data).flatMap f

/-- CBC encryption: the output so far and the chaining block. -/
def cbcEnc (f : List Octet → List Octet) (k : Nat) (iv data : List Octet) : List Octet :=
  ((chunks k data).foldl (fun (acc : List Octet × List Octet) b =>
    let c := f (xorOctets b acc.2)
    (acc.1 ++ c, c)) ([], iv)).1

/-- CBC decryption. -/
def cbcDec (f : List Octet → List Octet) (k : Nat) (iv data : List Octet) : List Octet :=
  ((chunks k data).foldl (fun (acc : List Octet × List Octet) b =>
    (acc.1 ++ xorOctets (f b) acc.2, b)) ([], iv)).1

/-- Counter mode with a 128-bit counter increment (12 R385). -/
def aesCtr (key iv data : List Octet) : List Octet :=
  let n0 := beNat iv
  let ks := (List.range ((data.length + 15) / 16)).flatMap fun i => aesEncrypt key (beOctets 16 (n0 + i))
  xorOctets data ks

/-- CMAC with any block function of k octets; rb is the reduction constant. -/
def cmac (f : List Octet → List Octet) (k rb : Nat) (data : List Octet) : List Octet :=
  let m := 2 ^ (8 * k)
  let dbl := fun v : Nat => if 2 * v < m then 2 * v else (2 * v - m) ^^^ rb
  let k1 := dbl (beNat (f (List.replicate k 0)))
  let bs := chunks k data
  let last := bs.getLastD []
  let full := decide (last.length = k)
  let lastB := if full then xorOctets last (beOctets k k1)
    else xorOctets (last ++ [0x80] ++ List.replicate (k - last.length - 1) 0) (beOctets k (dbl k1))
  f (xorOctets (bs.dropLast.foldl (fun c b => f (xorOctets c b)) (List.replicate k 0)) lastB)

/-- Multiplication in the field of GCM; the most significant bit is the coefficient of 1. -/
def gcmMul (x y : Nat) : Nat :=
  ((List.range 128).foldl (fun (acc : Nat × Nat) i =>
    (if x.testBit (127 - i) then acc.1 ^^^ acc.2 else acc.1,
     if acc.2 % 2 = 1 then acc.2 / 2 ^^^ 0xE1000000000000000000000000000000 else acc.2 / 2)) (0, y)).1

/-- The list padded with zero octets to whole 16-octet blocks. -/
def pad16 (xs : List Octet) : List Octet := xs ++ List.replicate ((16 - xs.length % 16) % 16) 0

/-- The GCM tag of 16 octets for a 12-octet IV. -/
def gcmTag (key iv aad ct : List Octet) : List Octet :=
  let h := beNat (aesEncrypt key (List.replicate 16 0))
  let bs := chunks 16 (pad16 aad ++ pad16 ct ++ beOctets 8 (8 * aad.length) ++ beOctets 8 (8 * ct.length))
  let g := bs.foldl (fun a b => gcmMul (a ^^^ beNat b) h) 0
  xorOctets (beOctets 16 g) (aesEncrypt key (iv ++ [0, 0, 0, 1]))

/-- The GCM keystream applied to data: a 32-bit counter from 2. -/
def gcmCrypt (key iv data : List Octet) : List Octet :=
  let ks := (List.range ((data.length + 15) / 16)).flatMap fun i => aesEncrypt key (iv ++ beOctets 4 (i + 2))
  xorOctets data ks

/-- The wrapping rounds of SP 800-38F: t from 1 to 6n, over the semiblock A and the list R. -/
def kwRounds (key : List Octet) : List Nat → List Octet × List (List Octet) → List Octet × List (List Octet)
  | [], s => s
  | t :: ts, (a, r) =>
    let b := aesEncrypt key (a ++ r.headD [])
    kwRounds key ts (xorOctets (b.take 8) (beOctets 8 t), r.drop 1 ++ [b.drop 8])

/-- The unwrapping rounds: t from 6n down to 1. -/
def kuRounds (key : List Octet) : List Nat → List Octet × List (List Octet) → List Octet × List (List Octet)
  | [], s => s
  | t :: ts, (a, r) =>
    let b := aesDecrypt key (xorOctets a (beOctets 8 t) ++ r.getLastD [])
    kuRounds key ts (b.take 8, b.drop 8 :: r.dropLast)

/-- AES-KWP wrap (12 R390). -/
def kwpWrap (key data : List Octet) : List Octet :=
  let a := [0xA6, 0x59, 0x59, 0xA6] ++ beOctets 4 data.length
  let p := data ++ List.replicate ((8 - data.length % 8) % 8) 0
  if p.length = 8 then aesEncrypt key (a ++ p)
  else
    let r := chunks 8 p
    let o := kwRounds key ((List.range (6 * r.length)).map (· + 1)) (a, r)
    o.1 ++ o.2.flatten

/-- AES-KWP unwrap; none when the integrity check fails. -/
def kwpUnwrap (key ct : List Octet) : Option (List Octet) :=
  if ct.length % 8 ≠ 0 ∨ ct.length < 16 then none
  else
    let r := chunks 8 (ct.drop 8)
    let o := if ct.length = 16 then
        let b := aesDecrypt key ct
        (b.take 8, [b.drop 8])
      else kuRounds key ((List.range (6 * r.length)).map (· + 1)).reverse (ct.take 8, r)
    let p := o.2.flatten
    let n := beNat (o.1.drop 4)
    if o.1.take 4 = [0xA6, 0x59, 0x59, 0xA6] ∧ n ≤ p.length ∧ p.length < n + 8
        ∧ (p.drop n).all (· == 0) then some (p.take n) else none

end Sys2Proof.Machine
end

