-- ==== Sys2Proof/Machine/CryptoDes.lean ====
section
/-! DEFINITION. DES and the triple DES of 12 R385 (TDES), with two or three keys. PRESUMED from the standard, log 10. -/

namespace Sys2Proof.Machine

/-- Initial permutation of DES (FIPS 46-3); bit 1 is the most significant. -/
def desIP : List Nat :=
  [58, 50, 42, 34, 26, 18, 10, 2, 60, 52, 44, 36, 28, 20, 12, 4]
  ++ [62, 54, 46, 38, 30, 22, 14, 6, 64, 56, 48, 40, 32, 24, 16, 8]
  ++ [57, 49, 41, 33, 25, 17, 9, 1, 59, 51, 43, 35, 27, 19, 11, 3]
  ++ [61, 53, 45, 37, 29, 21, 13, 5, 63, 55, 47, 39, 31, 23, 15, 7]

/-- Final permutation. -/
def desFP : List Nat :=
  [40, 8, 48, 16, 56, 24, 64, 32, 39, 7, 47, 15, 55, 23, 63, 31]
  ++ [38, 6, 46, 14, 54, 22, 62, 30, 37, 5, 45, 13, 53, 21, 61, 29]
  ++ [36, 4, 44, 12, 52, 20, 60, 28, 35, 3, 43, 11, 51, 19, 59, 27]
  ++ [34, 2, 42, 10, 50, 18, 58, 26, 33, 1, 41, 9, 49, 17, 57, 25]

/-- Expansion. -/
def desE : List Nat :=
  [32, 1, 2, 3, 4, 5, 4, 5, 6, 7, 8, 9, 8, 9, 10, 11]
  ++ [12, 13, 12, 13, 14, 15, 16, 17, 16, 17, 18, 19, 20, 21, 20, 21]
  ++ [22, 23, 24, 25, 24, 25, 26, 27, 28, 29, 28, 29, 30, 31, 32, 1]

/-- Permutation of the round function. -/
def desP : List Nat :=
  [16, 7, 20, 21, 29, 12, 28, 17, 1, 15, 23, 26, 5, 18, 31, 10]
  ++ [2, 8, 24, 14, 32, 27, 3, 9, 19, 13, 30, 6, 22, 11, 4, 25]

/-- Permuted choice 1. -/
def desPC1 : List Nat :=
  [57, 49, 41, 33, 25, 17, 9, 1, 58, 50, 42, 34, 26, 18, 10, 2]
  ++ [59, 51, 43, 35, 27, 19, 11, 3, 60, 52, 44, 36, 63, 55, 47, 39]
  ++ [31, 23, 15, 7, 62, 54, 46, 38, 30, 22, 14, 6, 61, 53, 45, 37]
  ++ [29, 21, 13, 5, 28, 20, 12, 4]

/-- Permuted choice 2. -/
def desPC2 : List Nat :=
  [14, 17, 11, 24, 1, 5, 3, 28, 15, 6, 21, 10, 23, 19, 12, 4]
  ++ [26, 8, 16, 7, 27, 20, 13, 2, 41, 52, 31, 37, 47, 55, 30, 40]
  ++ [51, 45, 33, 48, 44, 49, 39, 56, 34, 53, 46, 42, 50, 36, 29, 32]

/-- Substitution box 1, row by row. -/
def desS1 : List Nat :=
  [14, 4, 13, 1, 2, 15, 11, 8, 3, 10, 6, 12, 5, 9, 0, 7]
  ++ [0, 15, 7, 4, 14, 2, 13, 1, 10, 6, 12, 11, 9, 5, 3, 8]
  ++ [4, 1, 14, 8, 13, 6, 2, 11, 15, 12, 9, 7, 3, 10, 5, 0]
  ++ [15, 12, 8, 2, 4, 9, 1, 7, 5, 11, 3, 14, 10, 0, 6, 13]

/-- Substitution box 2, row by row. -/
def desS2 : List Nat :=
  [15, 1, 8, 14, 6, 11, 3, 4, 9, 7, 2, 13, 12, 0, 5, 10]
  ++ [3, 13, 4, 7, 15, 2, 8, 14, 12, 0, 1, 10, 6, 9, 11, 5]
  ++ [0, 14, 7, 11, 10, 4, 13, 1, 5, 8, 12, 6, 9, 3, 2, 15]
  ++ [13, 8, 10, 1, 3, 15, 4, 2, 11, 6, 7, 12, 0, 5, 14, 9]

/-- Substitution box 3, row by row. -/
def desS3 : List Nat :=
  [10, 0, 9, 14, 6, 3, 15, 5, 1, 13, 12, 7, 11, 4, 2, 8]
  ++ [13, 7, 0, 9, 3, 4, 6, 10, 2, 8, 5, 14, 12, 11, 15, 1]
  ++ [13, 6, 4, 9, 8, 15, 3, 0, 11, 1, 2, 12, 5, 10, 14, 7]
  ++ [1, 10, 13, 0, 6, 9, 8, 7, 4, 15, 14, 3, 11, 5, 2, 12]

/-- Substitution box 4, row by row. -/
def desS4 : List Nat :=
  [7, 13, 14, 3, 0, 6, 9, 10, 1, 2, 8, 5, 11, 12, 4, 15]
  ++ [13, 8, 11, 5, 6, 15, 0, 3, 4, 7, 2, 12, 1, 10, 14, 9]
  ++ [10, 6, 9, 0, 12, 11, 7, 13, 15, 1, 3, 14, 5, 2, 8, 4]
  ++ [3, 15, 0, 6, 10, 1, 13, 8, 9, 4, 5, 11, 12, 7, 2, 14]

/-- Substitution box 5, row by row. -/
def desS5 : List Nat :=
  [2, 12, 4, 1, 7, 10, 11, 6, 8, 5, 3, 15, 13, 0, 14, 9]
  ++ [14, 11, 2, 12, 4, 7, 13, 1, 5, 0, 15, 10, 3, 9, 8, 6]
  ++ [4, 2, 1, 11, 10, 13, 7, 8, 15, 9, 12, 5, 6, 3, 0, 14]
  ++ [11, 8, 12, 7, 1, 14, 2, 13, 6, 15, 0, 9, 10, 4, 5, 3]

/-- Substitution box 6, row by row. -/
def desS6 : List Nat :=
  [12, 1, 10, 15, 9, 2, 6, 8, 0, 13, 3, 4, 14, 7, 5, 11]
  ++ [10, 15, 4, 2, 7, 12, 9, 5, 6, 1, 13, 14, 0, 11, 3, 8]
  ++ [9, 14, 15, 5, 2, 8, 12, 3, 7, 0, 4, 10, 1, 13, 11, 6]
  ++ [4, 3, 2, 12, 9, 5, 15, 10, 11, 14, 1, 7, 6, 0, 8, 13]

/-- Substitution box 7, row by row. -/
def desS7 : List Nat :=
  [4, 11, 2, 14, 15, 0, 8, 13, 3, 12, 9, 7, 5, 10, 6, 1]
  ++ [13, 0, 11, 7, 4, 9, 1, 10, 14, 3, 5, 12, 2, 15, 8, 6]
  ++ [1, 4, 11, 13, 12, 3, 7, 14, 10, 15, 6, 8, 0, 5, 9, 2]
  ++ [6, 11, 13, 8, 1, 4, 10, 7, 9, 5, 0, 15, 14, 2, 3, 12]

/-- Substitution box 8, row by row. -/
def desS8 : List Nat :=
  [13, 2, 8, 4, 6, 15, 11, 1, 10, 9, 3, 14, 5, 0, 12, 7]
  ++ [1, 15, 13, 8, 10, 3, 7, 4, 12, 5, 6, 11, 0, 14, 9, 2]
  ++ [7, 11, 4, 1, 9, 12, 14, 2, 0, 6, 10, 13, 15, 3, 5, 8]
  ++ [2, 1, 14, 7, 4, 10, 8, 13, 15, 12, 9, 0, 3, 5, 6, 11]

/-- A choice of bits of a value of width n; position 1 is the most significant. -/
def desPick (n : Nat) (t : List Nat) (v : Nat) : Nat :=
  t.foldl (fun acc p => 2 * acc + (v / 2 ^ (n - p)) % 2) 0

/-- The substitution boxes applied to 48 bits. -/
def desSubst (v : Nat) : Nat :=
  (List.range 8).foldl (fun acc i =>
    let x := v / 2 ^ (42 - 6 * i) % 64
    let k := (x / 32 * 2 + x % 2) * 16 + x / 2 % 16
    let t := [desS1, desS2, desS3, desS4, desS5, desS6, desS7, desS8].getD i []
    16 * acc + t.getD k 0) 0

/-- The sixteen round keys of a 64-bit key. -/
def desKeys (key : Nat) : List Nat :=
  let cd := desPick 64 desPC1 key
  let rot := fun (v n : Nat) => (2 ^ n * v + v / 2 ^ (28 - n)) % 2 ^ 28
  let totals := [1, 2, 4, 6, 8, 10, 12, 14, 15, 17, 19, 21, 23, 25, 27, 28]
  totals.map fun n => desPick 56 desPC2 (2 ^ 28 * rot (cd / 2 ^ 28) n + rot (cd % 2 ^ 28) n)

/-- One Feistel round. -/
def desRound (lr : Nat × Nat) (k : Nat) : Nat × Nat :=
  (lr.2, lr.1 ^^^ desPick 32 desP (desSubst (desPick 32 desE lr.2 ^^^ k)))

/-- DES with round keys in the order of use. -/
def desBlock (keys : List Nat) (v : Nat) : Nat :=
  let x := desPick 64 desIP v
  let y := keys.foldl desRound (x / 2 ^ 32, x % 2 ^ 32)
  desPick 64 desFP (2 ^ 32 * y.2 + y.1)

/-- The three single keys of a TDES key of 16 or 24 octets. -/
def tdesKeys (key : List Octet) : List Nat :=
  let ks := (chunks 8 key).map beNat
  [ks.getD 0 0, ks.getD 1 0, if ks.length < 3 then ks.getD 0 0 else ks.getD 2 0]

/-- TDES encryption of 8 octets: encrypt, decrypt, encrypt. -/
def tdesEncrypt (key block : List Octet) : List Octet :=
  match tdesKeys key with
  | [a, b, c] => beOctets 8 (desBlock (desKeys c) (desBlock (desKeys b).reverse (desBlock (desKeys a) (beNat block))))
  | _ => block

/-- TDES decryption of 8 octets. -/
def tdesDecrypt (key block : List Octet) : List Octet :=
  match tdesKeys key with
  | [a, b, c] =>
    beOctets 8 (desBlock (desKeys a).reverse (desBlock (desKeys b) (desBlock (desKeys c).reverse (beNat block))))
  | _ => block

end Sys2Proof.Machine
end

