-- ==== Sys2Proof/Machine/CryptoMisc.lean ====
section
/-! DEFINITION. Check values (13 R416 to R418), SipHash-2-4 (09 R305), the AES DUKPT derivation and the PIN blocks of
12 R386 and R387 (ANSI X9.24-3, ISO 9564). PRESUMED from the standards where the spec only names them, log 10. -/

namespace Sys2Proof.Machine

/-- The parameters of a check value (13 R416, R418). -/
structure CrcAlg where
  width  : Nat
  poly   : Nat
  init   : Nat
  refIn  : Bool
  refOut : Bool
  xorOut : Nat

/-- The low n bits of v in reverse order. -/
def reflect (n v : Nat) : Nat :=
  (List.range n).foldl (fun acc i => 2 * acc + v / 2 ^ i % 2) 0

/-- One bit into the register. -/
def crcBit (a : CrcAlg) (reg b : Nat) : Nat :=
  let top := (reg / 2 ^ (a.width - 1) + b) % 2
  let sh := reg * 2 % 2 ^ a.width
  if top = 1 then sh ^^^ a.poly % 2 ^ a.width else sh

/-- One octet into the register. -/
def crcOctet (a : CrcAlg) (reg : Nat) (o : Octet) : Nat :=
  let v := if a.refIn then reflect 8 o.toNat else o.toNat
  (List.range 8).foldl (fun r i => crcBit a r (v / 2 ^ (7 - i) % 2)) reg

/-- Octets into the register. -/
def crcUpdate (a : CrcAlg) (reg : Nat) (os : List Octet) : Nat := os.foldl (crcOctet a) reg

/-- The check value of a register. -/
def crcFinish (a : CrcAlg) (reg : Nat) : Nat :=
  (if a.refOut then reflect a.width reg else reg) ^^^ a.xorOut % 2 ^ a.width

/-- The check value of octets. -/
def crc (a : CrcAlg) (os : List Octet) : Nat := crcFinish a (crcUpdate a (a.init % 2 ^ a.width) os)

/-- CRC-32 (IEEE 802.3), R416. -/
def crc32 : CrcAlg := ⟨32, 0x04C11DB7, 0xFFFFFFFF, true, true, 0xFFFFFFFF⟩
/-- CRC-32C, R293 and R416. -/
def crc32c : CrcAlg := ⟨32, 0x1EDC6F41, 0xFFFFFFFF, true, true, 0xFFFFFFFF⟩
/-- CRC-16, R416. -/
def crc16 : CrcAlg := ⟨16, 0x1021, 0xFFFF, false, false, 0⟩

/-- A number from octets, the first least significant. -/
def leNat (os : List Octet) : Nat := beNat os.reverse

/-- One SipRound. -/
def sipRound (v : List (BitVec 64)) : List (BitVec 64) :=
  match v with
  | [v0, v1, v2, v3] =>
    let a0 := v0 + v1
    let a1 := v1.rotateLeft 13 ^^^ a0
    let a0 := a0.rotateLeft 32
    let a2 := v2 + v3
    let a3 := v3.rotateLeft 16 ^^^ a2
    let a0 := a0 + a3
    let a3 := a3.rotateLeft 21 ^^^ a0
    let a2 := a2 + a1
    let a1 := a1.rotateLeft 17 ^^^ a2
    [a0, a1, a2.rotateLeft 32, a3]
  | _ => v

/-- A message word absorbed with two rounds. -/
def sipAbsorb (v : List (BitVec 64)) (m : BitVec 64) : List (BitVec 64) :=
  match sipRound (sipRound (xor3 v m)) with
  | v0 :: r => (v0 ^^^ m) :: r
  | [] => []
where
  /-- v3 with the message word. -/
  xor3 (v : List (BitVec 64)) (m : BitVec 64) : List (BitVec 64) :=
    match v with
    | [v0, v1, v2, v3] => [v0, v1, v2, v3 ^^^ m]
    | _ => v

/-- SipHash-2-4 of octets under a 16-octet key. -/
def sipHash (key os : List Octet) : BitVec 64 :=
  let k0 := BitVec.ofNat 64 (leNat (key.take 8))
  let k1 := BitVec.ofNat 64 (leNat (key.drop 8))
  let v := [k0 ^^^ 0x736f6d6570736575, k1 ^^^ 0x646f72616e646f6d, k0 ^^^ 0x6c7967656e657261, k1 ^^^ 0x7465646279746573]
  let full := os.length / 8
  let lastW := leNat (os.drop (8 * full)) + 2 ^ 56 * (os.length % 256)
  let ms := ((chunks 8 (os.take (8 * full))).map leNat ++ [lastW]).map (BitVec.ofNat 64)
  match ms.foldl sipAbsorb v with
  | [v0, v1, v2, v3] =>
    (sipRound (sipRound (sipRound (sipRound [v0, v1, v2 ^^^ 0xff, v3])))).foldl (· ^^^ ·) 0
  | _ => 0

/-- The algorithm and length fields of X9.24-3 derivation data, for an AES key of len octets. -/
def dukptType (len : Nat) : List Octet :=
  if len = 16 then [0, 2, 0, 0x80] else if len = 24 then [0, 3, 0, 0xC0] else [0, 4, 1, 0]

/-- A key of len octets derived for a usage, from the last 8 octets of the derivation data. -/
def dukptDerive (key : List Octet) (usage : List Octet) (len : Nat) (tail : List Octet) : List Octet :=
  ((List.range 2).flatMap fun i =>
    aesEncrypt key ([1, BitVec.ofNat 8 (i + 1)] ++ usage ++ dukptType len ++ tail)).take len

/-- The initial key of a BDK for an initial key ID. -/
def dukptInitial (bdk ikid : List Octet) : List Octet := dukptDerive bdk [0x80, 0x01] bdk.length ikid

/-- The derivation key for a transaction counter: one derivation for each set bit, the highest first. -/
def dukptChain (ik ikid : List Octet) (ctr : Nat) : List Octet :=
  ((List.range 32).foldl (fun (acc : List Octet × Nat) i =>
    let m := 2 ^ (31 - i)
    if ctr / m % 2 = 1 then
      let c := acc.2 + m
      (dukptDerive acc.1 [0x80, 0x00] ik.length (ikid.drop 4 ++ beOctets 4 c), c)
    else acc) (ik, 0)).1

/-- The working key for a usage: AES-128 from an AES-128 initial key, AES-256 otherwise (12 R387). -/
def dukptWorking (ik ikid : List Octet) (ctr : Nat) (usage : List Octet) : List Octet :=
  dukptDerive (dukptChain ik ikid ctr) usage (if ik.length = 16 then 16 else 32) (ikid.drop 4 ++ beOctets 4 ctr)

/-- The nibbles of octets, the high one first. -/
def nibbles (os : List Octet) : List Nat := os.flatMap fun o => [o.toNat / 16, o.toNat % 16]

/-- Octets of nibbles. -/
def unnibbles (ns : List Nat) : List Octet :=
  (chunks 2 ns).map fun p => BitVec.ofNat 8 (p.headD 0 * 16 + p.getD 1 0)

/-- The PAN field of formats 0 and 3: the rightmost 12 digits without the check digit. -/
def panField (pan : List Nat) : List Octet :=
  let ds := pan.dropLast
  unnibbles (List.replicate (16 - (ds.drop (ds.length - 12)).length) 0 ++ ds.drop (ds.length - 12))

/-- The PAN field of format 4. -/
def panField4 (pan : List Nat) : List Octet :=
  unnibbles ((pan.length - 12) :: pan ++ List.replicate (31 - pan.length) 0)

/-- The clear PIN of a plain field: the format nibble, a length of 4 to 12, decimal digits, and the fill. -/
def pinOfField (fmt : Nat) (fill : Nat → Bool) (ns : List Nat) : Option (List Nat) :=
  let n := ns.getD 1 0
  let ds := (ns.drop 2).take n
  if ns.getD 0 16 = fmt ∧ 4 ≤ n ∧ n ≤ 12 ∧ ds.all (· ≤ 9) ∧ ((ns.take 16).drop (2 + n)).all fill
  then some ds else none

/-- The clear PIN of an encrypted block under a key, in a format with the PAN (12 R386); none where a check fails. -/
def pinOpen (fmt : Nat) (key block : List Octet) (pan : List Nat) : Option (List Nat) :=
  if fmt = 0 then pinOfField 0 (· == 15) (nibbles (xorOctets (tdesDecrypt key block) (panField pan)))
  else if fmt = 1 then pinOfField 1 (fun _ => true) (nibbles (tdesDecrypt key block))
  else if fmt = 3 then
    pinOfField 3 (fun x => decide (10 ≤ x)) (nibbles (xorOctets (tdesDecrypt key block) (panField pan)))
  else
    pinOfField 4 (· == 10) (nibbles (aesDecrypt key (xorOctets (aesDecrypt key block) (panField4 pan))))

/-- An encrypted block of a PIN in a format, with random octets where the format asks for them (12 R386). -/
def pinSeal (fmt : Nat) (key : List Octet) (pin pan : List Nat) (rand : List Octet) : List Octet :=
  let head := fmt :: pin.length :: pin
  let rn := nibbles rand
  if fmt = 0 then
    tdesEncrypt key (xorOctets (unnibbles (head ++ List.replicate (14 - pin.length) 15)) (panField pan))
  else if fmt = 1 then tdesEncrypt key (unnibbles (head ++ rn.take (14 - pin.length)))
  else if fmt = 3 then
    tdesEncrypt key (xorOctets (unnibbles (head ++ (rn.take (14 - pin.length)).map fun x => 10 + x % 6)) (panField pan))
  else
    let f := unnibbles (head ++ List.replicate (14 - pin.length) 10) ++ rand.take 8
    aesEncrypt key (xorOctets (aesEncrypt key f) (panField4 pan))

end Sys2Proof.Machine
end

