-- ==== Sys2Proof/Machine/Events.lean ====
section
/-! DEFINITION. Irrix frames that leave the device and the event log (17 R473, R475, R482, R483, R492). -/

namespace Sys2Proof.Machine

/-- The class of a transport, for sessions: both field ports are one (17 R481). -/
def trClassOf : Transport → Nat
  | .fieldPort _ => 0
  | .window => 1
  | .udp _ => 2
  | .mailbox _ => 3

/-- The 29-bit identifier (R473). -/
def identOf (fn node mgr seq : Nat) : Nat := 2 ^ 24 * fn + 2 ^ 17 * (node % 128) + 2 ^ 9 * (mgr % 256) + seq % 512

/-- 54 octets of a frame: control, index, sub-index, type, length, value, zeros (R475). -/
def frameBody (control index sub ty : Nat) (value : List Octet) : List Octet :=
  ([BitVec.ofNat 8 control] ++ beOctets 2 index ++ [BitVec.ofNat 8 sub, BitVec.ofNat 8 ty, BitVec.ofNat 8 value.length]
    ++ value ++ List.replicate 48 0).take 54

/-- The tag of R482: the first 8 octets of HMAC-SHA-256 over identifier, counter and octets 0 to 55. -/
def frameTag (key : List Octet) (ident ctr : Nat) (octets : List Octet) : List Octet :=
  (hmac .sha256 key (beOctets 4 ident ++ beOctets 4 ctr ++ octets.take 56)).take 8

/-- A tagged frame: the body, the low 16 bits of the counter, the tag. -/
def tagFrame (key : List Octet) (ident ctr : Nat) (body : List Octet) : List Octet :=
  let os := body.take 54 ++ beOctets 2 (ctr % 65536)
  os ++ frameTag key ident ctr os

/-- An untagged frame: the tag octets are zero (R475, R477). -/
def plainFrame (body : List Octet) : List Octet := body.take 54 ++ List.replicate 10 0

/-- The free response slots are spent when RSP_TAIL is one short of RSP_HEAD, positions modulo 16 (R483). DEDUCED, log 22. -/
def windowFull (i : Irrix) : Bool := (i.rspTail + 1) % 16 == i.rspHead % 16

/-- An octet of the MSI-X table (19 R538): 16 octets a vector, octet 12 with the mask bit, which reset sets. PRESUMED,
log 106. -/
def msixOctet (p : Pins) (o : Nat) : Octet := smGet (if o % 16 = 12 then 1 else 0) p.msixTable o

/-- Is an MSI-X vector masked? -/
def msixMasked (p : Pins) (v : Nat) : Bool := (msixOctet p (16 * v + 12)).toNat % 2 == 1

/-- Signals an MSI-X vector (19 R537): 0 dictionary window, 1 ERR_N assertion, 2 change of PADDLE. A masked one is pending
until the host unmasks it (R538). Nothing is signalled while the link is down (R539) or the endpoint is off (16 R471). -/
def signalHost (s : State) (v : Nat) : State :=
  if s.pins.pcieUp && !dark s.power then
    { s with pins := if msixMasked s.pins v then { s.pins with msixPend := smSet false s.pins.msixPend v true }
                     else { s.pins with msix := v :: s.pins.msix } }
  else s

/-- The octet of slot k of a packed-octet word (00 R5). -/
def slotOctet (w : Word) (k : Nat) : Octet := BitVec.ofNat 8 (bits w (9 * k + 7) (9 * k))

/-- The octets of packed-octet words, whatever their presence bits. -/
def allOctets (ws : List Word) : List Octet := ws.flatMap fun w => (List.range 4).map (slotOctet w)

/-- SERIAL (18 R494), fuse words 47 to 52 octal. -/
def serialOctets (s : State) : List Octet := allOctets ((List.range 4).map fun i => smGet 0 s.boot.otp (0o47 + i))

/-- The station address of a port (19 R536). -/
def stationMac (s : State) (p : Nat) : List Octet :=
  [0x02, 0x4B] ++ (serialOctets s).drop 14 ++ beOctets 1 s.pins.node.toNat ++ beOctets 1 p

/-- A packed-octet word of up to four octets, presence bits set (00 R5, R6). -/
def packWord : List Octet → Word
  | os => (List.range (min os.length 4)).foldl (fun w k => w ||| field (9 * k) (256 + (os.getD k 0).toNat)) 0

/-- Is a field port silent: disabled (R487 0x1101, 19 R540), in bus-off (R472), or under a NODE_ID of 0 (19 R529)? -/
def portSilent (s : State) (fp : Nat) : Bool :=
  s.pins.node == 0 || s.power.offAll || smGet false s.irrix.busOff fp || entryValue s 0x1101 (fp + 1) [1] != [1]

/-- A frame record of the mailbox: the identifier little-endian, then the 64 octets, as packed-octet words (R483, R485). -/
def frameRecord (f : OutFrame) : List Word :=
  (chunks 4 ((beOctets 4 f.ident).reverse ++ f.octets)).map packWord

/-- A frame record of the dictionary window: 128 octets, the identifier least significant octet first (R483). -/
def windowRecord (ident : Nat) (octets : List Octet) : List Octet :=
  ((beOctets 4 ident).reverse ++ octets ++ List.replicate 124 0).take 128

/-- The mailbox shows an answer in its words 18 to 34 (R485). -/
def mailShow (i : Irrix) (f : OutFrame) : Irrix :=
  { i with mailbox := smSetList 0 i.mailbox 18 (frameRecord f), mailDone := true, mailTaken := false }

/-- The management address of a family, IPv4 or IPv6, and the UDP port of the mirror (R484, entry 0x1105). -/
def mirrorAddress (s : State) (ipv4 : Bool) : List Octet :=
  if ipv4 then entryValue s 0x1105 2 [0, 0, 0, 0] else entryValue s 0x1105 3 (List.replicate 16 0)
def mirrorPort (s : State) : List Octet := entryValue s 0x1105 4 (beOctets 2 47365)

/-- Where a datagram to a peer, an address and a port of 2 octets, leaves from (R484): the management address of its family. -/
def mirrorSource (s : State) (peer : List Octet) : List Octet := mirrorAddress s (peer.length == 6) ++ mirrorPort s

/-- The frame leaves by its transport. The dictionary window takes it in its next response slot, or holds it while they are
full (R483). A silent field port sends nothing; nor does an Ethernet port without a link. The mailbox shows it once the
answer before it has been read (R485). DESIGN CHOICE, log 105. The endpoint and the Ethernet ports send nothing while they are
off (16 R471). A datagram leaves from the management address and UDP port (R484). -/
def sendFrame (s : State) (event : Bool) (f : OutFrame) : State :=
  let i := s.irrix
  match f.transport with
  | .window =>
    if dark s.power then s
    else if windowFull i then
      { s with irrix := { i with held := i.held ++ [(event, s.time, beOctets 4 f.ident ++ f.octets)] } }
    else
      signalHost { s with irrix := { i with
        out := f :: i.out, window := smSetList 0 i.window (0x800 + 128 * (i.rspTail % 16)) (windowRecord f.ident f.octets),
        rspTail := (i.rspTail + 1) % 16 } } 0
  | .fieldPort fp => if portSilent s fp.val then s else { s with irrix := { i with out := f :: i.out } }
  | .udp p =>
    if (smGet {} s.eth.ports p.val).linkUp && !dark s.power then
      { s with irrix := { i with out := { f with mac := stationMac s p.val, src := mirrorSource s f.peer } :: i.out } } else s
  | .mailbox _ =>
    { s with irrix := if i.mailDone && !i.mailTaken then { i with mailOut := i.mailOut ++ [f] } else mailShow i f }

/-- The session of a manager on a transport (R481); the mailbox has one of its own (R486). -/
def findSession (s : State) (c mgr : Nat) : Option Session :=
  if c = 3 then some s.irrix.mail else s.irrix.sessions.find? fun x => x.trClass == c && x.mgr == mgr

/-- The state with the session of the same manager and transport replaced by x. -/
def putSession (s : State) (x : Session) : State :=
  if x.trClass = 3 then { s with irrix := { s.irrix with mail := x } }
  else
    let xs := s.irrix.sessions.map fun y => if y.trClass = x.trClass ∧ y.mgr = x.mgr then x else y
    { s with irrix := { s.irrix with sessions := xs } }

/-- The next tagged frame of a session; its counter rises by one first (R482). DEDUCED, log 22. -/
def taggedFrame (x : Session) (tr : Transport) (ident : Nat) (body : List Octet) : OutFrame :=
  { transport := tr, peer := x.peer, ident := ident, octets := tagFrame x.key ident (x.txCount + 1) body }

/-- Sends a tagged frame of a session (R482). -/
def sendTagged (s : State) (x : Session) (event : Bool) (ident : Nat) (body : List Octet) : State :=
  sendFrame (putSession s { x with txCount := x.txCount + 1 }) event (taggedFrame x x.tr ident body)

/-- One EVENT frame to a session (R474, R492). -/
def sendEvent (node : Nat) (entry : List Octet) (s : State) (x : Session) : State :=
  sendTagged s { x with evSeq := (x.evSeq + 1) % 512 } true (identOf 7 node x.mgr x.evSeq)
    (frameBody 0x80 0xF006 4 9 entry)

/-- The source code of an event: a physical seat, or a unit code with 0x100 added (R492). -/
def unitSource (u : Nat) : Nat := 0x100 + u

/-- A new event log entry with octets 12 to 31 given, sent to every live session (R492). -/
def logEntry (cls source : Nat) (detail : List Octet) (s : State) : State :=
  let entry := beOctets 9 s.time ++ [BitVec.ofNat 8 cls] ++ beOctets 2 source ++ detail
  let n := s.irrix.logNext
  let kept := if n < 8192 then s.irrix.log else smClear s.irrix.log 0 (n - 8192)
  let i := { s.irrix with log := smSet [] kept n entry, logNext := n + 1 }
  let s := { s with irrix := i }
  s.irrix.sessions.foldl (sendEvent s.pins.node.toNat entry) s

/-- A new event log entry whose code and detail are free values: the spec states no values for them (R492; log 5). -/
def logEvent (cls source : Nat) (s : State) : State :=
  logEntry cls source ((List.range 20).map fun i => Config.eventOctet s.free (12 + i)) { s with free := s.free + 1 }

/-- The source of an event of a unit that has no UNIT code: the spec names none (R492), so it is a free value (log 5). -/
def unnamedSource (s : State) : Nat := (Config.openWord s.free).toNat % 65536

/-- Counts a frame event of entry 0x1106 (R487). -/
def frameCount (s : State) (sub : Nat) : State :=
  { s with irrix := { s.irrix with frames := smSet 0 s.irrix.frames sub (smGet 0 s.irrix.frames sub + 1) } }

end Sys2Proof.Machine
end

