-- ==== Sys2Proof/Machine/Fence.lean ====
section
/-! DEFINITION. The fence (11): requester classes, descriptors, the check of R358, the default map and the fault record. -/

namespace Sys2Proof.Machine

/-- Words of case (10 R316). -/
def caseEnd : Nat := 0o000140000000

/-- Is the word in case (10 R316)? -/
def isCase (a : Nat) : Bool := decide (a < caseEnd)
/-- Is the word in system space (10 R316)? -/
def isSystem (a : Nat) : Bool := decide (0o200000000 ≤ a) && decide (a < 0o400000000)
/-- Is the word in bulk (10 R316)? -/
def isBulk (a : Nat) : Bool := decide (0o100000000000 ≤ a) && decide (a < 0o160000000000)
/-- Is the word in the host window (10 R316)? -/
def isHost (a : Nat) : Bool := decide (0o200000000000 ≤ a) && decide (a < 0o400000000000)
/-- Is the word in the fence block (R354)? -/
def isFenceBlock (a : Nat) : Bool := decide (0o200000000 ≤ a) && decide (a ≤ 0o200001777)

/-- The eighth of case that a word lies in (10 R319). -/
def eighthOf (a : Nat) : Nat := a / 3145728

/-- Does the span touch a set-aside eighth (10 R326)? -/
def touchesSetAside (s : State) (p n : Nat) : Bool :=
  (List.range 8).any fun e =>
    s.sys.setAside.testBit e && decide (p < 3145728 * (e + 1)) && decide (3145728 * e < p + n)

/-- The region of the default map that holds the whole span: 0 case, 1 system space, 2 bulk, 3 host window; none when a
word is reserved (10 R316, R317). Two regions never adjoin, so a span in two of them touches reserved space. -/
def regionOf (p n : Nat) : Option Nat :=
  if isCase p && isCase (p + n - 1) then some 0
  else if isSystem p && isSystem (p + n - 1) then some 1
  else if isBulk p && isBulk (p + n - 1) then some 2
  else if isHost p && isHost (p + n - 1) then some 3
  else none

/-- What an access presents to the fence (R358): the class code of R353, the direction (0 read, 1 write, 2 fetch), the
first physical word and the length. -/
structure FenceReq where
  cls    : Nat
  dir    : Nat
  p      : Nat
  n      : Nat
  /-- a tagged STC -/
  tagged : Bool := false
  /-- made at M: BOW and STROKE are not applied, and the fence block may be written (R355, R356) -/
  atM    : Bool := false
  side   : Bool := false
  ring   : Nat := 0
deriving DecidableEq, Repr

/-- What an access that passes carries (R360), and what CALLG asks of the region (03 R106). -/
structure Region where
  tagcap  : Bool
  gate    : Bool
  ringlim : Nat
  order   : Nat
  cls     : Nat
  start   : Nat
deriving DecidableEq, Repr

/-- Word i of descriptor d. -/
def descWord (f : Fence) (d i : Nat) : Word := smGet 0 f.d (4 * d + i)

/-- The descriptors with ENABLE = 1 that cover a word of the span (R358). -/
def descsOver (f : Fence) (p n : Nat) : List Nat :=
  (List.range 128).filter fun d =>
    bit (descWord f d 3) 10 && decide ((descWord f d 0).toNat < p + n) && decide (p ≤ (descWord f d 1).toNat)
      && decide ((descWord f d 0).toNat ≤ (descWord f d 1).toNat)

/-- Do two descriptors cover a common word of the span? -/
def descsClash (f : Fence) (p n d e : Nat) : Bool :=
  decide (max p (max (descWord f d 0).toNat (descWord f e 0).toNat)
    ≤ min (p + n - 1) (min (descWord f d 1).toNat (descWord f e 1).toNat))

/-- Is some word of the span covered twice? -/
def anyClash (f : Fence) (p n : Nat) : List Nat → Bool
  | [] => false
  | d :: ds => ds.any (descsClash f p n d) || anyClash f p n ds

/-- The permission bit of R356 for a class and a direction; no class above 2 has EX. -/
def permBit (w : Word) (cls dir : Nat) : Bool :=
  if dir = 2 && decide (2 < cls) then false
  else bit w ((if dir = 0 then 20 else if dir = 1 then 19 else 18) - 3 * cls)

/-- Step 1 of R358. -/
def fenceClosed (s : State) (r : FenceReq) : Bool :=
  (regionOf r.p r.n).isNone || touchesSetAside s r.p r.n ||
    (decide (r.p ≤ 0o200001777) && decide (0o200000000 < r.p + r.n)
      && !(r.cls == 0 && (r.dir == 0 || (r.dir == 1 && r.atM))))

/-- The default map of R359: rights, TAGCAP, ORDER, CLS. -/
def defaultRegion : Nat → Region
  | 0 => ⟨true, false, 0, 0, 2, 0⟩
  | 1 => ⟨false, false, 0, 2, 0, 0⟩
  | 2 => ⟨true, false, 0, 0, 2, 0⟩
  | _ => ⟨false, false, 0, 1, 0, 0⟩

/-- The region a descriptor gives. ORDER 3 is strict (R356). System space is strict and the host window is class 0 and has no
TAGCAP, whatever the descriptor states (R360, 10 R317, R341). -/
def descRegion (f : Fence) (d p : Nat) : Region :=
  let w := descWord f d 3
  { tagcap := bit w 8 && !isHost p, gate := bit w 9, ringlim := bits w 7 6,
    order := if isSystem p then 2 else min 2 (bits w 5 4),
    cls := if isSystem p || isHost p then 0 else bits w 3 2, start := (descWord f d 0).toNat }

/-- The check of R358: the region, or the kind coded as SV_CAUSE.FKIND (1 DENIED, 2 NO_MATCH, 3 OVERLAP, 4 SPAN, 5 RING). -/
def fenceCheck (s : State) (r : FenceReq) : Except Nat Region :=
  let ds := descsOver s.fence r.p r.n
  if fenceClosed s r then .error 1
  else if anyClash s.fence r.p r.n ds then .error 3
  else match ds with
  | [] =>
    if r.cls ≠ 0 then .error 2
    else
      let g := defaultRegion ((regionOf r.p r.n).getD 3)
      if r.dir = 2 && regionOf r.p r.n == some 3 then .error 1
      else if r.tagged && !g.tagcap then .error 1
      else .ok g
  | d :: es =>
    if !(es.isEmpty && decide ((descWord s.fence d 0).toNat ≤ r.p)
        && decide (r.p + r.n - 1 ≤ (descWord s.fence d 1).toNat)) then .error 4
    else
      let g := descRegion s.fence d r.p
      let sided := r.cls == 1 || r.cls == 2 || (r.cls == 0 && !r.atM)
      if !permBit (descWord s.fence d 2) r.cls r.dir then .error 1
      else if sided && !bit (descWord s.fence d 3) (if r.side then 1 else 0) then .error 1
      else if r.tagged && !g.tagcap then .error 1
      else if r.cls = 2 && decide (g.ringlim < r.ring) then .error 5
      else .ok g

/-- Records a refusal of a class other than the seat classes (R362). -/
def fenceRecord (s : State) (r : FenceReq) (unit kind : Nat) : State :=
  if r.cls ≤ 2 then s
  else
    let f := s.fence
    let f := { f with fltCount := min (f.fltCount + 1) (space36 - 1) }
    if bit f.fltInfo 35 then { s with fence := f }
    else { s with fence := { f with
      fltAddr := BitVec.ofNat 36 r.p,
      fltInfo := flag 35 true ||| field 19 kind ||| flag 18 (r.dir == 1) ||| field 15 r.cls ||| field 0 unit } }

/-- The check of a unit's access, which records its refusal (R362). -/
def fenceUnit (s : State) (r : FenceReq) (unit : Nat) : Except State Region :=
  match fenceCheck s r with
  | .ok g => .ok g
  | .error k => .error (fenceRecord s r unit k)

/-- The class code of a seat's request (R353). -/
def seatClass (t : Status) : Nat :=
  match t.lvl with
  | .U => if t.ringMode then 2 else 1
  | _ => 0

/-- A seat's request at its current level, side and ring. -/
def seatReq (t : Status) (dir p n : Nat) (tagged : Bool) : FenceReq :=
  { cls := seatClass t, dir := dir, p := p, n := n, tagged := tagged, atM := t.lvl == .M, side := t.side,
    ring := t.ring.toNat }

/-- The reserved bits of R356 read zero. -/
def descMask : Nat → Word
  | 2 => 0b000000000000000111111111110110110110
  | 3 => 0b000000000000000000000000111111111111
  | _ => 0o777777777777

/-- The outputs of a pair buffer, each changed. -/
def pairMap (f : PairOut → PairOut) (p : PairBuf) : PairBuf :=
  { p with outA := p.outA.map f, outB := p.outB.map f, outR := p.outR.map f }

/-- The stores that the pair buffers hold have been checked under the fence as it was before seat q's write (R366). -/
def fenceNote (s : State) (q : Nat) : State :=
  let f := fun o : PairOut => if o.kind ≤ 1 then { o with waits := q :: o.waits.erase q } else o
  { s with coxes := s.coxes.map fun e => (e.1, { e.2 with pairs := e.2.pairs.map fun b => (b.1, pairMap f b.2) }) }

/-- Is a store outstanding that was checked before the seat's latest write to the fence (R366)? -/
def fenceAwaits (s : State) (q : Nat) : Bool :=
  s.coxes.any fun e => e.2.pairs.any fun b => (b.2.outA ++ b.2.outB ++ b.2.outR).any fun o => o.waits.contains q

/-- An STC by seat q of an untagged value that covers a descriptor installs its four words; a quoined descriptor ignores the
write, and the fence counts it (R356, R357). -/
def fenceInstall (s : State) (q d : Nat) (ws : List Word) : State :=
  if bit (descWord s.fence d 3) 11 then { s with fence := { s.fence with ignored := s.fence.ignored + 1 } }
  else
    let vs := (List.range 4).map fun i => (ws.getD i 0) &&& descMask i
    fenceNote { s with fence := { s.fence with d := smSetList 0 s.fence.d (4 * d) vs } } q

/-- A read of the fence block; its other words are reserved and read zero (R354). -/
def fenceBlockRead (f : Fence) (a : Nat) : Word :=
  let o := a - 0o200000000
  if o < 512 then descWord f (o / 4) (o % 4)
  else if o = 512 then f.fltAddr
  else if o = 513 then f.fltInfo
  else if o = 514 then BitVec.ofNat 36 f.fltCount
  else 0

/-- A word write to the fence block: VALID of FENCE_FLT_INFO is write-one-to-clear; a write to a descriptor word is ignored
and counted (R356, R362). -/
def fenceBlockWrite (s : State) (a : Nat) (w : Word) : State :=
  let o := a - 0o200000000
  if o < 512 then { s with fence := { s.fence with ignored := s.fence.ignored + 1 } }
  else if o = 513 ∧ bit w 35 then
    { s with fence := { s.fence with fltInfo := s.fence.fltInfo &&& ~~~(flag 35 true) } }
  else s

end Sys2Proof.Machine
end

