-- ==== Sys2Proof/Machine/Phys.lean ====
section
/-! DEFINITION. Case and bulk as storage (10 R318 to R336): words, tags, poison, stripe generations. No check of any
requester happens here. -/

namespace Sys2Proof.Machine

/-- The first word of bulk. -/
def bulkBase : Nat := 0o100000000000

/-- The stripe of a bulk word (R328). -/
def stripeOf (a : Nat) : Nat := (a - bulkBase) / 40

/-- Is the granule or stripe that holds the word poisoned, or does it hold an error that poisons it when an access meets it
(R322, R334)? -/
def poisonedAt (m : Mem) (a : Nat) : Bool :=
  if isBulk a then smGet false m.stripePoison (stripeOf a) || decide (2 ≤ smGet 0 m.rot (stripeOf a))
  else smGet false m.poison (a / 4) || decide (2 ≤ smGet 0 m.flips (a / 4))

/-- The word of case or bulk. What nothing has written reads 0: R330 for bulk, DESIGN CHOICE (log 2) for case. -/
def memWord (m : Mem) (a : Nat) : Word := smGet 0 m.words a

/-- The tag of the granule that holds the word; a poisoned granule or stripe reads with tag 0 (R322, R335). -/
def memTag (m : Mem) (a : Nat) : Bool := smGet false m.tags (a / 4) && !poisonedAt m a

/-- n words from a. -/
def memWords (m : Mem) (a n : Nat) : List Word := (List.range n).map fun i => memWord m (a + i)

/-- Is a granule or stripe of the span poisoned? The first such word is the answer. -/
def poisonIn (m : Mem) (a n : Nat) : Option Nat := ((List.range n).map (a + ·)).find? (poisonedAt m)

/-- The bank of a case address (R318). -/
def bankOf (a : Nat) : Nat :=
  let f := fun lo n => a / 2 ^ lo % 2 ^ n
  f 2 5 ^^^ f 7 5 ^^^ f 12 5 ^^^ f 17 5 ^^^ f 22 2

/-- The row of 32 granules that holds a case address: its bank, and its local address over 128 (R318, R323). -/
def rowOf (a : Nat) : Nat := 6144 * bankOf a + a / 4096

/-- A corrected error in a row: the number of this scrub pass of 128 ms, and how many of the three it has given (R323). -/
def rowError (s : State) (row : Nat) : State :=
  let pass := s.time / 128000000
  let v := smGet 0 s.mem.rowErrs row
  let n := if v % 4 = 3 then v else if v / 4 = pass then v + 1 else 4 * pass + 1
  { s with mem := { s.mem with corrected := s.mem.corrected + 1, rowErrs := smSet 0 s.mem.rowErrs row n } }

/-- The bank reads granule g of case: a single-bit error is corrected, written back and counted, a double-bit error poisons
the granule and is logged (R321, R322). -/
def meetCase (s : State) (g : Nat) : State :=
  let e := smGet 0 s.mem.flips g
  let m := { s.mem with flips := smSet 0 s.mem.flips g 0 }
  if e = 0 then s
  else if e = 1 then rowError { s with mem := m } (rowOf (4 * g))
  else logEvent 4 (unnamedSource s) { s with mem := { m with poison := smSet false m.poison g true, moved := smSet false m.moved g false } }

/-- A stripe becomes poisoned and the event is logged (R334). -/
def poisonStripe (s : State) (k : Nat) (lost : Bool) : State :=
  let m := s.mem
  let m := { m with stripePoison := smSet false m.stripePoison k true,
                    genLost := if lost then smSet false m.genLost k true else m.genLost }
  logEvent 4 (unnamedSource s) { s with mem := m }

/-- The controller reads stripe k and checks it: a MAC failure that the re-read clears is counted, another poisons the
stripe, as a lost metadata entry does (R334). -/
def meetStripe (s : State) (k : Nat) : State :=
  let e := smGet 0 s.mem.rot k
  let m := { s.mem with rot := smSet 0 s.mem.rot k 0 }
  if e = 0 then s
  else if e = 1 then { s with mem := { m with corrected := m.corrected + 1 } }
  else poisonStripe { s with mem := m } k (e == 3)

/-- An access reads the granule or the stripe that holds a word. -/
def meetAt (s : State) (a : Nat) : State :=
  if isBulk a then meetStripe s (stripeOf a) else if isCase a then meetCase s (a / 4) else s

/-- An access reads words: what it meets there happens first (R321, R322, R334). -/
def meetWords (s : State) (as : List Nat) : State :=
  if s.mem.flips.isEmpty && s.mem.rot.isEmpty then s else as.foldl meetAt s

/-- An access reads n words from a. -/
def meetSpan (s : State) (a n : Nat) : State := meetWords s ((List.range n).map (a + ·))

/-- The generation and epoch of a stripe at a write (R331). -/
def stripeWrite (m : Mem) (k : Nat) : Mem :=
  let g := smGet 0 m.gen k
  let e := smGet 0 m.epoch k
  let lost := smGet false m.genLost k
  let ge := if lost then (m.maxGen + 1, 0)
    else if g = 0 then (1, 0)
    else if (e + 1) % 65536 = 0 then (g + 1, 0) else (g, e + 1)
  { m with gen := smSet 0 m.gen k ge.1, epoch := smSet 0 m.epoch k ge.2,
           genLost := smSet false m.genLost k false, maxGen := max m.maxGen ge.1 }

/-- What a write into one granule does once the granule has been read; a holds its first word written. All four words
written in one action clear the poison of a case granule; a shorter write to a poisoned granule, and any write to a
poisoned stripe, is discarded, counted and logged (R322, R335). The tag becomes tag. -/
def storeWords (s : State) (a : Nat) (ws : List Word) (tag : Bool) : State :=
  let m := s.mem
  if isBulk a then
    if poisonedAt m a then logEvent 4 (unnamedSource s) { s with mem := { m with discarded := m.discarded + 1 } }
    else
      let m := stripeWrite m (stripeOf a)
      { s with mem := { m with words := smSetList 0 m.words a ws, tags := smSet false m.tags (a / 4) tag } }
  else if poisonedAt m a && decide (ws.length < 4) then
    logEvent 4 (unnamedSource s) { s with mem := { m with discarded := m.discarded + 1 } }
  else
    { s with mem := { m with words := smSetList 0 m.words a ws, tags := smSet false m.tags (a / 4) tag,
                             poison := smSet false m.poison (a / 4) false, flips := smSet 0 m.flips (a / 4) 0 } }

/-- Writes words into one granule; a holds its first word written. A write that does not replace the whole granule or
stripe reads and checks it first (R321, R332, R335). -/
def putGranule (s : State) (a : Nat) (ws : List Word) (tag : Bool) : State :=
  storeWords (if !isBulk a && decide (4 ≤ ws.length) then s else meetWords s [a]) a ws tag

/-- Writes consecutive words granule by granule, clearing their tags (02 R37). -/
def putRunFuel : Nat → State → Nat → List Word → State
  | 0, s, _, _ => s
  | _, s, _, [] => s
  | fuel + 1, s, a, ws =>
    let k := 4 - a % 4
    putRunFuel fuel (putGranule s a (ws.take k) false) (a + k) (ws.drop k)

/-- Writes consecutive words, clearing the tag of every granule touched (02 R37). -/
def putRun (s : State) (a : Nat) (ws : List Word) : State := putRunFuel ws.length s a ws

/-- A whole-stripe write clears the stripe's poison and is written under a new generation or epoch (R331, R335). It reads no
words, so no MAC is checked; a lost metadata entry is met as the generation is read (R334). -/
def putStripe (s : State) (a : Nat) (ws : List Word) : State :=
  let s := if smGet 0 s.mem.rot (stripeOf a) = 3 then meetStripe s (stripeOf a) else s
  let m := stripeWrite s.mem (stripeOf a)
  { s with mem := { m with
      stripePoison := smSet false m.stripePoison (stripeOf a) false, rot := smSet 0 m.rot (stripeOf a) 0,
      words := smSetList 0 m.words a ws,
      tags := smClear m.tags (a / 4) (a / 4 + (ws.length - 1) / 4) } }

/-- The first word of the stripe that holds a, and its length: the last stripe holds 24 words (R328). -/
def stripeSpan (a : Nat) : Nat × Nat :=
  (bulkBase + 40 * stripeOf a, if stripeOf a = 161061273 then 24 else 40)

/-- A galley or scan-engine burst: one that covers a whole stripe is a 40-word write (R333). -/
def putBurst (s : State) (a : Nat) (ws : List Word) : State :=
  if isBulk a && stripeSpan a == (a, ws.length) then putStripe s a ws else putRun s a ws

/-- Clears the tag of a granule and leaves its words; in bulk the stripe is rewritten (13 R420). -/
def clearTag (s : State) (g : Nat) : State :=
  let s := meetWords s [4 * g]
  let m := if isBulk (4 * g) then stripeWrite s.mem (stripeOf (4 * g)) else s.mem
  { s with mem := { m with tags := smSet false m.tags g false } }

/-- The granule at a as a capability. -/
def memCap (m : Mem) (a : Nat) : Cap :=
  { w0 := memWord m a, w1 := memWord m (a + 1), w2 := memWord m (a + 2), w3 := memWord m (a + 3), tag := memTag m a }

/-- The four words of a capability. -/
def capWords (c : Cap) : List Word := [c.w0, c.w1, c.w2, c.w3]

/-- Does a requester's access to the word use a stick: that of the seat which makes it (06 R208)? Other requesters use none. -/
def viewIn (s : State) (q : Option Nat) (a : Nat) : Bool := q.any fun q => inStick (getSeat s q) a

/-- The word of case, bulk or the stick that a requester sees (06 R208). -/
def viewWord (s : State) (q : Option Nat) (a : Nat) : Word :=
  match q.filter fun q => inStick (getSeat s q) a with
  | some q => smGet 0 (getSeat s q).stick (a % 16384)
  | none => memWord s.mem a

/-- The tag of the granule that holds the word, as a requester sees it (06 R208). -/
def viewTag (s : State) (q : Option Nat) (a : Nat) : Bool :=
  match q.filter fun q => inStick (getSeat s q) a with
  | some q => smGet false (getSeat s q).stickTag (a % 16384 / 4)
  | none => memTag s.mem a

/-- The granule at a as a requester sees it. -/
def viewCap (s : State) (q : Option Nat) (a : Nat) : Cap :=
  let w := fun i => viewWord s q (a + i)
  { w0 := w 0, w1 := w 1, w2 := w 2, w3 := w 3, tag := viewTag s q a }

/-- Does a requester find the word poisoned (R322)? The stick holds no poison (06 R208, R210). -/
def viewPoisoned (s : State) (q : Option Nat) (a : Nat) : Bool := !viewIn s q a && poisonedAt s.mem a

/-- A requester reads words: what it meets in case and bulk happens first (R321, R322, R334). -/
def viewMeets (s : State) (q : Option Nat) (as : List Nat) : State := meetWords s (as.filter fun a => !viewIn s q a)

/-- A store into the code window of a seat marks its words stale (06 R209). -/
def markStale (s : State) (q a n : Nat) : State :=
  modSeat s q fun x =>
    { x with stale := (List.range n).foldl (fun m i =>
        if inCode x (a + i) then smSet false m ((a + i) % 16384) true else m) x.stale }

/-- Words of one granule go into a seat's stick (06 R208). -/
def stickPut (s : State) (q a : Nat) (ws : List Word) (tag : Bool) : State :=
  modSeat s q fun x => { x with stick := smSetList 0 x.stick (a % 16384) ws,
                                stickTag := smSet false x.stickTag (a % 16384 / 4) tag }

/-- A seat writes words into one granule of case or bulk: into its stick, or memory (06 R208, R209). -/
def viewPut (s : State) (q a : Nat) (ws : List Word) (tag : Bool) : State :=
  let s := markStale s q a ws.length
  if inStick (getSeat s q) a then stickPut s q a ws tag else putGranule s a ws tag

/-- A seat writes the granules of a span, four words each, without tags. -/
def viewPutRun (s : State) (q a : Nat) (ws : List Word) : State :=
  (List.range ((ws.length + 3) / 4)).foldl (fun s i => viewPut s q (a + 4 * i) ((ws.drop (4 * i)).take 4) false) s

/-- Zeroes a span of case, tags and poison included (R326, 09 R279). -/
def zeroSpan (s : State) (a n : Nat) : State :=
  let m := s.mem
  { s with mem := { m with words := smClear m.words a (a + n - 1), tags := smClear m.tags (a / 4) ((a + n - 1) / 4),
                           poison := smClear m.poison (a / 4) ((a + n - 1) / 4),
                           flips := smClear m.flips (a / 4) ((a + n - 1) / 4) } }

end Sys2Proof.Machine
end

