-- ==== Sys2Proof/Machine/Units.lean ====
section
/-! DEFINITION. The unit registers of system space (10 R317): the galley block, the monitor mailbox, boot ROM, OTP, the
GP pins, the image window, counter space. -/

namespace Sys2Proof.Machine

/-- Who makes an access: the fence class of R353 and whether it is made at M. -/
structure Who where
  cls : Nat
  atM : Bool
deriving DecidableEq, Repr

/-- Is it a seat at S or M? -/
def Who.seatSM (w : Who) : Bool := w.cls == 0
/-- Is it a seat at M? -/
def Who.seatM (w : Who) : Bool := w.cls == 0 && w.atM
/-- Is it any seat? -/
def Who.seat (w : Who) : Bool := decide (w.cls ≤ 2)

/-- Channel ch of the galley. -/
def getChan (s : State) (ch : Nat) : Chan := smGet {} s.galley.chans ch

/-- The state with channel ch written. -/
def setChan (s : State) (ch : Nat) (c : Chan) : State :=
  { s with galley := { s.galley with chans := smSet {} s.galley.chans ch c } }

/-- Counts an access the galley refuses or a write it ignores (13 R398, R400). -/
def galleyRefuse (s : State) : State := { s with galley := { s.galley with refused := s.galley.refused + 1 } }

/-- Channel word i as read (13 R398, R399). -/
def chanWord (c : Chan) (i : Nat) : Word :=
  match i with
  | 0 => flag 35 c.enable ||| flag 34 c.pause ||| flag 33 c.paused ||| field 30 c.state ||| flag 29 c.priv
      ||| flag 28 c.cmode ||| field 26 c.prio ||| field 22 c.rlog ||| field 8 c.buflim ||| field 0 c.mapid
  | 1 => c.rbase
  | 2 => field 18 c.tail ||| field 0 c.head
  | 3 => c.clane
  | 4 => c.src
  | 5 => c.dst
  | 6 => field 0 (c.rem % 2 ^ 30)
  | 7 => field 16 (c.eidx % 8192) ||| field 0 (c.part % 512)
  | 8 => field 0 (match c.xfer with | some x => x.crc % 2 ^ 32 | none => 0)
  | _ => 0

/-- May a write change more than PAUSE (13 R399)? -/
def chanIdle (c : Chan) : Bool := c.state == 0 || c.state == 5 || c.state == 6

/-- The state of a channel that neither pauses nor stops: HOLD while a record is held, RUN with a descriptor in progress,
else IDLE (13 R410, R413). -/
def chanActive (c : Chan) : Nat := if c.hold then 4 else if c.xfer.isSome then 2 else 0

/-- Clears PAUSE (13 R413). -/
def chanResume (c : Chan) : Chan :=
  { c with pause := false, paused := false, state := if c.state = 3 then chanActive c else c.state }

/-- A descriptor's completion has committed: HEAD passes it (13 R400). An event that was held has gone, and the count since the
last message begins again (R409). -/
def chanCommitted (s : State) (ch : Nat) : State :=
  let c := getChan s ch
  let d := { c with head := (c.head + 1) % 8192, xfer := none, hold := false, src := 0, dst := 0, rem := 0, eidx := 0,
                    part := 0, evCount := if c.hold && c.cmode then 0 else c.evCount,
                    evStatus := if c.hold && c.cmode then 0 else c.evStatus }
  setChan s ch { d with state := if c.state = 3 then 3 else chanActive d }

/-- Sets PAUSE (13 R413). -/
def chanPause (c : Chan) (p : Bool) : Chan := if p then { c with pause := true } else chanResume c

/-- A write of CH_CTL (13 R398, R399). -/
def chanCtlWrite (c : Chan) (w : Word) : Chan :=
  if chanIdle c then
    let c := { chanPause c (bit w 34) with
      enable := bit w 35, priv := bit w 29, cmode := bit w 28, prio := bits w 27 26, rlog := bits w 25 22,
      buflim := bits w 15 8, mapid := bits w 7 0 }
    if c.enable then { c with state := if c.rlog = 0 ∨ 13 ≤ c.rlog then 6 else 0 } else c
  else chanPause c (bit w 34)

/-- A write of channel word i by M (13 R399). -/
def chanWrite (c : Chan) (i : Nat) (w : Word) : Chan :=
  match i with
  | 0 => chanCtlWrite c w
  | 1 => if chanIdle c then { c with rbase := w } else c
  | 3 => if chanIdle c then { c with clane := w &&& 0o037777777777 } else c
  | _ => c

/-- The doorbell word of a channel (13 R400). -/
def chanBell (c : Chan) : Word := field 33 c.state ||| field 18 c.tail ||| field 0 c.head

/-- A doorbell write sets TAIL, unless TAIL would lie more than 2^RLOG positions ahead of HEAD (13 R400). -/
def bellWrite (s : State) (ch : Nat) (w : Word) : State :=
  let c := getChan s ch
  let t := bits w 12 0
  if (8192 + t - c.head) % 8192 ≤ 2 ^ c.rlog then setChan s ch { c with tail := t } else galleyRefuse s

/-- The writable bits of a profile word (13 R418). -/
def profileMask (i : Nat) : Word :=
  if i % 4 = 0 then 0o637777777777 else if i % 4 = 3 then 31 else 0o037777777777

/-- A read of the galley block (13 R397, R398). -/
def galleyRead (s : State) (who : Who) (o : Nat) : Word × State :=
  if o < 0o40000 then
    if who.seatSM then (chanWord (getChan s (o / 16)) (o % 16), s) else (0, galleyRefuse s)
  else if o < 0o42000 then
    if who.seat then (chanBell (getChan s (o - 0o40000)), s) else (0, galleyRefuse s)
  else if o < 0o42020 then
    if who.seatSM then (smGet 0 s.galley.profiles (o - 0o42000), s) else (0, galleyRefuse s)
  else (0, s)

/-- A write to the galley block (13 R397, R398). -/
def galleyWrite (s : State) (who : Who) (o : Nat) (w : Word) : State :=
  if o < 0o40000 then
    if who.seatM then
      let c := chanWrite (getChan s (o / 16)) (o % 16) w
      let s := if c.state = 6 ∧ (getChan s (o / 16)).state ≠ 6 then unitCount s 0o200 11 1 else s
      setChan s (o / 16) c
    else galleyRefuse s
  else if o < 0o42000 then
    if who.seat then bellWrite s (o - 0o40000) w else galleyRefuse s
  else if o < 0o42020 then
    if who.seatM then
      { s with galley := { s.galley with
          profiles := smSet 0 s.galley.profiles (o - 0o42000) (w &&& profileMask (o - 0o42000)) } }
    else galleyRefuse s
  else s

/-- A word of the monitor mailbox (17 R485). -/
def mailboxWord (s : State) (i : Nat) : Word :=
  if i = 17 ∨ i = 35 then flag 0 s.irrix.mailDone else smGet 0 s.irrix.mailbox i

/-- A read of word 34, the last of an answer, takes the answer: the next one that waits is shown. DESIGN CHOICE, log 105. -/
def mailTake (i : Irrix) : Irrix :=
  match i.mailOut with
  | f :: fs => mailShow { i with mailOut := fs } f
  | [] => { i with mailTaken := true }

/-- A read of the monitor mailbox (17 R485). -/
def mailboxRead (s : State) (i : Nat) : Word × State :=
  (mailboxWord s i, if i = 34 && s.irrix.mailDone then { s with irrix := mailTake s.irrix } else s)

/-- The answers that wait go with a new request. -/
def mailClear (i : Irrix) : Irrix := { i with mailDone := false, mailTaken := false, mailOut := [] }

/-- A write to the mailbox: words 0 to 16 hold the request, word 17 submits it (17 R485). -/
def mailboxWrite (s : State) (i : Nat) (w : Word) : State :=
  if i ≤ 16 then { s with irrix := { s.irrix with mailbox := smSet 0 s.irrix.mailbox i w } }
  else if i = 17 then { s with irrix := { mailClear s.irrix with mailReq := true } }
  else s

/-- The first word of counter space, CB (15 R440). -/
def counterBase : Nat := 0o340000000

/-- Word 0 or 1 of a counter's double (15 R440). -/
def countWord (v i : Nat) : Word :=
  if i = 0 then BitVec.ofNat 36 v else field 0 (v % 2 ^ 54 / space36) ||| flag 18 (decide (2 ^ 54 ≤ v))

/-- A word of counter space (15 R440). -/
def counterWord (s : State) (o : Nat) : Word := countWord (counterValue s (o / 2)) (o % 2)

/-- A read of words of counter space: every counter it touches is brought up to date once, before its first word, so that the
words of a double are of one count (15 R438, R441). -/
def counterSpan (s : State) (a n : Nat) : State :=
  if counterBase ≤ a ∧ 0 < n then
    let k := (a - counterBase) / 2
    ((List.range ((a - counterBase + n - 1) / 2 + 1 - k)).map (k + ·)).foldl counterSettle s
  else s

/-- An STD by a seat at M to a counter double clears WRAP where bit 18 of the high word is 1 (15 R441), as the events reported
before have left it (15 R438). -/
def counterW1c (s : State) (o : Nat) (hi : Word) : State :=
  if bit hi 18 then
    let s := counterSettle s (o / 2)
    { s with counters := smSet 0 s.counters (o / 2) (smGet 0 s.counters (o / 2) % 2 ^ 54) } else s

/-- The first flash octet of the booted set (18 R497). -/
def bootedSet (s : State) : Nat := s.boot.setBooted * 0x4000000

/-- An octet of flash; an erased octet is 0xFF. -/
def flashOctet (s : State) (a : Nat) : Octet := smGet 0xFF s.boot.flash a

/-- The pins that the module drives: DIR, but for its bit 0 while PERST_EN is 1 (19 R544). -/
def gpDriven (p : Pins) : BitVec 16 := if p.perstEn then p.gpDir &&& 0xFFFE else p.gpDir

/-- GP register i as read (19 R544). GP_IN is the level at the pins: that of GP_OUT at one the module drives, a free value at
an input (log 5). -/
def gpRead (s : State) (i : Nat) : Word × State :=
  match i with
  | 0 => (field 0 s.pins.gpDir.toNat, s)
  | 1 => (field 0 s.pins.gpOut.toNat, s)
  | 2 =>
    let d := gpDriven s.pins
    (field 0 ((Config.gpPins s.free &&& ~~~d) ||| (s.pins.gpOut &&& d)).toNat, { s with free := s.free + 1 })
  | 3 => (flag 0 s.pins.perstEn, s)
  | _ => (0, s)

/-- A write to GP register i (19 R544). -/
def gpWrite (s : State) (who : Who) (i : Nat) (w : Word) : State :=
  if !who.seatM then { s with pins := { s.pins with gpIgnored := s.pins.gpIgnored + 1 } }
  else match i with
  | 0 => { s with pins := { s.pins with gpDir := BitVec.ofNat 16 w.toNat } }
  | 1 => { s with pins := { s.pins with gpOut := BitVec.ofNat 16 w.toNat } }
  | 3 => { s with pins := { s.pins with perstEn := bit w 0 } }
  | _ => s

/-- Counts a write that a read-only region ignores (18 R493, 19 R542). -/
def ignoreWrite (s : State) : State := { s with mem := { s.mem with discarded := s.mem.discarded + 1 } }

/-- A read of a system-space word by a requester that the fence admitted. A word no chapter names reads a free value
(log 7). -/
def unitRead (s : State) (who : Who) (a : Nat) : Word × State :=
  if isFenceBlock a then (fenceBlockRead s.fence a, s)
  else if decide (0o201000000 ≤ a) && decide (a < 0o201100000) then galleyRead s who (a - 0o201000000)
  else if decide (0o202000000 ≤ a) && decide (a ≤ 0o202000043) then
    if who.seatM then mailboxRead s (a - 0o202000000) else (0, s)
  else if decide (0o203000000 ≤ a) && decide (a ≤ 0o203037777) then (Config.bootRomWord (a - 0o203000000), s)
  else if decide (0o204000000 ≤ a) && decide (a ≤ 0o204001777) then
    (if who.seatSM then smGet 0 s.boot.otp (a - 0o204000000) else 0, s)
  else if decide (0o205000000 ≤ a) && decide (a ≤ 0o205000003) then
    if who.seatSM then gpRead s (a - 0o205000000) else (0, s)
  else if decide (0o220000000 ≤ a) && decide (a < 0o320000000) then
    (if who.seatSM then
      packWord ((List.range 4).map fun k => flashOctet s (bootedSet s + 4 * (a - 0o220000000) + k)) else 0, s)
  else if decide (counterBase ≤ a) then (counterWord s (a - counterBase), s)
  else (Config.systemWord a s.free, { s with free := s.free + 1 })

/-- A word write to system space by a requester that the fence admitted. Words no chapter names ignore it (log 7). -/
def unitWrite (s : State) (who : Who) (a : Nat) (w : Word) : State :=
  if isFenceBlock a then fenceBlockWrite s a w
  else if decide (0o201000000 ≤ a) && decide (a < 0o201100000) then galleyWrite s who (a - 0o201000000) w
  else if decide (0o202000000 ≤ a) && decide (a ≤ 0o202000043) then
    if who.seatM then mailboxWrite s (a - 0o202000000) w else s
  else if decide (0o203000000 ≤ a) && decide (a ≤ 0o203037777) then ignoreWrite s
  else if decide (0o205000000 ≤ a) && decide (a ≤ 0o205000003) then gpWrite s who (a - 0o205000000) w
  else if decide (0o220000000 ≤ a) && decide (a < 0o320000000) then ignoreWrite s
  else s

/-- n words of system space. -/
def unitReads : Nat → State → Who → Nat → List Word × State
  | 0, s, _, _ => ([], s)
  | n + 1, s, who, a =>
    let (w, s) := unitRead s who a
    let (ws, s) := unitReads n s who (a + 1)
    (w :: ws, s)

/-- Writes of consecutive system-space words. -/
def unitWrites : State → Who → Nat → List Word → State
  | s, _, _, [] => s
  | s, who, a, w :: ws => unitWrites (unitWrite s who a w) who (a + 1) ws

/-- May the host window be used (10 R341, 19 R539)? -/
def hostUp (s : State) : Bool := s.sys.hwinOn && s.pins.pcieUp

/-- The host window word at a host octet address; none outside the 64 GiB of the window (10 R340). -/
def hostWindowWord (s : State) (a : Nat) : Option Nat :=
  if a / 2 ^ 36 = s.sys.hbase then some (0o200000000000 + a % 2 ^ 36 / 4) else none

/-- The host octet address of octet 0 of a host window word (10 R340). -/
def hostAddr (s : State) (a : Nat) : Nat := 2 ^ 36 * s.sys.hbase + 4 * (a - 0o200000000000)

/-- A host window word: four octets the host holds, every presence bit set (10 R341). The octets are free values. -/
def hostWord (s : State) (a : Nat) : Word × State :=
  (packWord ((List.range 4).map fun k => Config.hostOctet (hostAddr s a + k) (s.free + k)), { s with free := s.free + 4 })

/-- n host window words. -/
def hostWords : Nat → State → Nat → List Word × State
  | 0, s, _ => ([], s)
  | n + 1, s, a =>
    let (w, s) := hostWord s a
    let (ws, s) := hostWords n s (a + 1)
    (w :: ws, s)

/-- Is octet slot k of a packed-octet word present (00 R5)? -/
def slotPresent (w : Word) (k : Nat) : Bool := bit w (9 * k + 8)

/-- A host window write: the present octets of the word are posted; none while the window is off. An error on it is counted
and logged, and no unit is told (10 R341). -/
def hostPutWord (s : State) (a : Nat) (w : Word) : State :=
  if !hostUp s then ignoreWrite s
  else
    let os := ((List.range 4).filter (slotPresent w)).map fun k => (hostAddr s a + k, slotOctet w k)
    let n := s.free
    let t := { s with free := n + 1, pins := { s.pins with hostOut := os.reverse ++ s.pins.hostOut } }
    if Config.hostWriteErr n then
      logEvent 6 (unnamedSource t) { t with pins := { t.pins with writeErrs := t.pins.writeErrs + 1 } }
    else t

/-- Posted writes of consecutive host window words. -/
def hostPutWords : State → Nat → List Word → State
  | s, _, [] => s
  | s, a, w :: ws => hostPutWords (hostPutWord s a w) (a + 1) ws

/-- What a physical read gives: words, poison at a word, or a host error (10 R322, R335, R341). -/
inductive PhysRead where
  | ok (ws : List Word) (s : State)
  | poison (a : Nat) (s : State)
  | busError (a : Nat)

/-- A physical read of n words within one region, by a requester that the fence admitted. What it meets in case or bulk
happens first (10 R321, R322, R334). -/
def physRead (s : State) (who : Who) (a n : Nat) : PhysRead :=
  if isSystem a then
    let (ws, s) := unitReads n (counterSpan s a n) who a
    .ok ws s
  else if isHost a then
    if hostUp s && !s.pins.readFails then
      let (ws, s) := hostWords n s a
      .ok ws s
    else .busError a
  else
    let s := meetSpan s a n
    match poisonIn s.mem a n with
    | some b => .poison b s
    | none => .ok (memWords s.mem a n) s

/-- A physical write of words within one region. Every write clears the tag of every granule written (02 R37). -/
def physWrite (s : State) (who : Who) (a : Nat) (ws : List Word) : State :=
  if isSystem a then unitWrites s who a ws
  else if isHost a then hostPutWords s a ws
  else putRun s a ws

/-- A unit's checked read: fence class cls, unit code u (11 R362). -/
def unitFetch (s : State) (cls u a n : Nat) : Except (Nat × State) (List Word × State) :=
  match fenceUnit s { cls := cls, dir := 0, p := a, n := n } u with
  | .error s => .error (3, s)
  | .ok _ =>
    match physRead s ⟨cls, false⟩ a n with
    | .ok ws s => .ok (ws, s)
    | .poison _ s => .error (4, s)
    | .busError _ => .error (2, s)

/-- A unit's checked write: none refused, or status FENCE with the refusal recorded (11 R362). -/
def unitStore (s : State) (cls u a : Nat) (ws : List Word) : Except State State :=
  match fenceUnit s { cls := cls, dir := 1, p := a, n := ws.length } u with
  | .error s => .error s
  | .ok _ => .ok (physWrite s ⟨cls, false⟩ a ws)

end Sys2Proof.Machine
end

