-- ==== Sys2Proof/Machine/Lanes.lean ====
section
/-! DEFINITION. The lane unit (09): classes, descriptors, rings, puts, takes, notices, ready queues. -/

namespace Sys2Proof.Machine

/-- Status codes of R315. -/
def stOK : Nat := 0
def stBadDescriptor : Nat := 0o01
def stBusError : Nat := 0o02
def stFence : Nat := 0o03
def stPoison : Nat := 0o04
def stAborted : Nat := 0o05
def stTimeout : Nat := 0o06
def stBroken : Nat := 0o07
def stCapability : Nat := 0o10
def stNoCredit : Nat := 0o11
def stKey : Nat := 0o12
def stCheck : Nat := 0o13

/-- Word i of class k (R277). -/
def classWord (s : State) (k i : Nat) : Word := smGet 0 s.lanes.cls (8 * k + i)

/-- The class entries in use: those with an RLOG of 1 to 12 (R277). DEDUCED, log 23. -/
def classesOf (s : State) : List Nat :=
  (s.lanes.cls.filter fun e => e.1 % 8 == 2 && decide (1 ≤ bits e.2 15 12)).map fun e => e.1 / 8

def clKind (s : State) (k : Nat) : Nat := bits (classWord s k 0) 35 32
def clCount (s : State) (k : Nat) : Nat := bits (classWord s k 0) 31 16 + 1
def clFirst (s : State) (k : Nat) : Nat := bits (classWord s k 0) 15 0
/-- RBASE, a multiple of 4 (R277). No rule says what a table that holds another value gives: its two low bits count as zero.
DESIGN CHOICE, log 120. -/
def clRbase (s : State) (k : Nat) : Nat := 4 * ((classWord s k 1).toNat / 4)
def clHome (s : State) (k : Nat) : Nat := bits (classWord s k 2) 35 32
def clPrio (s : State) (k : Nat) : Nat := bits (classWord s k 2) 31 29
def clPend (s : State) (k : Nat) : Nat := bits (classWord s k 2) 28 19
/-- The slot size in words. -/
def clSS (s : State) (k : Nat) : Nat := 8 * 2 ^ bits (classWord s k 2) 18 16
def clRlog (s : State) (k : Nat) : Nat := bits (classWord s k 2) 15 12
def clIcred (s : State) (k : Nat) : Nat := bits (classWord s k 2) 11 0 + 1
def clMap (s : State) (k : Nat) : Nat := bits (classWord s k 3) 35 29
def clHost (s : State) (k : Nat) : Bool := bit (classWord s k 3) 8
def clEss (s : State) (k : Nat) : Bool := bit (classWord s k 3) 7
def clCaps (s : State) (k : Nat) : Bool := bit (classWord s k 3) 6
def clChk (s : State) (k : Nat) : Bool := bit (classWord s k 3) 5
def clPin (s : State) (k : Nat) : Bool := bit (classWord s k 3) 4
def clPair (s : State) (k : Nat) : Bool := bit (classWord s k 3) 3
def clRing (s : State) (k : Nat) : Bool := bit (classWord s k 3) 2
def clDet (s : State) (k : Nat) : Bool := bit (classWord s k 3) 1
/-- The maximum activation length in ns (08 R257). -/
def clMaxact (s : State) (k : Nat) : Nat := 1000 * bits (classWord s k 4) 35 18
def clAdmit (s : State) (k : Nat) : Nat := bits (classWord s k 4) 17 0
def clPsealHi (s : State) (k : Nat) : Nat := bits (classWord s k 5) 35 20
def clPsealLo (s : State) (k : Nat) : Nat := bits (classWord s k 5) 19 4
def clPbow (s : State) (k : Nat) : Bool := bit (classWord s k 5) 3
def clPstroke (s : State) (k : Nat) : Bool := bit (classWord s k 5) 2
def clPrule (s : State) (k : Nat) : Nat := bits (classWord s k 5) 1 0
def clReject (s : State) (k : Nat) : Nat := bits (classWord s k 6) 31 16
def clUnit (s : State) (k : Nat) : Nat := bits (classWord s k 6) 7 0

/-- Kinds 1 and 3 are hardware-consumed (R275). -/
def hwKind (kind : Nat) : Bool := kind == 1 || kind == 3

/-- The class of a lane (R274). -/
def classOf (s : State) (l : Nat) : Option Nat :=
  (classesOf s).find? fun k => decide (clFirst s k ≤ l) && decide (l < clFirst s k + clCount s k)

/-- Granule 1 of a lane descriptor, unpacked (R282). -/
structure LaneSt where
  head   : Nat := 0
  tail   : Nat := 0
  taken  : Nat := 0
  credit : Nat := 0
  state  : Nat := 0
  tof    : Bool := false
  wait   : Bool := false
  armed  : Bool := false
  cls    : Nat := 0
  seq    : Nat := 0
  resv   : Nat := 0
  tseq   : Nat := 0
deriving DecidableEq, Repr

/-- The codes of STATE (R282). -/
def lsClosed : Nat := 0
def lsOpen : Nat := 1
def lsClosing : Nat := 2
def lsAborting : Nat := 3
def lsFaulted : Nat := 4

/-- The first word of the descriptor of lane l (R279). -/
def descAddr (s : State) (l : Nat) : Nat := 2 ^ 20 * s.sys.laneBase + 16 * l

/-- Granule 1 from its four words. -/
def laneOfWords (ws : List Word) : LaneSt :=
  let p := ws.getD 0 0
  let c := ws.getD 1 0
  let t := ws.getD 2 0
  let r := ws.getD 3 0
  { head := bits p 12 0, tail := bits p 30 18, taken := bits c 30 18, credit := bits c 12 0,
    state := bits t 35 33, tof := bit t 32, wait := bit t 31, armed := bit t 30, cls := bits t 27 18,
    seq := bits t 17 0, resv := bits r 30 18, tseq := bits r 17 0 }

/-- The four words of granule 1. -/
def wordsOfLane (x : LaneSt) : List Word :=
  [field 18 (x.tail % 8192) ||| field 0 (x.head % 8192),
   field 18 (x.taken % 8192) ||| field 0 (x.credit % 8192),
   field 33 x.state ||| flag 32 x.tof ||| flag 31 x.wait ||| flag 30 x.armed ||| field 18 x.cls
     ||| field 0 (x.seq % 262144),
   field 18 (x.resv % 8192) ||| field 0 (x.tseq % 262144)]

/-- The lane's granule 1 as it stands. A lane whose fault bit is set counts as FAULTED (R551); one that the lane unit has not
written since reset or the last move of the array is CLOSED, with nothing armed, whatever memory holds there (R279). -/
def laneSt (s : State) (l : Nat) : LaneSt :=
  let x := if smGet false s.lanes.opened l then laneOfWords (memWords s.mem (descAddr s l + 4) 4) else {}
  if smGet false s.lanes.fault l then { x with state := lsFaulted } else x

/-- An access of the lane unit to granule g of a lane's descriptor at the fence, in the engines class (R280): dir 0 reads, 1
writes. -/
def descCheck (s : State) (l g dir : Nat) : Except State Unit :=
  match fenceUnit s { cls := 6, dir := dir, p := descAddr s l + 4 * g, n := 4 } 0o203 with
  | .error s => .error s
  | .ok _ => .ok ()

/-- Does the fence admit the lane unit's read of granule g of a lane's descriptor (R280)? -/
def descReads (s : State) (l g : Nat) : Bool := (descCheck s l g 0).isOk

/-- Does the fence admit the lane unit to granule g of a lane's descriptor, for reading and writing (R280)? -/
def descAdmits (s : State) (l g : Nat) : Except State Unit :=
  match descCheck s l g 0 with
  | .error s => .error s
  | .ok _ => descCheck s l g 1

/-- Writes granule 1. -/
def setLane (s : State) (l : Nat) (x : LaneSt) : State :=
  let s := putGranule s (descAddr s l + 4) (wordsOfLane x) false
  { s with lanes := { s.lanes with opened := smSet false s.lanes.opened l true } }

/-- Word i of a lane's descriptor as a program reads it: STATE of a lane that the lane unit has not written is CLOSED (R279). -/
def laneWord (s : State) (l i : Nat) : Word :=
  let w := memWord s.mem (descAddr s l + i)
  if i = 6 ∧ smGet false s.lanes.opened l = false then field 0 (bits w 32 0) else w

/-- The deadline of a lane: words 12 and 13 (R281). -/
def laneDeadline (s : State) (l : Nat) : Nat :=
  double (memWord s.mem (descAddr s l + 12)) (memWord s.mem (descAddr s l + 13))

/-- Writes the deadline; STOWREF and STATS stay. -/
def setDeadline (s : State) (l d : Nat) : State :=
  putGranule s (descAddr s l + 12) [doubleLo d, doubleHi d] false

/-- STOWREF (R281). Its two low bits count as zero, where a write outside the lane unit has set them. DESIGN CHOICE, log 120. -/
def stowRef (s : State) (l : Nat) : Nat := 4 * ((memWord s.mem (descAddr s l + 14)).toNat / 4)

/-- The consumer code gate: granule 2 (R281). -/
def laneGate (s : State) (l : Nat) : Cap := memCap s.mem (descAddr s l + 8)

/-- Ring words of a class's lane: slots and slot records (R283). -/
def ringLen (s : State) (k : Nat) : Nat := 2 ^ clRlog s k * (clSS s k + 4)

/-- The first word of the lane's ring (R283). -/
def ringBase (s : State) (k l : Nat) : Nat := clRbase s k + (l - clFirst s k) * ringLen s k

/-- The first data word of the slot at a position. -/
def slotAddr (s : State) (k l p : Nat) : Nat := ringBase s k l + p % 2 ^ clRlog s k * clSS s k

/-- The slot record of the slot at a position. -/
def recAddr (s : State) (k l p : Nat) : Nat :=
  ringBase s k l + 2 ^ clRlog s k * clSS s k + 4 * (p % 2 ^ clRlog s k)

/-- Does the ring span pass the fence for the engines class, reading and writing (R280, R296, R298)? -/
def ringAdmits (s : State) (k l : Nat) : Except State Unit :=
  match fenceUnit s { cls := 6, dir := 0, p := ringBase s k l, n := ringLen s k } 0o203 with
  | .error s => .error s
  | .ok _ =>
    match fenceUnit s { cls := 6, dir := 1, p := ringBase s k l, n := ringLen s k } 0o203 with
    | .error s => .error s
    | .ok _ => .ok ()

/-- Is an activation of the lane live: posted, its bank free or still being stowed, running, ready, blocked or stowed (08
R249)? -/
def laneLive (s : State) (l : Nat) : Bool :=
  (s.seats.any fun e => e.2.banks.any fun b => b.2.st != .free && b.2.lane.toNat == l) ||
    (s.lanes.stowed.any fun e => e.lane.toNat == l) ||
    (s.seats.any fun e => e.2.stow.any fun j => !j.void && j.lane.toNat == l) ||
    s.coxes.any fun e => e.2.pairs.any fun b => b.2.used && b.2.lane.toNat == l

/-- Is the lane on a ready queue, or picked or relayed and not yet posted (08 R248, R250)? -/
def laneQueued (s : State) (l : Nat) : Bool :=
  (s.lanes.ready.any fun e => e.2.any fun x => x.1.toNat == l) ||
    s.coxes.any fun c => (c.2.picks.any fun p => p.lane.toNat == l) ||
      c.2.relays.any fun r => bits (field 0 r.1.toNat) 15 0 == l

/-- The key of a ready queue: home crew and pend index (08 R248). -/
def readyKey (home pend : Nat) : Nat := 1024 * home + pend

/-- The ready queue of a pend index. -/
def readyGet (s : State) (home pend : Nat) : List (LaneNo × Bool) := smGet [] s.lanes.ready (readyKey home pend)

/-- The state with a ready queue written. -/
def readySet (s : State) (home pend : Nat) (xs : List (LaneNo × Bool)) : State :=
  { s with lanes := { s.lanes with ready := smSet [] s.lanes.ready (readyKey home pend) xs } }

/-- Does a lane hold a delivered message that no activation has taken, or a timeout that none has received (01 R18)? -/
def laneHolds (s : State) (l : Nat) : Bool :=
  let x := laneSt s l
  x.state == lsOpen && (x.head != x.tail || x.tof)

/-- Takes a lane off its ready queue; the wake pick of a stowed activation of it stays (08 R249, R261). -/
def unready (s : State) (l : Nat) : State :=
  { s with lanes := { s.lanes with
    ready := (s.lanes.ready.map fun r => (r.1, r.2.filter fun x => x.1.toNat != l || x.2)).filter fun r => !r.2.isEmpty } }

/-- A lane whose messages and timeout have all been taken leaves its ready queue (01 R18, 08 R248). -/
def offQueue (s : State) (l : Nat) : State := if laneHolds s l then s else unready s l

/-- Is a wake pick of the pend index picked or relayed, and not yet posted (08 R250, R261)? -/
def wakePicked (s : State) (home pend : Nat) : Bool :=
  s.coxes.any fun c => (c.2.picks.any fun p => p.stowed && p.home == home && p.pend == pend) ||
    c.2.relays.any fun r => bit (field 0 r.1.toNat) 16 && match classOf s (bits (field 0 r.1.toNat) 15 0) with
      | some k => clHome s k == home && clPend s k == pend
      | none => false

/-- Pend bit i of crew x, a level (01 R18, 08 R248): a lane of the pend index holds a delivered message or an event that no
activation has taken, whether it is queued, picked or live. -/
def pendBit (s : State) (x i : Nat) : Bool :=
  !(readyGet s x i).isEmpty || wakePicked s x i ||
    (classesOf s).any fun k => !hwKind (clKind s k) && clHome s k == x && clPend s k == i &&
      (List.range (clCount s k)).any fun j => laneHolds s (clFirst s k + j)

/-- An entry joins the tail of a ready queue; the cox leaves IDLE when the pend bit rises (08 R243, R248). -/
def pushReady (s : State) (home pend : Nat) (e : LaneNo × Bool) : State :=
  let t := readySet s home pend (readyGet s home pend ++ [e])
  if pendBit s home pend then t else coxWake t home

/-- The cox of lane l's class leaves IDLE when its pend bit has risen since s0 (08 R243). -/
def pendRise (s0 s : State) (l : Nat) : State :=
  match classOf s l with
  | none => s
  | some k =>
    if !hwKind (clKind s k) && !pendBit s0 (clHome s k) (clPend s k) && pendBit s (clHome s k) (clPend s k) then
      coxWake s (clHome s k) else s

/-- A lane joins the tail of its ready queue unless it is live or queued; its pend bit is then 1 (08 R248, R249). -/
def readyLane (s : State) (l : Nat) : State :=
  match classOf s l with
  | none => s
  | some k =>
    if hwKind (clKind s k) || laneLive s l || laneQueued s l then s
    else
      pushReady s (clHome s k) (clPend s k) (BitVec.ofNat 16 l, false)

/-- A stowed activation waiting on lane l: its own lane joins its queue with STOWED = 1 (08 R261), unless it is queued or
the post that restores it has been accepted. -/
def wakeStowed (s : State) (a : Nat) : State :=
  match classOf s a with
  | none => s
  | some k =>
    let back := s.seats.any fun e => (e.2.banks.any fun b => b.2.st == .restoring && b.2.lane.toNat == a) ||
      e.2.stow.any fun j => j.stowed && !j.void && j.lane.toNat == a
    if laneQueued s a || back then s else pushReady s (clHome s k) (clPend s k) (BitVec.ofNat 16 a, true)

/-- The seats and banks in a state that wait in LTAKE on lane l (05 R175): the wait of one that a closure has reached is over. -/
def waitingOn (s : State) (st : BankSt) (l : Nat) : List (Nat × Nat) :=
  s.seats.flatMap fun e => (e.2.banks.filter fun b =>
    b.2.st == st && b.2.waitLane.toNat == l && !b.2.abortTake).map fun b => (e.1, b.1)

/-- The stowed activations that wait in LTAKE on lane l (08 R261). -/
def stowedOn (s : State) (l : Nat) : List Stowed := s.lanes.stowed.filter fun e => e.waitLane.toNat == l && !e.aborted

/-- Is an activation blocked in LTAKE on the lane, in its bank, in a stow or stowed (08 R249)? -/
def laneAwaited (s : State) (l : Nat) : Bool :=
  !(waitingOn s .blocked l).isEmpty || !(waitingOn s .stowing l).isEmpty || !(stowedOn s l).isEmpty

/-- A blocked bank becomes READY, within the leaf cox's wake path; an idle seat takes it up (08 R256). aborted makes its
LTAKE complete ABORTED (05 R175). -/
def wakeBank (s : State) (q b : Nat) (aborted : Bool) : State :=
  selectBank (modSeatR s q fun x => modBank x b fun v => { v with st := .ready, abortTake := aborted }) q

/-- A closure of lane l reaches the activations that wait on it while they are being stowed, or stowed: each will resume with
ABORTED (05 R175, R177). -/
def abortWaits (s : State) (l : Nat) : State :=
  let s := (waitingOn s .stowing l).foldl (fun s qb =>
    modSeat s qb.1 fun x => modBank x qb.2 fun v => { v with abortTake := true }) s
  { s with lanes := { s.lanes with
    stowed := s.lanes.stowed.map fun e => if e.waitLane.toNat == l then { e with aborted := true } else e } }

/-- Every activation that waits on lane l, in a bank or stowed, is woken (08 R256, R261). One whose bank is being stowed is
woken when the stow ends. -/
def wakeAll (s : State) (l : Nat) (aborted : Bool) : State :=
  let es := stowedOn s l
  let s := (waitingOn s .blocked l).foldl (fun s qb => wakeBank s qb.1 qb.2 aborted) s
  es.foldl (fun s e => wakeStowed s e.lane.toNat) (if aborted then abortWaits s l else s)

/-- An event on lane l: it wakes the activations that wait on it, else the lane becomes pending (08 R249, R256, R261). -/
def laneEvent (s : State) (l : Nat) (aborted : Bool) : State :=
  if !(waitingOn s .stowing l).isEmpty then wakeAll s l aborted
  else if (waitingOn s .blocked l).isEmpty && (stowedOn s l).isEmpty then
    if aborted then s else readyLane s l
  else wakeAll (setLane s l { laneSt s l with wait := false }) l aborted

/-- Is the message at a position committed: C of its slot record (R283)? -/
def slotC (s : State) (k l p : Nat) : Bool := bit (memWord s.mem (recAddr s k l p)) 35

/-- HEAD passes the positions of broken messages, whose slots return to CREDIT (R286). -/
def skipBroken (s : State) (k l : Nat) : Nat → LaneSt → LaneSt
  | 0, x => x
  | fuel + 1, x =>
    if x.head = x.tail ∨ slotC s k l x.head then x
    else skipBroken s k l fuel { x with head := (x.head + 1) % 8192, credit := x.credit + 1 }

/-- The slot records that the lane unit reads as HEAD passes broken messages: what it meets there happens first (10 R321,
R322). -/
def meetSkip (k l : Nat) : Nat → State → LaneSt → State
  | 0, s, _ => s
  | fuel + 1, s, x =>
    if x.head = x.tail then s
    else
      let s := meetWords s [recAddr s k l x.head]
      if slotC s k l x.head then s
      else meetSkip k l fuel s { x with head := (x.head + 1) % 8192, credit := x.credit + 1 }

/-- Writes granule 1 once HEAD has passed the broken messages that it stands at (R286). -/
def settleLane (s : State) (k l : Nat) (x : LaneSt) : State :=
  let s := meetSkip k l 8192 s x
  setLane s l (skipBroken s k l 8192 x)

/-- The octets of a word as the checks take it: 5, most significant first (R293). -/
def wordOctets (w : Word) : List Octet := beOctets 5 w.toNat

/-- The folded check word (R293). -/
def foldedCheck (l sq : Nat) (ws : List Word) : Nat :=
  crc crc32c (beOctets 2 l ++ beOctets 3 (sq % 262144) ++ ws.flatMap wordOctets)

/-- Slots of a message of n words. -/
def slotsFor (ss n : Nat) : Nat := (n + ss - 1) / ss

/-- Writes the message's words, slot by slot from position p, tags by granule (R284, 02 R37). -/
def writeSlots (k l : Nat) : Nat → State → Nat → List Word → List Bool → State
  | 0, s, _, _, _ => s
  | _, s, _, [], _ => s
  | fuel + 1, s, p, ws, ts =>
    let ss := clSS s k
    let put := fun (s : State) (i : Nat) =>
      let ws := (ws.drop (4 * i)).take 4
      if ws.isEmpty then s else putGranule s (slotAddr s k l p + 4 * i) ws (ts.getD i false && ws.length == 4)
    let s := (List.range (ss / 4)).foldl put s
    writeSlots k l fuel s (p + 1) (ws.drop ss) (ts.drop (ss / 4))

/-- Writes the slot records of a message at commit (R283, R285). -/
def writeRecords (s : State) (k l p n slots sq chk : Nat) : State :=
  (List.range slots).foldl (fun s i =>
    putGranule s (recAddr s k l (p + i))
      [flag 35 true ||| flag 34 (i == 0) ||| (if i = 0 then field 30 (slots - 1) ||| field 0 n else 0),
       field 0 sq, if i = 0 then field 0 chk else 0, doubleLo s.time] false) s

/-- Clears the slot records of a broken message (R286). -/
def clearRecords (s : State) (k l p slots : Nat) : State :=
  (List.range slots).foldl (fun s i => putGranule s (recAddr s k l (p + i)) [0, 0, 0, 0] false) s

/-- Reads the words of a message of n words at position p. -/
def readSlots (s : State) (k l p n : Nat) : List Word :=
  (List.range n).map fun i => memWord s.mem (slotAddr s k l (p + i / clSS s k) + i % clSS s k)

/-- The granule tags of a message of n words at position p. -/
def readTags (s : State) (k l p n : Nat) : List Bool :=
  (List.range ((n + 3) / 4)).map fun i => memTag s.mem (slotAddr s k l (p + 4 * i / clSS s k) + 4 * i % clSS s k)

/-- Does a word of the message lie in a poisoned granule (R552)? -/
def slotsPoisoned (s : State) (k l p n : Nat) : Bool :=
  (List.range n).any fun i => poisonedAt s.mem (slotAddr s k l (p + i / clSS s k) + i % clSS s k)

/-- A notice before it is put: what R303 says of its header, and the message's words. -/
structure Notice where
  status : Nat
  /-- the sequence number of the message concerned -/
  sq     : Option Nat := none
  len    : Nat := 0
  copied : List Word := []
  who    : Nat := 0

/-- The words of a notice about lane l of class k, cut to room (R303). -/
def noticeWords (s : State) (l k room : Nat) (x : Notice) : List Word :=
  let c := x.copied.take room
  [field 30 x.status ||| field 0 l,
   flag 35 x.sq.isNone ||| field 18 k ||| field 0 (x.sq.getD 0),
   doubleLo s.time, doubleHi s.time, field 0 x.len, field 0 c.length, field 0 x.who, 0] ++ c

/-- Writes a notice about lane l to the reject lane of its class by the put given (R302, R304). A notice about a reject
lane to itself is counted only. -/
def noticeVia (put : State → Nat → List Word → Nat × State) (s : State) (l : Nat) (x : Notice) : State :=
  match classOf s l with
  | none => s
  | some k =>
    let r := clReject s k
    if r = l then laneCount s l 3
    else match classOf s r with
    | none => laneCount s l 3
    | some kr =>
      let (st, s) := put s r (noticeWords s l k (16 * clSS s kr - 8) x)
      if st = stOK then s else classCount (laneCount s l 3) kr 2

/-- The lane unit marks a lane whose descriptor the fence refuses (R551). -/
def faultLane (s : State) (l : Nat) : State :=
  logEvent 6 (unitSource 0o203) { s with lanes := { s.lanes with fault := smSet false s.lanes.fault l true } }

/-- The checks of R289 after STATE: the status, stOK when the put is admitted. A CREDIT above 4,096 is one that puts outside
credit have taken below zero (log 24). -/
def admitPut (s : State) (k : Nat) (x : LaneSt) (n : Nat) : Nat :=
  let slots := slotsFor (clSS s k) n
  if n = 0 ∨ 16 * clSS s k < n then stBadDescriptor
  else if s.power.paddle && !clEss s k then stNoCredit
  else if x.credit < slots ∨ 4096 < x.credit then stNoCredit
  else if clAdmit s k ≠ 0 ∧ clAdmit s k ≤ smGet 0 s.lanes.admitted k then stNoCredit
  else stOK

/-- The class's admission count rises at a reservation (R290). -/
def countAdmission (s : State) (k : Nat) : State :=
  { s with lanes := { s.lanes with admitted := smSet 0 s.lanes.admitted k (smGet 0 s.lanes.admitted k + 1) } }

/-- A message is delivered: it may meet the deadline (R300), and it wakes or readies (08 R249, R256). The deadline stands in
granule 3; where the fence refuses that granule the lane is marked, and faulted reports it (R551). -/
def deliver (faulted : State → State) (s : State) (l : Nat) (x : LaneSt) : State :=
  let done := fun s' : State => pendRise s (laneEvent s' l false) l
  if !x.armed then done (setLane s l x)
  else match descCheck s l 3 0 with
  | .error s' => faulted (done (setLane s' l x))
  | .ok _ =>
    let s := meetWords s [descAddr s l + 12]
    if s.time ≤ laneDeadline s l then
      match descCheck s l 3 1 with
      | .error s' => faulted (done (setLane s' l x))
      | .ok _ => done (setDeadline (setLane s l { x with armed := false }) l 0)
    else done (setLane s l x)

/-- How a put is made: under R289; reserved and then broken, with the status of its notice (R286); or committed outside
credit and outside paddle refusal, as an ABORTED response is (13 R414, 16 R465). -/
inductive PutMode where
  | normal | broken (st : Nat) | force
deriving DecidableEq, Repr

/-- Admission of a put outside credit: the slots must be free in the ring. CREDIT may then fall below zero, modulo 8,192, so
that the sum of R288 holds. DESIGN CHOICE, log 24. -/
def admitForce (s : State) (k : Nat) (x : LaneSt) (n : Nat) : Nat :=
  if n = 0 ∨ 16 * clSS s k < n then stBadDescriptor
  else if 2 ^ clRlog s k < (8192 + x.tail - x.head) % 8192 + slotsFor (clSS s k) n then stNoCredit
  else stOK

/-- A put of a whole message: admission, reservation, write and commit (R285, R289). The status, and the state. -/
def putF : Nat → PutMode → State → Nat → List Word → List Bool → Nat × State
  | 0, _, s, _, _, _ => (stNoCredit, s)
  | fuel + 1, mode, s, l, ws, ts =>
    let notice := noticeVia (fun s l ws => putF fuel .normal s l ws [])
    match classOf s l with
    | none => (stBadDescriptor, s)
    | some k =>
      match descCheck s l 1 0 with
      | .error s => (stBadDescriptor, notice (faultLane s l) l { status := stFence })
      | .ok _ =>
        let s := meetWords s [descAddr s l + 4]
        let x := laneSt s l
        if x.state ≠ lsOpen then (stBadDescriptor, s)
        else
          let n := ws.length
          let st := if mode = .force then admitForce s k x n else admitPut s k x n
          if st ≠ stOK then
            (st, if st = stNoCredit then classCount (laneCount s l 3) k 1 else laneCount s l 3)
          else match descCheck s l 1 1 with
          | .error s => (stBadDescriptor, notice (faultLane s l) l { status := stFence })
          | .ok _ => match ringAdmits s k l with
          | .error s => (stFence, notice (setLane s l { x with state := lsFaulted }) l { status := stFence })
          | .ok _ =>
            let slots := slotsFor (clSS s k) n
            let s := classCount (countAdmission s k) k 0
            let y := { x with resv := (x.resv + slots) % 8192, tail := (x.tail + slots) % 8192,
                              credit := (8192 + x.credit - slots) % 8192, seq := (x.seq + 1) % 262144 }
            match mode with
            | .broken st =>
              let s := clearRecords s k l x.resv slots
              let s := settleLane s k l y
              (stOK, classCount (notice s l { status := st, sq := some x.seq, len := n }) k 3)
            | _ =>
              let s := writeSlots k l 16 s x.resv ws ts
              if clChk s k && slotsPoisoned s k l x.resv n then
                let s := clearRecords s k l x.resv slots
                let s := settleLane s k l y
                (stBadDescriptor, classCount (notice s l { status := stBroken, sq := some x.seq, len := n }) k 3)
              else
                let chk := if clChk s k then foldedCheck l x.seq ws else 0
                let s := writeRecords s k l x.resv n slots x.seq chk
                (stOK, deliver (fun s => notice (faultLane s l) l { status := stFence }) (laneCount s l 0) l y)

/-- A put without tags. -/
def putLane (s : State) (l : Nat) (ws : List Word) : Nat × State := putF 1024 .normal s l ws []

/-- A put outside credit (13 R414, 16 R465). -/
def putForce (s : State) (l : Nat) (ws : List Word) : Nat × State := putF 1024 .force s l ws []

/-- A put with tags (R37, LPUT). -/
def putLaneTags (s : State) (l : Nat) (ws : List Word) (ts : List Bool) : Nat × State := putF 1024 .normal s l ws ts

/-- A reservation that is then broken, with the notice's status (R286). -/
def putBroken (s : State) (l : Nat) (ws : List Word) (st : Nat) : Nat × State := putF 1024 (.broken st) s l ws []

/-- A notice about lane l (R302). -/
def notice (s : State) (l : Nat) (x : Notice) : State := noticeVia putLane s l x

/-- A message about an event of a kind, with its data, on the event lane that Keel designates for that kind (R275, R311): no
rule gives the designation or the words (log 83). -/
def eventMessage (s : State) (kind : Nat) (data : List Nat) : State :=
  let l := (Config.eventLane kind).toNat
  match classOf s l with
  | none => s
  | some k =>
    if clKind s k = 6 then
      (putLane s l ((List.range (1 + Config.eventLength kind % 8)).map (Config.eventWord kind data))).2
    else s

/-- A message at HEAD, as a take finds it. -/
structure Msg where
  words : List Word
  tags  : List Bool
  slots : Nat
  sq    : Nat
deriving DecidableEq, Repr

/-- The lane unit's access to a granule of a lane's descriptor is admitted, or the lane is marked and reported (R551). A read
corrects or poisons what it meets (10 R321, R322). -/
def laneTouch (s : State) (l g dir : Nat) : Bool × State :=
  match descCheck s l g dir with
  | .ok _ => (true, if dir = 0 then meetWords s [descAddr s l + 4 * g] else s)
  | .error s => (false, notice (faultLane s l) l { status := stFence })

/-- The lane unit reads a granule of a lane's descriptor (R280, R551). -/
def laneReach (s : State) (l g : Nat) : Bool × State := laneTouch s l g 0

/-- The lane unit makes accesses to granules of a lane's descriptor, in order: each a granule and a direction. -/
def reachAll (s : State) (l : Nat) (gs : List (Nat × Nat)) : Bool × State :=
  gs.foldl (fun r g => if r.1 then laneTouch r.2 l g.1 g.2 else r) (true, s)

/-- The lane unit writes granule 1, where the fence admits it (R280, R551). -/
def laneStore (s : State) (l : Nat) (x : LaneSt) : State :=
  match laneTouch s l 1 1 with
  | (true, s) => setLane s l x
  | (false, s) => s

/-- The message at a position, as a take reads it, and its status: stOK, or why it may not be delivered (R294, R552). -/
def readMsg (s : State) (k l p : Nat) : Msg × Nat :=
  let r0 := memWord s.mem (recAddr s k l p)
  let sq := bits (memWord s.mem (recAddr s k l p + 1)) 17 0
  let n := bits r0 12 0
  let ws := readSlots s k l p n
  let m : Msg := { words := ws, tags := readTags s k l p n, slots := bits r0 33 30 + 1, sq := sq }
  let chk := bits (memWord s.mem (recAddr s k l p + 2)) 31 0
  (m, if poisonedAt s.mem (recAddr s k l p) || slotsPoisoned s k l p n then stBroken
      else if clChk s k && chk != foldedCheck l sq ws then stCheck else stOK)

/-- The lane unit reads the message at a position: its record, then its words (10 R321, R322). -/
def meetMsg (s : State) (k l p : Nat) : State :=
  let s := meetWords s [recAddr s k l p]
  let n := bits (memWord s.mem (recAddr s k l p)) 12 0
  meetWords s ((List.range n).map fun i => slotAddr s k l (p + i / clSS s k) + i % clSS s k)

/-- A message that may not be delivered is counted and reported: words are copied for CHECK alone (R294, R552). -/
def divertNotice (s : State) (l : Nat) (m : Msg) (st : Nat) : State :=
  notice (laneCount s l 3) l
    { status := st, sq := some m.sq, len := m.words.length, copied := if st = stCheck then m.words else [] }

/-- A message that may not be delivered leaves the ring: HEAD passes it and its slots return to CREDIT (R294, R552). -/
def divert (s : State) (k l : Nat) (x : LaneSt) (m : Msg) (st : Nat) : State :=
  let x := { x with head := (x.head + m.slots) % 8192, credit := x.credit + m.slots }
  let s := meetSkip k l 8192 s x
  let y := skipBroken s k l 8192 x
  divertNotice (offQueue (laneStore s l y) l) l m st

/-- May the lane unit read the ring, or write it (R280)? A lane whose ring the fence refuses at a take is FAULTED, as at a
reservation (R298). DEDUCED, log 75. -/
def ringReach (s : State) (k l : Nat) (x : LaneSt) (dir : Nat) : Except State Unit :=
  match fenceUnit s { cls := 6, dir := dir, p := ringBase s k l, n := ringLen s k } 0o203 with
  | .error s => .error (notice (laneStore s l { x with state := lsFaulted }) l { status := stFence })
  | .ok _ => .ok ()

/-- The message at HEAD, after those that a take must divert (R287, R294, R552). -/
def headMsg (k l : Nat) : Nat → State → Option Msg × State
  | 0, s => (none, s)
  | fuel + 1, s =>
    let x0 := laneSt s l
    if x0.state ≠ lsOpen ∨ x0.head = x0.tail then (none, s)
    else match ringReach s k l x0 0 with
    | .error s => (none, s)
    | .ok _ =>
      let s := meetSkip k l 8192 s x0
      let x := skipBroken s k l 8192 x0
      let s := if x = x0 then s else offQueue (laneStore s l x) l
      if x.head = x.tail then (none, s)
      else
        let s := meetMsg s k l x.head
        let (m, st) := readMsg s k l x.head
        if st = stOK then (some m, s) else headMsg k l fuel (divert s k l x m st)

/-- The message that a pair-checked side takes next: the one at position p, which stands behind the messages that the side
has taken and not yet removed (08 R266). One that may not be delivered is counted and reported at once; behind HEAD its
records are cleared, and HEAD passes it without a take when it gets there, as it passes a broken one (R286, R294, R552).
DEDUCED, log 76. -/
def msgBehind (k l : Nat) : Nat → State → Nat → Option Msg × State
  | 0, s, _ => (none, s)
  | fuel + 1, s, p =>
    let x := laneSt s l
    if p = x.head then headMsg k l 8192 s
    else if p = x.tail then (none, s)
    else match ringReach s k l x 0 with
    | .error s => (none, s)
    | .ok _ =>
      if !slotC s k l p then msgBehind k l fuel s ((p + 1) % 8192)
      else
        let s := meetMsg s k l p
        let (m, st) := readMsg s k l p
        if st = stOK then (some m, s)
        else match ringReach s k l x 1 with
        | .error s => (none, s)
        | .ok _ => msgBehind k l fuel (divertNotice (clearRecords s k l p m.slots) l m st) ((p + m.slots) % 8192)

/-- The message at HEAD of a lane, which the lane unit may remove (R287, R551). -/
def laneHead (s : State) (l : Nat) : Option Msg × State :=
  match classOf s l with
  | none => (none, s)
  | some k =>
    match headMsg k l 8192 s with
    | (none, s) => (none, s)
    | (some m, s) =>
      match laneTouch s l 1 1 with
      | (true, s) => (some m, s)
      | (false, s) => (none, s)

/-- A take removes the message at HEAD (R291, R295). give returns its slots to CREDIT at once, as a hardware consumer does;
otherwise they go to TAKEN. -/
def takeMsg (s : State) (l : Nat) (m : Msg) (give : Bool) : State :=
  match classOf s l with
  | none => s
  | some k =>
    let x := laneSt s l
    let s := if x.tseq = m.sq then s else gapCount s l
    let y := { x with head := (x.head + m.slots) % 8192, tseq := (m.sq + 1) % 262144,
                      taken := if give then x.taken else x.taken + m.slots,
                      credit := if give then x.credit + m.slots else x.credit }
    laneCount (offQueue (settleLane s k l y) l) l 1

/-- The first read of a message's slots that the fence refuses to an Ethernet port (11 R353, R358), and its kind: n words
from position p. -/
def portRefusal (s : State) (k l p n : Nat) : Option (FenceReq × Nat) :=
  let ss := clSS s k
  (List.range (slotsFor ss n)).findSome? fun i =>
    let r : FenceReq := { cls := 5, dir := 0, p := slotAddr s k l (p + i), n := min ss (n - i * ss) }
    match fenceCheck s r with
    | .ok _ => none
    | .error e => some (r, e)

/-- May a unit take from a class now: it is the class's consumer (R275, R276), and in paddle mode the class has ESS (R313,
14 R435)? -/
def unitServes (s : State) (u k : Nat) : Bool :=
  hwKind (clKind s k) && clUnit s k == u && (!s.power.paddle || clEss s k)

/-- The open lanes with a delivered message that a unit may serve, each with its class: the lane unit knows them without a
read of their descriptors, as it knows the pend bits (DEDUCED, log 75). -/
def servable (s : State) (u : Nat) : List (Nat × Nat) :=
  ((classesOf s).filter (unitServes s u)).flatMap fun k =>
    (((List.range (clCount s k)).map (clFirst s k + ·)).filter fun l =>
      let x := laneSt s l
      x.state == lsOpen && x.head != x.tail).map fun l => (l, k)

/-- Is lane l of class k the one that a unit serves next (R553, 12 R378, 14 R422): none of a higher class PRIO waits, and in the
round of the lanes of equal PRIO none stands between the one served last and it? -/
def servesNext (s : State) (u l k : Nat) : Bool :=
  let xs := servable s u
  let last := smGet 65535 s.lanes.served (8 * u + clPrio s k)
  let turn := fun a => (65536 + a - last - 1) % 65536
  xs.all fun e => decide (clPrio s e.2 < clPrio s k) || (clPrio s e.2 == clPrio s k && decide (turn l ≤ turn e.1))

/-- A unit has served lane l of class k. -/
def noteServed (s : State) (u l k : Nat) : State :=
  { s with lanes := { s.lanes with served := smSet 65535 s.lanes.served (8 * u + clPrio s k) l } }

/-- The message that a unit takes from a lane, with the lane's class: the unit is its consumer and the lane's turn has come
(R275, R276, R553). The message is still on the lane. -/
def unitHead (s : State) (u l : Nat) : Option (Msg × Nat) × State :=
  match classOf s l with
  | none => (none, s)
  | some k =>
    if unitServes s u k && servesNext s u l k then
      match laneReach s l 1 with
      | (false, s) => (none, s)
      | (true, s) =>
        if (laneSt s l).state = lsOpen then
          match laneHead s l with
          | (some m, s) => (some (m, k), s)
          | (none, s) => (none, s)
        else (none, s)
    else (none, s)

/-- The message an Ethernet port takes from its lane (R291). The port reads the slots in the network class (11 R353); a
message it may not read stays on the lane (DESIGN CHOICE, log 64). -/
def hwTake (s : State) (u l : Nat) : Option Msg × State :=
  match unitHead s u l with
  | (none, s) => (none, s)
  | (some (m, k), s) =>
    let s := noteServed s u l k
    match portRefusal s k l (laneSt s l).head m.words.length with
    | some (r, e) => (none, fenceRecord s r u e)
    | none => (some m, takeMsg (unitCount s u 0 1) l m true)

/-- A lane that still holds a delivered message rejoins the tail of its queue (08 R249). -/
def rejoinLane (s : State) (l : Nat) : State :=
  let x := laneSt s l
  if x.state = lsOpen ∧ (x.head ≠ x.tail ∨ x.tof) then readyLane s l else s

/-- A hardware producer's message: put, or held for a lane that has no credit (R292). -/
def putOrHold (s : State) (u : Nat) (ch : Option Nat) (req : Option LaneNo) (l : Nat) (ws : List Word) : Nat × State :=
  let (st, s) := putLane s l ws
  if st = stNoCredit then
    (st, unitCount { s with lanes := { s.lanes with held :=
      s.lanes.held ++ [{ lane := BitVec.ofNat 16 l, unit := u, channel := ch, words := ws, req := req }] } } u 6 1)
  else (st, s)

end Sys2Proof.Machine
end

