-- ==== Sys2Proof/Machine/Acts.lean ====
section
/-! DEFINITION. Activations (08): their end, stowing and restoring, pair checking, check stop (07 R234, R235), and paddle
entry (16 R464). -/

namespace Sys2Proof.Machine

/-- What follows the end of a lane's activation: a CLOSING lane becomes CLOSED (09 R297), another rejoins its queue if it
still holds a delivered message (08 R249). -/
def laneEnded (s : State) (l : Nat) : State :=
  let (ok, s) := laneReach s l 1
  if !ok then s
  else
    let x := laneSt s l
    if x.state = lsClosing ∧ !laneLive s l then laneStore s l { x with state := lsClosed } else rejoinLane s l

/-- The lane awaited no longer has an activation blocked on it. -/
def clearWait (s : State) (l : Nat) : State :=
  let (ok, s) := laneReach s l 1
  if ok && (laneSt s l).wait then laneStore s l { laneSt s l with wait := false } else s

/-- A notice that an activation of seat q has ended: it names the last message that the activation took (R303). -/
def endNotice (st q : Nat) (last : Option (Nat × Nat)) : Notice :=
  { status := st, sq := last.map Prod.fst, len := (last.map Prod.snd).getD 0, who := q }

/-- The save sets that name bank b are no longer OCCUPIED (05 R165, 07 R236). -/
def clearSets (x : Seat) (b : Nat) : Seat :=
  let f := fun v : SaveSet => if saveBank v = b then clearOcc v else v
  { x with svStroke := f x.svStroke, svBow := f x.svBow, svM := f x.svM }

/-- An activation in bank b of seat q ends with a notice of status st, or none when st is 0 (05 R165, 08 R256, 09 R302). A
seat that ran the bank is handed back to its cox and takes up its next READY bank. A bank that was being stowed goes to the
post that waited for it, and one that was being restored leaves the stow engine. -/
def endBank (s : State) (q b st : Nat) : State :=
  let v := getBank (getSeat s q) b
  if v.st = .free then s
  else
    let l := v.lane.toNat
    let s := if (v.st = .blocked ∨ v.st = .stowing) ∧ !v.abortTake then clearWait s v.waitLane.toNat else s
    let s := if st = 0 then s else notice s l (endNotice st q v.lastMsg)
    let s := modSeatR s q fun x =>
      let x := clearSets x b
      if x.status.bank = b then { x with idle := true } else x
    let s := freeBank s q b
    let s := match jobOn (getSeat s q) b with
      | some j =>
        if v.st = .stowing then postAfterStow s q j
        else if v.st = .restoring then modSeatR s q fun x => dropJob x b
        else s
      | none => s
    selectBank (laneEnded s l) q

/-- A stowed activation ends without a restore: its wake pick, queued, picked or relayed, and its wait are dropped (08 R261). -/
def endStowed (s : State) (e : Stowed) (st : Nat) : State :=
  let gone := fun x : LaneNo × Bool => !(x.2 && x.1 == e.lane)
  let ls := { s.lanes with
    stowed := s.lanes.stowed.filter fun y => y.lane != e.lane,
    ready := (s.lanes.ready.map fun r => (r.1, r.2.filter gone)).filter fun r => !r.2.isEmpty }
  let drop := fun c : Cox => { c with
    picks := c.picks.filter fun p => !(p.stowed && p.lane == e.lane),
    relays := c.relays.filter fun r => !(bit (field 0 r.1.toNat) 16 && bits (field 0 r.1.toNat) 15 0 == e.lane.toNat) }
  let s := (List.range 11).foldl (fun s x => modCox s x drop) { s with lanes := ls }
  let s := if e.aborted then s else clearWait s e.waitLane.toNat
  let s := if st = 0 then s else notice s e.lane.toNat (endNotice st e.seat e.lastMsg)
  laneEnded s e.lane.toNat

/-- A request made at M of the S/M-seat class (11 R554). -/
def atMReq (dir p n : Nat) (tagged : Bool) : FenceReq :=
  { cls := 0, dir := dir, p := p, n := n, tagged := tagged, atM := true }

/-- The words of a stow from offset 0o104 to 0o177 (R259). -/
def stowWords (v : Bank) (q b : Nat) (wide : Bool) : List Word :=
  ((List.range 31).map fun i => bankW v (i + 1)) ++
    [flag 35 true ||| flag 34 wide ||| field 27 q ||| field 24 b ||| (statusWord v.status &&& 0o17777),
     v.ctx, v.xctx, v.xretPc, v.xretDb, v.ringLink, v.progress, v.tbHi, field 0 v.waitLane.toNat] ++
    List.replicate 20 0

/-- The capabilities of a stow from offset 0o004: PCC, then c1 to c15 (R259). -/
def stowCaps (v : Bank) : List Cap := v.pcc :: (List.range 15).map fun i => bankC v (i + 1)

/-- The first granule of a list of writes that the fence refuses, as a stow (R258, R262). -/
def stowRefused (s : State) (a : Nat) (tags : List Bool) : Option Nat :=
  ((List.range tags.length).find? fun i =>
    match fenceCheck s (atMReq 1 (a + 4 * i) 4 (tags.getD i false)) with
    | .ok _ => false
    | .error _ => true).map fun i => a + 4 * i

/-- Writes a bank's state into its stow area (R258 to R260), as the seat's own accesses (06 R208): the state, or the physical
address of the first access the fence refuses. -/
def stowBank (s : State) (q b : Nat) : Except Nat State :=
  let x := getSeat s q
  let v := getBank x b
  let a := stowRef s v.lane.toNat
  let wide := x.wideOwned && x.wideOwner == b
  let cs := stowCaps v
  let ws := stowWords v q b wide
  let vs := if wide then smGetList 0 x.wide 0 128 else []
  match stowRefused s (a + 4) (cs.map Cap.tag ++ List.replicate ((ws.length + vs.length) / 4) false) with
  | some p => .error p
  | none =>
    let s := (List.range cs.length).foldl (fun s i =>
      let c := cs.getD i {}
      viewPut s q (a + 4 + 4 * i) (capWords c) c.tag) s
    let s := viewPutRun s q (a + 0o104) (ws ++ vs)
    .ok (if wide then modSeat s q fun x => { x with wide := [], wideOwned := false } else s)

/-- The stowed activation that a stow leaves (R261, R263). -/
def stowedOf (v : Bank) (q b : Nat) : Stowed :=
  { lane := v.lane, seat := q, prio := b, waitLane := v.waitLane, since := v.since, offFor := 0, lastMsg := v.lastMsg,
    det := v.status.det, aborted := v.abortTake, old := v.old }

/-- What a restore by seat q meets in the stow area of lane l, where the fence admits its reads (10 R321, R322). -/
def stowMeets (s : State) (q l : Nat) : State :=
  viewMeets s (some q)
    (((List.range 64).map fun i => stowRef s l + 4 * i).filter fun a => (fenceCheck s (atMReq 0 a 4 false)).isOk)

/-- A restore reads the stow area back into bank b (R261), as the seat's own accesses (06 R208), the wide file only when the
seat has none in use (R260): the state, or the address of a failing access. It fails when the area is not valid or names
another seat or priority (R262). PCC takes no capability without EX (02 R33; log 89). -/
def restoreBank (s : State) (q b l : Nat) (since : Nat) (last : Option (Nat × Nat)) (old : Bool) : Except Nat State :=
  let a := stowRef s l
  let word := fun i => viewWord s (some q) (a + i)
  let st := word 0o143
  let wide := bit st 34 && !(getSeat s q).wideOwned
  let refused := (List.range (if wide then 63 else 31)).find? fun i =>
    (match fenceCheck s (atMReq 0 (a + 4 + 4 * i) 4 false) with | .ok _ => false | .error _ => true)
      || viewPoisoned s (some q) (a + 4 + 4 * i)
  let clear := match fenceCheck s (atMReq 1 (a + 0o140) 4 false) with | .ok _ => true | .error _ => false
  match refused with
  | some i => .error (a + 4 + 4 * i)
  | none =>
    if !(bit st 35 && bits st 33 27 == q && bits st 26 24 == b && clear) then .error (a + 0o143)
    else
      let cap := fun i => viewCap s (some q) (a + 4 + 4 * i)
      let w := fun i => word (0o104 + i)
      let v : Bank := {
        w := smSetList 0 [] 1 ((List.range 31).map w),
        c := smSetList {} [] 1 ((List.range 15).map fun i => cap (i + 1)),
        pcc := asPcc (cap 0), ctx := mkCtx (bits (w 32) 35 20) (bits (w 32) 6 0),
        xctx := w 33 &&& 0o777774001577, xretPc := w 34, xretDb := w 35,
        ringLink := w 36 &&& 0o37777, progress := w 37,
        tbHi := w 38, st := .ready, lane := BitVec.ofNat 16 l, status := statusOf st, since := since,
        waitLane := BitVec.ofNat 16 (w 39).toNat, lastMsg := last, old := old }
      let ws := (List.range 128).map fun i => word (0o200 + i)
      let s := viewPut s q (a + 0o140) [w 28, w 29, w 30, st &&& ~~~(flag 35 true)] false
      .ok (modSeatR s q fun x =>
        let x := setBank x b v
        if wide then
          { x with wide := smSetList 0 [] 0 ws, wideOwned := true, wideOwner := b } else x)

/-- The pair buffer i of the leaf cox of home code c (08 R264). -/
def getPair (s : State) (c i : Nat) : PairBuf := smGet {} (getCox s c).pairs i

/-- The state with a pair buffer written. -/
def setPair (s : State) (c i : Nat) (b : PairBuf) : State :=
  modCox s c fun x => { x with pairs := smSet {} x.pairs i b }

/-- The cox performs one output of a pair-checked activation (08 R266, R267): a store as the seat that made it, a message's
removal when it still stands at HEAD. A doorbell delivered counts for its seat (15 R444). -/
def performOut (s : State) (o : PairOut) : State :=
  match o.kind with
  | 0 => physWrite s ⟨o.cls, false⟩ o.addr o.words
  | 1 =>
    if isSystem o.addr || isHost o.addr then physWrite s ⟨o.cls, false⟩ o.addr o.words
    else putGranule s o.addr o.words (o.tags.getD 0 false)
  | 2 => (putLaneTags s o.addr o.words o.tags).2
  | 3 =>
    let (ok, s) := laneReach s o.addr 1
    let x := laneSt s o.addr
    let k := (o.words.getD 0 0).toNat
    if ok ∧ x.state = lsOpen ∧ k ≤ x.taken then laneStore s o.addr { x with taken := x.taken - k, credit := x.credit + k } else s
  | 4 =>
    let (st, s) := putLane s o.addr o.words
    match (List.range 72).find? fun n => smGet 65536 s.lanes.doorbell n == o.addr with
    | some n => if st = stOK then seatCount s n 118 else s
    | none => s
  | _ =>
    let (ok, s) := laneReach s o.addr 1
    let x := laneSt s o.addr
    let sq := (o.words.getD 1 0).toNat
    match classOf s o.addr with
    | none => s
    | some k =>
      if ok ∧ x.state = lsOpen ∧ x.head ≠ x.tail then
        match ringReach s k o.addr x 0 with
        | .error s => s
        | .ok _ =>
          if bits (memWord s.mem (recAddr s k o.addr x.head + 1)) 17 0 = sq then
            match laneTouch s o.addr 1 1 with
            | (true, s) => takeMsg s o.addr { words := [], tags := [], slots := (o.words.getD 0 0).toNat, sq := sq } false
            | (false, s) => s
          else s
      else s

/-- The bank of a seat that still runs the pair-checked activation of a lane. -/
def pairBank (s : State) (q l : Nat) : Option Nat :=
  ((getSeat s q).banks.find? fun b => b.2.st != .free && b.2.role != .none && b.2.lane.toNat == l).map fun b => b.1

/-- Takes the activation off a seat of its pair, without a notice; a post of it that still waits for its bank brings nothing. -/
def dropSide (s : State) (l q : Nat) : State :=
  let s := modSeat s q fun x =>
    { x with stow := x.stow.map fun j => if j.role ≠ .none ∧ j.lane.toNat = l then { j with void := true } else j }
  match pairBank s q l with
  | none => s
  | some b =>
    let s := modSeatR s q fun x =>
      let x := clearSets x b
      if x.status.bank = b then { x with idle := true } else x
    selectBank (freeBank s q b) q

/-- PAIR_MISMATCH falls due on a seat (08 R268, 07 R227). -/
def mismatchTo (s : State) (l q : Nat) : State :=
  modSeat s q fun x => { x with pendPair := x.pendPair ++ [BitVec.ofNat 16 l] }

/-- The sequence number and the full length of the last message that a side has taken (09 R303). -/
def takenLast (os : List PairOut) : Option (Nat × Nat) :=
  ((os.filter fun o => o.kind == 5).getLast?).map fun o => ((o.words.getD 1 0).toNat, o.len)

/-- A pair-checked activation ends on every seat of its triple; st is the status of the notice, 0 for none (08 R268). The
notice names the last message that a side took, and seat A (09 R303; log 79). -/
def endPair (s : State) (c i st : Nat) : State :=
  let p := getPair s c i
  let l := p.lane.toNat
  let last := takenLast p.outA <|> takenLast p.outB <|> takenLast p.outR
  let s := dropSide (dropSide (dropSide s l p.seatA) l p.seatB) l p.ref
  let s := setPair s c i {}
  let s := if st = 0 then s else notice s l (endNotice st p.seatA last)
  laneEnded s l

/-- The cox performs a list of outputs in order, then the activation ends (08 R267). -/
def performPair (s : State) (c i : Nat) (os : List PairOut) : State :=
  endPair (os.foldl performOut s) c i 0

/-- An accepted post: a FREE bank becomes POSTED or is restored, a BLOCKED one is stowed first (08 R256). The stow engine does
one job after another. old says that the activation was posted before a switch boundary (18 R515). -/
def acceptPost (s : State) (q p : Nat) (lane : LaneNo) (stowed : Bool) (role : PairRole) (partner buf : Nat) (old : Bool) :
    State :=
  modSeatR s q fun x =>
    let b := getBank x p
    if b.st = .blocked then
      { setBank x p { b with st := .stowing } with
          stow := x.stow ++ [{ bank := p, stowing := true, lane := lane, stowed := stowed, since := s.time, role := role,
                               partner := partner, buf := buf, old := old }] }
    else if stowed then
      { setBank x p { b with st := .restoring, lane := lane, abortTake := false, old := false } with
          stow := x.stow ++ [{ bank := p, stowing := false, lane := lane, stowed := true, since := s.time }] }
    else setBank x p { b with st := .posted, lane := lane, role := role, partner := partner, pairBuf := buf,
                              since := s.time, lastMsg := none, abortTake := false, old := old }

/-- The activation goes to the referee, at once or at a later stroke boundary (08 R267). -/
def postReferee (s : State) (c i : Nat) : State :=
  let p := getPair s c i
  if p.toRef && !p.refOn && postable (getSeat s p.ref) p.prio then
    setPair (acceptPost s p.ref p.prio p.lane false .referee p.seatA i p.old) c i { p with refOn := true }
  else s

/-- The lists of A and B are withheld and the referee is to run (08 R267). -/
def toReferee (s : State) (c i : Nat) : State :=
  let p := getPair s c i
  postReferee (coxCount (setPair s c i { p with toRef := true }) c 12) c i

/-- A list of outputs as a comparison takes it: word by word, with address, lane and tag (08 R267). How a long store's words
came to the buffer, whole or in parts (05 R158), makes no difference. -/
def pairItems (os : List PairOut) : List PairOut :=
  os.flatMap fun o =>
    if o.kind ≤ 1 then (List.range o.words.length).map fun i =>
      { o with kind := 0, addr := o.addr + i, words := [o.words.getD i 0], tags := [o.tags.getD 0 false], waits := [] }
    else [o]

/-- The referee's list is compared with those of A and B (08 R268). A side in check stop, or one that has not ended, has
produced no list. Of a referee that agrees with both, as when the late side has ended meanwhile, R268 says nothing: its
outputs are performed, and no seat gets PAIR_MISMATCH. DESIGN CHOICE, log 117. -/
def refereeCompare (s : State) (c i : Nat) : State :=
  let p := getPair s c i
  let okA := p.doneA && !p.badA && decide (pairItems p.outA = pairItems p.outR)
  let okB := p.doneB && !p.badB && decide (pairItems p.outB = pairItems p.outR)
  let l := p.lane.toNat
  if p.badR || (!okA && !okB) then
    endPair (mismatchTo (mismatchTo (mismatchTo s l p.seatA) l p.seatB) l p.ref) c i stBroken
  else
    let s := if okA then s else mismatchTo s l p.seatA
    let s := if okB then s else mismatchTo s l p.seatB
    performPair s c i p.outR

/-- What the cox does once a side has ended or stopped (08 R265 to R268). -/
def pairStep (s : State) (c i : Nat) : State :=
  let p := getPair s c i
  if p.doneR then coxWake (refereeCompare s c i) c
  else if p.toRef then s
  else if p.badA || p.badB then toReferee s c i
  else if p.doneA && p.doneB then
    let s := coxWake (coxCount s c 11) c
    if pairItems p.outA = pairItems p.outB then performPair s c i p.outA else toReferee s c i
  else s

/-- A side of a pair ends: its outputs are in its buffer, or it is bad (check stop). The pair wait starts (08 R265). -/
def sideEnded (s : State) (c i : Nat) (role : PairRole) (bad : Bool) : State :=
  let p := getPair s c i
  let p := { p with waitFrom := some (p.waitFrom.getD s.time) }
  let p := match role with
    | .seatA => { p with doneA := true, badA := p.badA || bad }
    | .seatB => { p with doneB := true, badB := p.badB || bad }
    | .referee => { p with doneR := true, badR := p.badR || bad }
    | .none => p
  pairStep (setPair s c i p) c i

/-- A seat in check stop whose side of a pair has ended already: the side is compared as having produced no list, too (08 R267,
R268). -/
def endedSides (s : State) (q : Nat) : State :=
  let c := leafOf q
  (List.range 8).foldl (fun s i =>
    let p := getPair s c i
    if p.used && p.doneA && !p.badA && p.seatA == q then sideEnded s c i .seatA true
    else if p.used && p.doneB && !p.badB && p.seatB == q then sideEnded s c i .seatB true
    else s) s

/-- The outputs a side holds. -/
def sideOuts (p : PairBuf) : PairRole → List PairOut
  | .seatA => p.outA
  | .seatB => p.outB
  | .referee => p.outR
  | .none => []

/-- The lanes that an old activation holds, in a bank, stowed, awaiting its bank, or in a pair buffer (18 R515). -/
def oldLanes (s : State) : List Nat :=
  (s.seats.flatMap fun e => ((e.2.banks.filter fun b => b.2.st != .free && b.2.old).map fun b => b.2.lane.toNat)
      ++ (e.2.stow.filter fun j => !j.void && !j.stowed && j.old).map fun j => j.lane.toNat)
    ++ ((s.lanes.stowed.filter fun e => e.old).map fun e => e.lane.toNat)
    ++ s.coxes.flatMap fun e => (e.2.pairs.filter fun b => b.2.used && b.2.old).map fun b => b.2.lane.toNat

/-- The machine with the class table that an activation was posted under: until the drain ends, the standby copy holds the
table from before the switch (18 R514, R515). -/
def classesFor (s : State) (old : Bool) : State :=
  if old && s.boot.phase == 4 && s.boot.impNew then { s with lanes := { s.lanes with cls := s.lanes.clsSb } } else s

/-- The words a list of outputs holds (08 R266, R268). -/
def outWords (os : List PairOut) : Nat := os.foldl (fun n o => n + o.words.length) 0

/-- An output goes to the seat's side of its pair buffer, unless the side would pass 256 words: nothing more goes there then
(08 R266, R268). -/
def pairPush (s : State) (q : Nat) (o : PairOut) : State :=
  let v := curBank (getSeat s q)
  let c := leafOf q
  let p := getPair s c v.pairBuf
  let os := sideOuts p v.role ++ [o]
  if p.full ∨ 256 < outWords os then setPair s c v.pairBuf { p with full := true }
  else setPair s c v.pairBuf (match v.role with
    | .seatA => { p with outA := os }
    | .seatB => { p with outB := os }
    | .referee => { p with outR := os }
    | .none => p)

/-- Has the seat's side of its pair buffer passed 256 words? -/
def pairOver (s : State) (q : Nat) : Bool :=
  let v := curBank (getSeat s q)
  v.role != .none && (getPair s (leafOf q) v.pairBuf).full

/-- A side over 256 words ends the activation BROKEN on every seat of the triple, and the cox counts it (08 R268). -/
def pairOverflow (s : State) (q : Nat) : State :=
  endPair (coxCount s (leafOf q) 13) (leafOf q) (curBank (getSeat s q)).pairBuf stBroken

/-- A live bank ends: a pair-checked one with every seat of its triple, another alone; one that is being restored ends as
the stowed activation that it is (07 R237, 08 R261, R268). -/
def endLive (s : State) (q b st : Nat) : State :=
  let v := getBank (getSeat s q) b
  if v.st = .free then s
  else if v.st = .restoring then
    let s := endBank s q b 0
    match s.lanes.stowed.find? fun e => e.lane == v.lane with
    | some e => endStowed s e st
    | none => s
  else if v.role = .none then endBank s q b st
  else endPair s (leafOf q) v.pairBuf st

/-- Does a lane belong on its ready queue: the wake pick of a stowed activation does; another lane, while it holds a message or
an event, has no live activation, and none is blocked on it (08 R248, R249)? -/
def mayQueue (s : State) (l : Nat) (stowed : Bool) : Bool :=
  !laneQueued s l && (stowed || (laneHolds s l && !laneLive s l && !laneAwaited s l))

/-- The banks that hold an activation of a lane. -/
def actBanks (s : State) (l : Nat) : List (Nat × Nat) :=
  s.seats.flatMap fun e => (e.2.banks.filter fun b => b.2.st != .free && b.2.lane.toNat == l).map fun b => (e.1, b.1)

/-- Does the OCCUPIED M set of the seat name the bank (07 R237)? -/
def mNamed (s : State) (qb : Nat × Nat) : Bool :=
  let x := getSeat s qb.1
  occupied x.svM && saveBank x.svM == qb.2

/-- M has left bank b of seat q, whose way-enough waits: the abort completes once M has left every bank of the activation, and
until then the seat is its cox's (07 R236, R237). -/
def leaveAborted (s : State) (q b : Nat) : State :=
  if (actBanks s (getBank (getSeat s q) b).lane.toNat).any (mNamed s) then
    selectBank (modSeatR s q fun x => { x with idle := true }) q
  else endLive s q b stAborted

/-- A lane returns to the head of its ready queue, where it still belongs there (08 R248 to R250, R262). -/
def returnHead (s : State) (home pend : Nat) (e : LaneNo × Bool) : State :=
  if mayQueue s e.1.toNat e.2 then readySet s home pend (e :: readyGet s home pend) else s

/-- The lane of a refused post, or of a wake pick that has lost its seat, returns to the head of its ready queue, and the cox
that offers it leaves IDLE (08 R243, R250, R262). -/
def pushHead (s : State) (l : Nat) (stowed : Bool) : State :=
  match classOf s l with
  | none => s
  | some k => coxWake (returnHead s (clHome s k) (clPend s k) (BitVec.ofNat 16 l, stowed)) (clHome s k)

/-- The activation of an accepted post that still waits for its bank ends with a notice of status st (08 R249, R256). -/
def endPosted (s : State) (q : Nat) (j : StowJob) (st : Nat) : State :=
  laneEnded (notice s j.lane.toNat { status := st, who := q }) j.lane.toNat

/-- The posts that wait for the stow engine of a seat lose their seat: the engine stops, and each meets its end. -/
def dropPosts (s : State) (q : Nat) (one : State → StowJob → State) : State :=
  let js := (getSeat s q).stow.filter fun j => j.stowing && !j.void
  js.foldl one (modSeat s q fun x => { x with stow := [] })

/-- The banks of a seat, 0 to 7. -/
def allBanks : List Nat := [0, 1, 2, 3, 4, 5, 6, 7]

/-- What the lane unit does once the stow of bank b has ended, v the bank as it was: an event that came on the awaited lane
meanwhile is not lost (08 R249). A closure wakes this activation alone: back in its bank where the stow failed, else stowed
(05 R175). -/
def lateEvent (s : State) (q b : Nat) (v : Bank) (failed : Bool) : State :=
  let l := v.waitLane.toNat
  if v.abortTake then (if failed then wakeBank s q b true else wakeStowed s v.lane.toNat)
  else
    let (ok, s) := laneReach s l 1
    let x := laneSt s l
    if ok && laneHolds s l then wakeAll (if x.wait then laneStore s l { x with wait := false } else s) l false else s

/-- The trigger bits of PADDLE_ST (16 R461). -/
def triggerBits (p : Power) : Nat :=
  (if p.feedT then 1 else 0) + (if p.thermalT then 2 else 0) + (if p.checkstopT then 4 else 0)
    + (if p.monitorT then 8 else 0) + (if p.holdT then 16 else 0) + (if p.commandT then 32 else 0)
    + (if p.keelT then 64 else 0)

/-- The seats that the paddle crew's position map names (16 R454); 72 stands for no seat. -/
def mapSeat (s : State) (c p : Nat) : Nat := smGet (9 * (c - 3) + p) (getCox s c).map p

/-- Is seat q named by the paddle crew's position map? -/
def paddleSeat (s : State) (q : Nat) : Bool := (List.range 8).any fun p => mapSeat s s.power.crew p == q

/-- At paddle entry a bank that runs or could run, or that a save set names, ends ABORTED (16 R464). -/
def offAbort (q : Nat) (s : State) (b : Nat) : State :=
  let x := getSeat s q
  let st := (getBank x b).st
  let named := (occupied x.svStroke && saveBank x.svStroke == b)
    || (occupied x.svBow && saveBank x.svBow == b) || (occupied x.svM && saveBank x.svM == b)
  if bankAsks st || st == .restoring || named then endLive s q b stAborted else s

/-- At paddle entry a BLOCKED bank is stowed; a stow that faults ends its activation BROKEN (16 R464, R465). -/
def offStow (q : Nat) (s : State) (b : Nat) : State :=
  let v := getBank (getSeat s q) b
  if v.st = .blocked ∨ v.st = .stowing then
    let (ok, s) := laneReach s v.lane.toNat 3
    match if ok then stowBank s q b else .error 0 with
    | .ok s =>
      let s := { s with lanes := { s.lanes with stowed := s.lanes.stowed ++ [stowedOf v q b] } }
      lateEvent (freeBank (seatCount s q 31) q b) q b v false
    | .error _ => endLive s q b stBroken
  else s

/-- At paddle entry a post that still waits for its bank loses its seat: a pair's ends, a wake pick returns to its queue, and
another ends ABORTED (16 R464). -/
def offPost (q : Nat) (s : State) (j : StowJob) : State :=
  if j.role ≠ .none then endPair s (leafOf q) j.buf stAborted
  else if j.stowed then pushHead s j.lane.toNat true
  else endPosted s q j stAborted

/-- A seat outside the paddle crew at paddle entry (16 R464, R465): its posts and banks meet their ends, and the seat switches
off. A bank that a notice of these ends has woken could run, so it is looked at again. -/
def paddleSeatOff (s : State) (q : Nat) : State :=
  let pass := fun s : State => allBanks.foldl (offStow q) (allBanks.foldl (offAbort q) s)
  modSeat (settleSeat (pass (pass (dropPosts s q (offPost q)))) q) q fun x =>
    { x with powered := false, idle := true, stow := [] }

/-- The engine units that paddle mode keeps: PL0, CI0, DG0 and the compositors (16 R454). -/
def paddleUnit (u : Nat) : Bool :=
  u == 0o100 || u == 0o140 || u == 0o160 || decide (u < 0o100)

/-- The words of an engine's response (12 R376): only OK carries result words, and a compositor's CHECK its records
(14 R433). -/
def responseWords (j : Job) : List Word :=
  let r := if j.status = stOK ∨ (j.op = 0o400 ∧ j.status = stCheck) then j.result else []
  [field 30 j.status ||| field 18 j.op ||| field 0 j.lane.toNat, j.reqId,
   field 16 j.detail ||| field 0 r.length, field 0 j.unit] ++ r

/-- Counts a completion of a unit (15 R444). -/
def completeCount (s : State) (u st : Nat) : State :=
  let s := unitCount s u (if st = stOK then 1 else 2) 1
  if st = stAborted then unitCount s u 4 1 else s

/-- A job ends ABORTED: no result, its response committed outside credit (12 R384, R388, 16 R465). -/
def abortJob (s : State) (j : Job) : State :=
  let s := { s with engines := { s.engines with jobs := s.engines.jobs.erase j } }
  completeCount (putForce s j.rlane.toNat
    (responseWords { j with status := stAborted, detail := 0, result := [] })).2 j.unit stAborted

/-- Is a held message the response of a custody operation (12 R389)? -/
def heldCustody (h : Held) : Bool :=
  let op := bits (h.words.getD 0 0) 29 18
  decide (0o240 ≤ op) && decide (op ≤ 0o245)

/-- A response that its engine holds gives way to one with status ABORTED and no result, outside credit (09 R292,
R315; log 65). -/
def abortHeldResponse (s : State) (h : Held) : State :=
  let w := fun i => h.words.getD i 0
  let ws := [field 30 stAborted ||| (w 0 &&& 0o007777777777), w 1, 0, w 3]
  unitCount (putForce { s with lanes := { s.lanes with held := s.lanes.held.erase h } } h.lane.toNat ws).2 h.unit 4 1

/-- An engine that paddle mode switches off gives up a message that it holds (16 R465): a custody operation's response, whose
operation is done, commits as it is, and every other ends ABORTED, both outside credit (log 65). -/
def offHeld (s : State) (h : Held) : State :=
  if heldCustody h then
    (putForce { s with lanes := { s.lanes with held := s.lanes.held.erase h } } h.lane.toNat h.words).2
  else abortHeldResponse s h

/-- The engines that paddle mode switches off: their jobs in progress end ABORTED, and they hold no message (16 R464,
R465). A response that is held is older than those of the jobs of its request lane, and commits before them (12 R378). -/
def enginesOff (s : State) : State :=
  let s := (s.lanes.held.filter fun h => !paddleUnit h.unit && decide (h.unit < 0o200)).foldl offHeld s
  (s.engines.jobs.filter fun j => !paddleUnit j.unit).foldl abortJob s

/-- The domains that paddle mode switches off, beside the seats, in the order of R454: platens 115 to 138, cipher engines
139 to 146, digest engines 147 to 162. -/
def paddleDomains : List Nat :=
  ((List.range 23).map (116 + ·)) ++ ((List.range 7).map (140 + ·)) ++ (List.range 15).map (148 + ·)

/-- Switches domains off. The units in them count up to then (15 R437). -/
def domainsOff (s : State) (ds : List Nat) : State :=
  let s := (unitCodes.filter fun u => ds.contains (unitDomain u)).foldl settleUnit s
  { s with power := { s.power with domOff := ds.foldl (fun m d => smSet false m d true) s.power.domOff } }

/-- Is ERR_N low: a feed not GOOD, a monitor out of range, a seat in check stop (16 R468), or a boot that has stopped (18
R505)? -/
def errLow (s : State) : Bool :=
  let p := s.power
  p.feedA != .good || p.feedB != .good || !p.railOut.isEmpty || !p.droopOut.isEmpty
    || s.seats.any (fun e => e.2.checkStop.isSome) || (decide (3 ≤ s.boot.result) && decide (s.boot.result ≤ 7))

/-- The state after a change, with vector 1 signalled when ERR_N has become low (19 R537). -/
def errEdge (s t : State) : State := if !errLow s && errLow t then signalHost t 1 else t

/-- Paddle entry (16 R464, R465). -/
def paddleEntry (s : State) : State :=
  let s := signalHost s 2
  let p := { s.power with paddle := true, settleEnd := none, courseDue := true, offFrom := some s.time }
  let s := { s with power := p }
  let s := (List.range 72).foldl (fun s q => if paddleSeat s q then s else paddleSeatOff s q) s
  let s := enginesOff s
  let seats := (List.range 72).filter fun q => !paddleSeat s q
  domainsOff s (seats ++ paddleDomains)

/-- After a trigger changed: entry at the first trigger, the settle time once every trigger is clear, a trigger that
asserts during it or during exit cancels them (16 R460, R461, R467). The settle time is entry 0x2001, in ms. -/
def triggersChanged (s : State) : State :=
  let p := s.power
  if triggerBits p ≠ 0 then
    if p.paddle then
      let off := if p.exitFrom.isSome then some s.time else p.offFrom
      let s := { s with power := { p with settleEnd := none, exitFrom := none, offFrom := off } }
      if p.exitFrom.isSome then
        let s := enginesOff s
        let seats := (List.range 72).filter fun q => !paddleSeat s q
        domainsOff (seats.foldl (fun s q => modSeat (settleSeat s q) q fun x => { x with powered := false, idle := true }) s)
          (seats ++ paddleDomains)
      else s
    else paddleEntry s
  else if p.paddle && p.settleEnd.isNone && p.exitFrom.isNone then
    let ms := match smGet [] s.irrix.values (256 * 0x2001) with | [] => 50 | os => beNat os
    { s with power := { p with settleEnd := some (1000000 * ms + s.time) } }
  else s

/-- Changes the triggers and does what follows. -/
def withPower (s : State) (f : Power → Power) : State := triggersChanged { s with power := f s.power }

/-- The seats of a leaf crew's position map that are in check stop: a substitution is still to be applied (08 R271). -/
def crewSeats (c : Nat) : List Nat := (List.range 9).map (9 * (c - 3) + ·)

/-- Check stop (07 R234, R235): every activation of the seat's banks and every one it stowed ends BROKEN; a side of a pair
is compared as having no list; the event is logged; the leaf cox's substitution is pending, and the spare's domain is
to switch on (08 R271). A second check stop in the crew while the first is in effect asserts CHECKSTOP (16 R460). -/
def checkStop (s : State) (q : Nat) : State :=
  let x := getSeat s q
  if x.checkStop.isSome then s
  else
    let c := leafOf q
    let second := decide ((getCox s c).pendSub ≠ []) || (crewSeats c).any fun r => (getSeat s r).checkStop.isSome
    let s := settleSeat (seatCount s q 124) q
    let s := dropPosts s q fun s j =>
      if j.role ≠ .none then sideEnded s c j.buf j.role true
      else if j.stowed then s
      else endPosted s q j stBroken
    let s := allBanks.foldl (fun s b =>
      let v := getBank (getSeat s q) b
      if v.st = .free then s
      else if v.role = .none then endLive s q b stBroken
      else
        let s := freeBank (modSeatR s q fun x => clearSets x b) q b
        sideEnded s c v.pairBuf v.role true) s
    let s := endedSides s q
    let s := (s.lanes.stowed.filter fun e => e.seat == q).foldl (fun s e => endStowed s e stBroken) s
    let s := errEdge s (modSeat s q fun x => { x with checkStop := some s.time, idle := true, stow := [] })
    let s := logEvent 3 q s
    let mapped := (List.range 8).any fun p => mapSeat s c p == q
    let s := modCox s c fun k =>
      if mapped then { k with pendSub := k.pendSub ++ [q] } else { k with spent := true }
    if second then withPower (modCox s c fun k => { k with trig := true }) fun p => { p with checkstopT := true } else s

end Sys2Proof.Machine
end

