-- ==== Sys2Proof/Machine/Xlat.lean ====
section
/-! DEFINITION. Translation (10 R342 to R351): the walk, the TLB and walk cache of a seat, A and D. -/

namespace Sys2Proof.Machine

/-- Counts deterministic accesses outside the stick, and sets UNTIMED outside case too (06 R211). The code store serves
fetches alone (R207). -/
def timedNote (q : Nat) (s : State) (p : Nat × Bool) : State :=
  let x := getSeat s q
  if detOn x && !inStick x p.1 && !(p.2 && inCode x p.1) then
    let s := seatCount s q 103
    if isCase p.1 then s else seatCount (modSeat s q fun x => { x with untimed := true }) q 104
  else s

/-- A walk reaches a word of a table: a seat's deterministic access outside the stick is noted (06 R211), and what the read
meets in memory happens first (R321, R322, R334). The galley walks for no seat. -/
def tableReach (s : State) (q : Option Nat) (a : Nat) : State :=
  viewMeets (q.elim s fun q => timedNote q s (a, false)) q [a]

/-- A fault of step 7: cause, WLVL, and the physical address of the entry (10 R346, 07 R214). -/
structure WalkFault where
  cause : Nat
  lvl   : Nat
  aux   : Nat
deriving DecidableEq, Repr

/-- What an access asks of translation (10 R345). -/
inductive XKind where
  | load | store | fetch | tagged
deriving DecidableEq, Repr

/-- Does the kind store? -/
def XKind.stores : XKind → Bool
  | .store | .tagged => true
  | _ => false

/-- May a walk of map m read a table at the word, or with dir 1 write A and D there (R346, R347): never in system space,
reserved space, a set-aside eighth, the host window or a strict region; checked as made at S in the map's side (11 R554).
The check of the write is DEDUCED, log 119. -/
def tableOpen (s : State) (m a dir : Nat) : Bool :=
  !isSystem a && !isHost a &&
    match fenceCheck s { cls := 0, dir := dir, p := a, n := 1, side := decide (128 ≤ m) } with
    | .error _ => false
    | .ok g => decide (g.order < 2)

/-- A table read under map m, for a seat or the galley (R346). The stick holds no poison (06 R208, R210). -/
def tableRead (s : State) (q : Option Nat) (m a lvl : Nat) : Except WalkFault Word :=
  if !tableOpen s m a 0 then .error ⟨cWALKIO, lvl, a⟩
  else if viewPoisoned s q a then .error ⟨cWALKPOISON, lvl, a⟩
  else .ok (viewWord s q a)

/-- MAPBASE of map m (R342). -/
def mapBase (s : State) (m : Nat) : Word := smGet 0 s.sys.mapBase m

/-- The entry a walk found, before it is installed. -/
structure Walked where
  entry : Word
  lvl   : Nat
  ea    : Nat
  /-- the level-1 entry to install in the walk cache -/
  l1    : Option Word
deriving DecidableEq, Repr

/-- The leaf read of a walk, under a level-1 table entry (R346). -/
def walkLeaf (s : State) (q : Option Nat) (m v : Nat) (e1 : Word) (l1 : Option Word) : Except WalkFault Walked :=
  let e2a := bits e1 35 12 * 4096 + v / 4096 % 4096
  match tableRead s q m e2a 2 with
  | .error f => .error f
  | .ok e2 => if bit e2 11 then .ok ⟨e2, 2, e2a, l1⟩ else .error ⟨cTRANSLATE, 2, e2a⟩

/-- The walk of R346. cached is a level-1 entry the walk cache still holds. -/
def walk (s : State) (q : Option Nat) (m v : Nat) (cached : Option Word) : Except WalkFault Walked :=
  match cached with
  | some e1 => walkLeaf s q m v e1 none
  | none =>
    let b := mapBase s m
    if !bit b 11 then .error ⟨cTRANSLATE, 0, 0⟩
    else
      let e1a := bits b 35 12 * 4096 + v / 2 ^ 24 % 4096
      match tableRead s q m e1a 1 with
      | .error f => .error f
      | .ok e1 =>
        if !bit e1 11 then .error ⟨cTRANSLATE, 1, e1a⟩
        else if !bit e1 10 then
          if bits e1 23 12 ≠ 0 then .error ⟨cTRANSLATE, 1, e1a⟩ else .ok ⟨e1, 1, e1a, none⟩
        else walkLeaf s q m v e1 (some e1)

/-- The table reads of a walk, before their words are used: first the level-1 entry, then the leaf that it
names. -/
def walkMeets (s : State) (q : Option Nat) (m v : Nat) (cached : Option Word) : State :=
  let leaf := fun (s : State) (e1 : Word) =>
    let a := bits e1 35 12 * 4096 + v / 4096 % 4096
    if tableOpen s m a 0 then tableReach s q a else s
  match cached with
  | some e1 => leaf s e1
  | none =>
    let b := mapBase s m
    let a := bits b 35 12 * 4096 + v / 2 ^ 24 % 4096
    if !bit b 11 || !tableOpen s m a 0 then s
    else
      let s := tableReach s q a
      match tableRead s q m a 1 with
      | .ok e1 => if bit e1 11 && bit e1 10 then leaf s e1 else s
      | .error _ => s

/-- A page that an entry covers: its virtual page number. -/
def pageOf (v : Nat) : Nat := v / 4096

/-- Does a TLB entry serve map m (R348: G serves every map of its side)? -/
def tlbMap (e : TlbEntry) (m : Nat) : Bool := e.map == m || (e.glob && e.map / 128 == m / 128)

/-- Does a TLB entry cover the virtual word (leaf page, 64 Ki-word slot, 16 Mi-word block)? -/
def tlbCovers (e : TlbEntry) (v : Nat) : Bool :=
  if e.lvl = 1 then e.vpage / 4096 == v / 2 ^ 24
  else if e.slot then e.vpage / 16 == v / 65536
  else e.vpage == v / 4096

/-- The physical word an entry gives (R346, R348). -/
def tlbPhys (e : TlbEntry) (v : Nat) : Nat :=
  let p := bits e.entry 35 12
  if e.lvl = 1 then p * 4096 + v % 2 ^ 24
  else if e.slot then p / 16 * 16 * 4096 + v % 65536
  else p * 4096 + v % 4096

/-- The entry that a walk of v in map m installs (R347, R348). -/
def tlbNew (x : Seat) (m v : Nat) (w : Walked) : TlbEntry :=
  let p := pageOf v
  { map := m, glob := bit w.entry 4, vpage := p, entry := w.entry, lvl := w.lvl, ea := w.ea,
    slot := w.lvl == 2 && bit w.entry 3 && x.kHint,
    setA := if bit w.entry 2 then [p] else [], setD := if bit w.entry 1 then [p] else [] }

/-- The set of the L2 TLB that an entry falls in. -/
def tlbSetOf (e : TlbEntry) : Nat := Config.tlbSet (if e.glob then e.map / 128 * 128 else e.map) e.vpage % 256

/-- What the two TLBs still hold of entries, newest first (R348): the first 64 in the L1 TLB, and of each set of the L2 TLB the
newest 8. seen are the sets of those before. Which entry is lost is DESIGN CHOICE, log 6. -/
def tlbHolds : Nat → List Nat → List TlbEntry → List TlbEntry
  | _, _, [] => []
  | i, seen, e :: es =>
    if i < 64 ∨ seen.count (tlbSetOf e) < 8 then e :: tlbHolds (i + 1) (tlbSetOf e :: seen) es
    else tlbHolds (i + 1) seen es

/-- The permission of an entry for an access (R345). -/
def entryPermits (e : TlbEntry) : XKind → Bool
  | .load => true
  | .store => e.lvl == 2 && bit e.entry 10
  | .fetch => bit e.entry 9
  | .tagged => e.lvl == 2 && bit e.entry 10 && bit e.entry 8

/-- A lookup that misses in both TLBs (15 R444). -/
def missCount (s : State) (q : Nat) : State := seatCount (seatCount s q 105) q 106

/-- The entry that serves v for a seat: one the TLB still holds, when the free choice of R351 keeps it, or a fresh walk. No
prefetch and no wrong path fills a TLB, as R347 and 06 R200 would let them. DESIGN CHOICE, log 6.
The state has the walk's entries installed; an entry that only the L2 TLB holds counts an L1 miss (15 R444). -/
def tlbLookup (s : State) (q m v : Nat) (fresh : Bool) : Except (WalkFault × State) (TlbEntry × State) :=
  let x := getSeat s q
  let (n, s) := drawFree s
  let held := if fresh then none else x.tlb.find? fun e => tlbMap e m && tlbCovers e v
  match held, Config.tlbKeeps n with
  | some e, true => .ok (e, if (x.tlb.take 64).contains e then s else seatCount s q 105)
  | _, keep =>
    let cached := (x.walks.find? fun w => w.map == m && w.idx == v / 2 ^ 24).bind fun w =>
      if fresh || !keep then none else some w.entry
    let s := walkMeets s (some q) m v cached
    match walk s (some q) m v cached with
    | .error f => .error (f, seatCount (seatCount (missCount s q) q 107) q 108)
    | .ok w =>
      let e := tlbNew x m v w
      let s := modSeat s q fun x =>
        { x with tlb := tlbHolds 0 [] (e :: x.tlb.filter fun y => !(y.map == m && tlbCovers y v && y.slot == e.slot)),
                 walks := match w.l1 with
                   | some e1 => ({ map := m, idx := v / 2 ^ 24, entry := e1 } ::
                       x.walks.filter fun y => !(y.map == m && y.idx == v / 2 ^ 24)).take 64
                   | none => x.walks }
      .ok (e, seatCount (missCount s q) q 107)

/-- Replaces a TLB entry of a seat. -/
def tlbReplace (s : State) (q : Nat) (old new : TlbEntry) : State :=
  modSeat s q fun x => { x with tlb := x.tlb.map fun y => if y = old then new else y }

/-- Drops a TLB entry of a seat (R347). -/
def tlbDrop (s : State) (q : Nat) (e : TlbEntry) : State :=
  modSeat s q fun x => { x with tlb := x.tlb.filter fun y => !(y == e) }

/-- The PTE of the page of v that an entry serves: its own, or in a contiguity slot that of another page (R347). -/
def pteOf (e : TlbEntry) (v : Nat) : Nat :=
  if pageOf v == e.vpage || e.lvl == 1 then e.ea else e.ea - e.vpage % 16 + pageOf v % 16

/-- Sets A, and D for a store, for the page of v at retirement, by compare-and-set (R347). An error says that the compare
failed, or that the slot's page does not belong to it or may no longer be read: the entry is dropped and the access is made
afresh. Where the fence refuses the write alone, A and D stay as they are (01 R20). DEDUCED, log 119. -/
def touchEntry (s : State) (q : Nat) (e : TlbEntry) (v : Nat) (store : Bool) : Except State State :=
  let p := pageOf v
  let needA := !e.setA.contains p
  let needD := store && !e.setD.contains p
  if !needA && !needD then .ok s
  else
    let own := p == e.vpage || e.lvl == 1
    let ea := pteOf e v
    let s := if tableOpen s e.map ea 0 then tableReach s (some q) ea else s
    let now := viewWord s (some q) ea
    let group := bit now 11 && bit now 3 && bits now 35 16 == bits e.entry 35 16
    if !tableOpen s e.map ea 0 || viewPoisoned s (some q) ea || (own && now != e.entry) || (!own && !group) then
      .error (seatCount (tlbDrop s q e) q 111)
    else if !tableOpen s e.map ea 1 then .ok s
    else
      let w := now ||| flag 2 true ||| flag 1 (store && e.lvl == 2)
      let s := if w = now then s else viewPut s q ea [w] false
      let e' := { e with entry := if own then w else e.entry, setA := if needA then p :: e.setA else e.setA,
                         setD := if needD then p :: e.setD else e.setD }
      .ok (seatCount (tlbReplace s q e e') q 110)

/-- A stretch of an access: a virtual word, its physical word, and how many words follow in both. -/
structure Run where
  v  : Nat
  pa : Nat
  n  : Nat
  /-- the entry that translated it; none at M -/
  e  : Option TlbEntry
deriving DecidableEq, Repr

/-- The C bit of a run's page; 1 at M. -/
def Run.capOk (r : Run) : Bool :=
  match r.e with
  | some e => bit e.entry 8
  | none => true

/-- Step 7 over a span: page by page, at U and S under the seat's map, untranslated at M (03 R84, 10 R342, R345). -/
def translateSpan (q : Nat) (kind : XKind) (fresh : Bool) :
    Nat → State → Nat → Nat → Except (WalkFault × Nat × State) (List Run × State)
  | 0, s, _, _ => .ok ([], s)
  | fuel + 1, s, v, n =>
    if n = 0 then .ok ([], s)
    else
      let x := getSeat s q
      if x.status.lvl = .M then .ok ([⟨v, v, n, none⟩], s)
      else
        let m := (if x.status.side then 128 else 0) + ctxMap (curBank x)
        match tlbLookup s q m v fresh with
        | .error (f, s) => .error (f, v, s)
        | .ok (e, s) =>
          if !entryPermits e kind then .error (⟨cTRANSLATE, e.lvl, e.ea⟩, v, s)
          else
            let k := min n (4096 - v % 4096)
            match translateSpan q kind fresh fuel s (v + k) (n - k) with
            | .error f => .error f
            | .ok (rs, s) => .ok (⟨v, tlbPhys e v, k, some e⟩ :: rs, s)

/-- Runs that follow each other physically are one span at the fence. -/
def joinRuns : List Run → List (Nat × Nat)
  | [] => []
  | r :: rs =>
    match joinRuns rs with
    | (p, n) :: ps => if r.pa + r.n = p then (r.pa, r.n + n) :: ps else (r.pa, r.n) :: (p, n) :: ps
    | [] => [(r.pa, r.n)]

end Sys2Proof.Machine
end

