-- ==== Sys2Proof/Machine/Operands.lean ====
section
/-! DEFINITION. Operand forms of seat instructions: the addressing of the M format (04 R133 to R136), plain addresses of
ring mode (03 R104, 05 R155), sign extension of immediates (04 R128). -/

namespace Sys2Proof.Machine

/-- An I-format immediate, extended by sign (R128). -/
def immI (imm : BitVec 19) : Word := imm.signExtend 36

/-- The capability with its cursor at a plain address: c14 in ring mode (03 R104). -/
def ringCap (s : State) (q : Nat) (a : Nat) : Cap := capSetCursor (cGet s q 14) a

/-- The base an M-format access starts from: the cursor of c[ca], or w[ca] in ring mode (R133, R136). -/
def memBase (s : State) (q : Nat) (m : MemOp) : Nat :=
  if inRing s q then (wGet s q m.ca.toNat).toNat else capCursor (cGet s q m.ca.toNat)

/-- The scaled index of modes 3 to 7, w[ix] read as signed (R133, R134). -/
def memIndex (s : State) (q : Nat) (m : MemOp) : Int :=
  if 3 ≤ m.mode.toNat then (wGet s q m.ix.toNat).toInt * 2 ^ (m.mode.toNat - 3) else 0

/-- Is the scaled index out of range (R134)? -/
def memBadIndex (s : State) (q : Nat) (m : MemOp) : Bool :=
  decide (memIndex s q m < -(2 ^ 36)) || decide (2 ^ 36 - 1 < memIndex s q m)

/-- A sum in 38-bit signed arithmetic (02 R52, R134). -/
def wrap38 (a : Int) : Int := (a + 2 ^ 37) % 2 ^ 38 - 2 ^ 37

/-- The effective address of an access of n words (R133), formed in 38-bit signed arithmetic; with an index out of range, in
unbounded arithmetic (R134, 02 R52). -/
def memEa (s : State) (q : Nat) (m : MemOp) (n : Nat) : Int :=
  match m.mode.toNat with
  | 1 => (memBase s q m : Int)
  | 2 => (memBase s q m : Int) - n
  | _ =>
    let sum := (memBase s q m : Int) + m.disp.toInt + memIndex s q m
    if memBadIndex s q m then sum else wrap38 sum

/-- The capability an M-format access is checked under (R104, R133). -/
def memAuth (s : State) (q : Nat) (m : MemOp) : Cap := if inRing s q then cGet s q 14 else cGet s q m.ca.toNat

/-- An M-format access of n words. -/
def memAccess (s : State) (q : Nat) (m : MemOp) (n align need : Nat) (write : Bool) : Access :=
  { cap := memAuth s q m, ea := memEa s q m n, n := n, align := align, need := need, write := write,
    badIx := memBadIndex s q m }

/-- The base after the access: modes 1 and 2 move it by n, modulo 2^36; c0 and w0 discard it (R135, R136). -/
def memUpdate (s : State) (q : Nat) (m : MemOp) (n : Nat) : State :=
  let move := fun b : Word => if m.mode = 1 then b + BitVec.ofNat 36 n else b - BitVec.ofNat 36 n
  if !m.updates then s
  else if inRing s q then wSet s q m.ca.toNat (move (wGet s q m.ca.toNat))
  else
    let c := cGet s q m.ca.toNat
    cSet s q m.ca.toNat { c with w0 := move c.w0 }

/-- The capability that a MOVW, FILLW, LPUT or LTAKE operand field names: c[r], or in ring mode c14 at the plain address
w[r] (05 R155, R178). -/
def blockCap (s : State) (q : Nat) (r : Nat) : Cap :=
  if inRing s q then ringCap s q (wGet s q r).toNat else cGet s q r

/-- A pair register's low and high words (05 R147). -/
def pairGet (s : State) (q r : Nat) : List Word := [wGet s q r, wGet s q (r + 1)]

/-- Writes a pair; a pair based on w0 discards the low word (05 R147). -/
def pairSet (s : State) (q r : Nat) (lo hi : Word) : State := wSet (wSet s q r lo) q (r + 1) hi

end Sys2Proof.Machine
end

