-- ==== Sys2Proof/Machine/Ops.lean ====
section
/-! DEFINITION. The shared operations of a seat: a checked access (02 R48, R55), its loads and stores, taking a trap
(07 R213 to R223), returning (07 R230 to R233), and the frame of one instruction. -/

namespace Sys2Proof.Machine

/-- The outputs that the pair-checked activation in the bank in use holds back (08 R266). -/
def seatOuts (s : State) (q : Nat) : List PairOut :=
  let v := curBank (getSeat s q)
  if v.role = .none then [] else sideOuts (getPair s (leafOf q) v.pairBuf) v.role

/-- The word that a buffered store last gave an address (08 R266). -/
def ownWord (os : List PairOut) (a : Nat) : Option Word :=
  os.foldl (fun r o =>
    if o.kind ≤ 1 ∧ o.addr ≤ a ∧ a < o.addr + o.words.length then some (o.words.getD (a - o.addr) 0) else r) none

/-- The tag that a buffered store last gave a granule. -/
def ownTag (os : List PairOut) (g : Nat) : Option Bool :=
  os.foldl (fun r o => if o.kind ≤ 1 ∧ o.addr / 4 = g then some (o.tags.getD 0 false) else r) none

/-- A seat's own view of a physical case or bulk word: its buffered stores, its stick, memory. -/
def seatWordAt (s : State) (q : Nat) (a : Nat) : Word :=
  match ownWord (seatOuts s q) a with
  | some w => w
  | none => viewWord s (some q) a

/-- The seat as a requester (11 R353). -/
def seatWho (t : Status) : Who := ⟨seatClass t, t.lvl == .M⟩

/-- A seat's load of n physical words, after every check. -/
def seatRead (s : State) (q a n : Nat) : List Word × State :=
  let x := getSeat s q
  if (isSystem a || isHost a) && !inStick x a then
    let os := seatOuts s q
    match physRead s (seatWho x.status) a n with
    | .ok ws s => ((List.range n).map fun i => (ownWord os (a + i)).getD (ws.getD i 0), s)
    | _ => ([], s)
  else ((List.range n).map fun i => seatWordAt s q (a + i), s)

/-- The tag of the granule that holds a physical word, as the seat sees it. -/
def seatTag (s : State) (q a : Nat) : Bool :=
  match ownTag (seatOuts s q) (a / 4) with
  | some t => t
  | none => (!(isSystem a || isHost a) || inStick (getSeat s q) a) && viewTag s (some q) a

/-- The first word of a load or fetch that gives POISON: a poisoned granule or stripe outside the stick, or the host window
while it answers with an error (10 R322, R335, R341). A deterministic fetch in the code window reads the code store, which
holds no poison (06 R207, R209, R210). -/
def seatPoison (s : State) (q a n : Nat) (fetch : Bool) : Option Nat :=
  let x := getSeat s q
  if isSystem a then none
  else if isHost a then (if hostUp s && !s.pins.readFails then none else some a)
  else ((List.range n).map (a + ·)).find? fun b =>
    !inStick x b && !(fetch && detOn x && inCode x b) && poisonedAt s.mem b

/-- A seat's store of words into one granule, after every check: to the stick, to the pair buffer, or performed (06 R208,
08 R266). gran is set by an STC, with the tag it stores. -/
def seatPut (s : State) (q a : Nat) (ws : List Word) (gran tag : Bool) : State :=
  let s := markStale s q a ws.length
  let x := getSeat s q
  if inStick x a then stickPut s q a ws tag
  else if (curBank x).role ≠ .none then
    pairPush s q { kind := if gran then 1 else 0, addr := a, words := ws, tags := if gran then [tag] else [],
                   cls := seatClass x.status }
  else if isSystem a || isHost a then physWrite s (seatWho x.status) a ws
  else putGranule s a ws tag

/-- Splits a run of words at granule boundaries. -/
def granulesFuel : Nat → Nat → List Word → List (Nat × List Word)
  | 0, _, _ => []
  | _, _, [] => []
  | fuel + 1, a, ws => (a, ws.take (4 - a % 4)) :: granulesFuel fuel (a + (4 - a % 4)) (ws.drop (4 - a % 4))

/-- Splits a run of words at granule boundaries. -/
def granules (a : Nat) (ws : List Word) : List (Nat × List Word) := granulesFuel ws.length a ws

/-- A seat's data store of consecutive words, granule by granule (02 R40). -/
def seatWrite (s : State) (q a : Nat) (ws : List Word) : State :=
  (granules a ws).foldl (fun s g => seatPut s q g.1 g.2 false false) s

/-- Distributes words over the runs of a span. -/
def splitRuns : List Run → List Word → List (Nat × List Word)
  | [], _ => []
  | r :: rs, ws => (r.pa, ws.take r.n) :: splitRuns rs (ws.drop r.n)

/-- What translation is asked for an access (10 R345). -/
def accKind (a : Access) : XKind :=
  if a.tagged then .tagged else if a.write then .store else if a.fetch then .fetch else .load

/-- What the fence is asked for an access: 0 read, 1 write, 2 fetch. -/
def accDir (a : Access) : Nat := if a.write then 1 else if a.fetch then 2 else 0

/-- Step 7 over the accesses, in their order. -/
def transAll (q : Nat) (fresh : Bool) : List Access → State → Except (Trap × State) (List (List Run) × State)
  | [], s => .ok ([], s)
  | a :: as, s =>
    match translateSpan q (accKind a) fresh (a.n / 4096 + 2) s a.ea.toNat a.n with
    | .error (f, v, s) =>
      .error ({ a.trap f.cause 7 with addr := BitVec.ofNat 36 v, aux := BitVec.ofNat 36 f.aux, wlvl := f.lvl }, s)
    | .ok (rs, s) =>
      match transAll q fresh as s with
      | .error e => .error e
      | .ok (rss, s) => .ok (rs :: rss, s)

/-- The virtual word that a physical word of the runs stands for. -/
def virtOf (rs : List Run) (p : Nat) : Nat :=
  ((rs.find? fun r => decide (r.pa ≤ p) && decide (p < r.pa + r.n)).map fun r => r.v + (p - r.pa)).getD p

/-- The physical spans of an access as the fence sees them (02 R48, 05 R175). -/
def fenceSpansOf (a : Access) (rs : List Run) : List (Nat × Nat) :=
  if a.each then rs.flatMap fun r => (List.range r.n).map fun i => (r.pa + i, 1) else joinRuns rs

/-- Step 8 of one access over its physical spans: the trap, or whether every region has TAGCAP. -/
def fenceSpans (s : State) (t : Status) (a : Access) (rs : List Run) : List (Nat × Nat) → Except Trap Bool
  | [] => .ok true
  | (p, n) :: ps =>
    match fenceCheck s (seatReq t (accDir a) p n a.tagged) with
    | .error k =>
      .error { a.trap cFENCE 8 with addr := BitVec.ofNat 36 (virtOf rs p), aux := BitVec.ofNat 36 p, fkind := k }
    | .ok g =>
      match fenceSpans s t a rs ps with
      | .error e => .error e
      | .ok b => .ok (g.tagcap && b)

/-- Step 8 over the accesses, in their order. -/
def fenceAll (s : State) (t : Status) : List (Access × List Run) → Except Trap (List Bool)
  | [] => .ok []
  | (a, rs) :: as =>
    match fenceSpans s t a rs (fenceSpansOf a rs) with
    | .error e => .error e
    | .ok b =>
      match fenceAll s t as with
      | .error e => .error e
      | .ok bs => .ok (b :: bs)

/-- Does the access fall in an armed watch range (07 R228)? -/
def watched (x : Seat) (a : Access) : Bool :=
  x.status.lvl != .M && bit x.watchCtl (if a.fetch then 2 else if a.write then 1 else 0)
    && decide (x.watchBase.toNat ≤ x.watchLast.toNat)
    && decide (x.watchBase.toNat < a.ea.toNat + a.n) && decide (a.ea.toNat ≤ x.watchLast.toNat)

/-- POISON of a load or fetch (10 R322); 04 R214 gives SV_AUX the physical address. -/
def poisonTrap (s : State) (q : Nat) (a : Access) (rs : List Run) : Option Trap :=
  if a.write then none
  else (rs.findSome? fun r => seatPoison s q r.pa r.n a.fetch).map fun p => { a.trap cPOISON 0 with aux := BitVec.ofNat 36 p }

/-- The entry as the TLB holds it now. -/
def tlbNow (s : State) (q : Nat) (e : TlbEntry) : TlbEntry :=
  ((getSeat s q).tlb.find? fun y =>
    y.map == e.map && y.ea == e.ea && y.vpage == e.vpage && y.lvl == e.lvl && y.slot == e.slot).getD e

/-- A and D of every page an instruction accessed (10 R347). -/
def touchAll (q : Nat) : List (Run × Bool) → State → Except State State
  | [], s => .ok s
  | (r, st) :: rs, s =>
    match r.e with
    | none => touchAll q rs s
    | some e =>
      match touchEntry s q (tlbNow s q e) r.v st with
      | .error s => .error s
      | .ok s => touchAll q rs s

/-- Counts a load or store by the memory it goes to: case, bulk or the host window (15 R444). DESIGN CHOICE, log 55. -/
def spaceNote (q : Nat) (s : State) (p : Nat × Bool) : State :=
  if p.2 || inStick (getSeat s q) p.1 then s
  else if isCase p.1 then seatCount s q 100
  else if isBulk p.1 then seatCount s q 101
  else if isHost p.1 then seatCount s q 102
  else s

/-- What a checked instruction holds: per access its runs, whether tags may pass (C of its pages and TAGCAP), what it
loaded and the tag of its first granule. -/
structure Passed where
  runs : List (List Run)
  tagOk : List Bool
  data : List (List Word)
  tags : List Bool
  st   : State

/-- The loads of the accesses. -/
def readAll (q : Nat) : List (Access × List Run) → State → List (List Word) × State
  | [], s => ([], s)
  | (a, rs) :: as, s =>
    let r := if a.write || a.fetch then ([], s)
      else rs.foldl (fun (r : List Word × State) x =>
        let (ws, s) := seatRead r.2 q x.pa x.n
        (r.1 ++ ws, s)) ([], s)
    let (rest, s) := readAll q as r.2
    (r.1 :: rest, s)

/-- What the reads of an access meet in case and bulk (10 R321, R322, R334): the words that the stick or the code store does
not hold. -/
def accessMeets (q : Nat) (s : State) (p : Access × List Run) : State :=
  let x := getSeat s q
  let held := fun b => inStick x b || (p.1.fetch && detOn x && inCode x b)
  if p.1.write then s
  else meetWords s (p.2.flatMap fun r => ((List.range r.n).map (r.pa + ·)).filter fun b => !held b)

/-- Steps 7 and 8, WATCH and POISON over the accesses, then the trap of the unit behind them, then A and D, then the loads.
An access that gives POISON has been made, and R211 of 06 sees it. No rule says which of POISON of a message's source and LANE
an LPUT raises first (05 R173): POISON. DESIGN CHOICE, log 110. fuel bounds how often a failed compare-and-set makes the
access afresh (10 R347). -/
def accessFrom (q : Nat) (as : List Access) : Nat → Bool → State → Except (Trap × State) Passed
  | fuel, fresh, s =>
    match transAll q fresh as s with
    | .error e => .error e
    | .ok (rss, s) =>
      let x := getSeat s q
      let pairs := as.zip rss
      match fenceAll s x.status pairs with
      | .error t => .error (t, s)
      | .ok caps =>
        match as.find? (watched x) with
        | some a => .error (a.trap cWATCH 0, s)
        | none =>
          let at_ := pairs.flatMap fun p => p.2.map fun r => (r.pa, p.1.fetch)
          let s := pairs.foldl (accessMeets q) s
          match (pairs.findSome? fun p => poisonTrap s q p.1 p.2) <|> as.findSome? Access.last with
          | some t => .error (t, if t.cause = cPOISON then at_.foldl (timedNote q) s else s)
          | none =>
            let finish := fun s' : State =>
              let tags := pairs.map fun p => match p.2 with | r :: _ => seatTag s q r.pa | [] => false
              let (data, s2) := readAll q pairs { s' with mem := s.mem, seats := s.seats }
              let s2 := at_.foldl (fun s r => spaceNote q (timedNote q s r) r) { s2 with mem := s'.mem, seats := s'.seats }
              let ok := (rss.zip caps).map fun p => p.2 && p.1.all Run.capOk
              Except.ok { runs := rss, tagOk := ok, data := data, tags := tags, st := s2 }
            let touches := pairs.flatMap fun p => p.2.map fun r => (r, p.1.write)
            match touchAll q touches s, fuel with
            | .ok s', _ => finish s'
            | .error s', 0 => finish s'
            | .error s', fuel + 1 => accessFrom q as fuel true s'
termination_by structural fuel => fuel

/-- A checked instruction's accesses: steps 1 to 8 of R48 over all of them (R55), WATCH, POISON, A and D, and the loads. -/
def accessAll (q : Nat) (as : List Access) (s : State) : Except (Trap × State) Passed :=
  match stepsFail (levelOf s q) (sideOf s q) as [1, 2, 3, 4, 5, 6] with
  | some t => .error (t, s)
  | none => accessFrom q as 8 false s

/-- The stores of access i of a checked instruction. -/
def storeRuns (p : Passed) (q i : Nat) (ws : List Word) : State :=
  (splitRuns (p.runs.getD i []) ws).foldl (fun s g => seatWrite s q g.1 g.2) p.st

/-- The physical address a checked access begins at. -/
def Passed.pa (p : Passed) (i : Nat) : Nat := (((p.runs.getD i []).head?).map Run.pa).getD 0

/-- Where an instruction goes on. -/
inductive Next where
  /-- at the next instruction -/
  | advance
  /-- at an address (05 R162) -/
  | jump (a : Nat)
  /-- at itself: stopped part-way, with the progress that its bank records (05 R157, R158) -/
  | stopped (prog : Word)
  /-- the instruction has placed PCC itself, or the seat no longer runs -/
  | placed
  /-- at itself, and it has not retired: it waits, and executes again (05 R175, 02 R67) -/
  | blocked
deriving DecidableEq, Repr

/-- An instruction that retires. -/
structure Done where
  st    : State
  next  : Next := .advance
  /-- it has accessed memory, from an effective and a physical address -/
  acc   : Bool := false
  ea    : Word := 0
  pa    : Nat := 0
  taken : Bool := false

/-- An instruction that only changes registers and advances. -/
def done (s : State) : Except (Trap × State) Done := .ok { st := s }

/-- The S set of a side: 0 stroke, 1 bow. -/
def sideSet (side : Bool) : Nat := if side then 1 else 0

/-- The S trap mask that applies (07 R216). -/
def trapMask (x : Seat) : Word :=
  match x.status.side, x.status.ringMode with
  | false, false => x.strokeC
  | false, true => x.strokeR
  | true, false => x.bowC
  | true, true => x.bowR

/-- The causes that go to M whatever the masks say (07 R214). -/
def causeToM (c : Nat) : Bool :=
  [0o00, cATTACHED, cWIDEOFF, cRETURNCHECK, cSTOW, cDOUBLE, cWATCH, cPAIRMISMATCH].contains c

/-- Does the trap go to M (07 R214 to R216)? -/
def trapToM (x : Seat) (t : Trap) : Bool :=
  x.status.lvl == .M || t.toM || causeToM t.cause || (t.cause == cCALL && x.status.lvl == .S)
    || bit (trapMask x) t.cause

/-- SV_CAUSE (07 R217). -/
def causeWord (t : Trap) (async : Bool) (cause orig : Nat) : Word :=
  flag 24 async ||| flag 23 t.fetch ||| flag 22 t.write ||| field 19 t.fkind ||| field 17 t.wlvl ||| field 13 t.step
    ||| field 6 orig ||| field 0 cause

/-- SV_BANK of a new set (07 R217). -/
def svBankWord (t : Status) (bank : Nat) : Word :=
  flag 35 true ||| flag 7 t.ringMode ||| flag 6 t.det ||| field 4 t.ring.toNat ||| field 0 bank

/-- May a copy into a seat's arrays read the word: checked as a request made at M (06 R210, 11 R554)? -/
def copyReads (s : State) (a : Nat) : Bool := (fenceCheck s (atMReq 0 a 1 false)).isOk

/-- A stale word as a reload finds it in the stick or case. One that the fence refuses, or that is uncorrectable, arrives as
zero, as in LOAD_CODE (06 R209, R210; 01 R20). DEDUCED, log 119. -/
def reloadWord (s : State) (q a : Nat) : Word :=
  if copyReads s a && !viewPoisoned s (some q) a then seatWordAt s q a else 0

/-- Stale code-store words are reloaded from the stick or case (06 R209). -/
def reloadCode (s : State) (q : Nat) : State :=
  let at_ := fun (x : Seat) (i : Nat) => 16384 * x.codeBase + i
  let x := getSeat s q
  let s := viewMeets s (some q) ((x.stale.map fun e => at_ x e.1).filter (copyReads s))
  modSeat s q fun x =>
    { x with code := x.stale.foldl (fun m e => smSet 0 m e.1 (reloadWord s q (at_ x e.1))) x.code, stale := [] }

/-- Enters S (07 R220): the side's S set is written, PCC and c13 take the side's vectors. A vector without EX arrives in PCC
without its tag (02 R33; log 89). -/
def enterS (s : State) (q : Nat) (t : Trap) : State :=
  let x := getSeat s q
  let i := sideSet x.status.side
  let b := curBank x
  let old := saveSet x i
  let v : SaveSet := { old with
    pcc := b.pcc, granB := bankC b 13, st := statusWord (liveStatus x), cause := causeWord t false t.cause 0,
    addr := t.addr, aux := t.aux, prog := t.prog, bank := svBankWord (liveStatus x) x.status.bank,
    forced := forcedDet x }
  let s := modSeatR s q fun x =>
    let x := setSaveSet x i v
    let x := modBank x x.status.bank fun b =>
      bankSetC { b with pcc := asPcc (smGet {} s.sys.vectors (6 + 2 * i)), progress := 0 } 13 (smGet {} s.sys.vectors (7 + 2 * i))
    { x with status := { x.status with lvl := .S, ringMode := false, ring := 0, wideOn := false } }
  reloadCode s q

/-- Enters M (07 R220): the M set is written, bank T is in use, PCC takes the M vector. pcc and bank are what SV_PCC and
SV_BANK record (R221). -/
def enterM (s : State) (q : Nat) (t : Trap) (async : Bool) (cause orig : Nat) (pcc : Cap) (bank : Nat) : State :=
  let x := getSeat s q
  let old := x.svM
  let rc := cause == cRETURNCHECK
  let v : SaveSet := {
    pcc := pcc, granB := if rc then t.attempt else old.granB, st := statusWord (liveStatus x),
    cause := causeWord t async cause orig, addr := t.addr, aux := t.aux, prog := t.prog,
    bank := svBankWord (liveStatus x) bank, atst := if rc then t.atst else old.atst, forced := forcedDet x }
  let s := modSeatR s q fun x =>
    let x := { modBank (if x.idle then x else leaveBank x) bank (fun b => { b with progress := 0 }) with svM := v, idle := false }
    let x := modBank x 8 fun b => { b with pcc := asPcc (smGet {} s.sys.vectors 10) }
    { x with status := { x.status with lvl := .M, bank := 8, ringMode := false, ring := 0, wideOn := false } }
  reloadCode s q

/-- Takes a synchronous trap (07 R213 to R223): to S, to M, DOUBLE when the S set is OCCUPIED, or check stop when the M
set is. M is not entered while the M hold stands (18 R516). -/
def takeTrap (s : State) (q : Nat) (t : Trap) : State :=
  let x := getSeat s q
  let pcc := (curBank x).pcc
  let toM := fun cause orig =>
    if occupied x.svM then checkStop s q
    else if mHeld s then s
    else seatCount (enterM s q t false cause orig pcc x.status.bank) q (32 + cause)
  if trapToM x t then toM t.cause 0
  else if occupied (saveSet x (sideSet x.status.side)) then toM cDOUBLE t.cause
  else seatCount (enterS s q t) q (32 + t.cause)

/-- Takes an asynchronous trap to M, at an instruction boundary (07 R221, R223); pending while the M set is OCCUPIED.
SV_PROG takes the progress that the running bank has recorded (05 R157, R158). -/
def takeAsync (s : State) (q : Nat) (t : Trap) : State :=
  let x := getSeat s q
  if x.idle then seatCount (enterM s q t true t.cause 0 capNull 8) q (32 + t.cause)
  else
    let t := { t with prog := (curBank x).progress }
    seatCount (enterM s q t true t.cause 0 (curBank x).pcc x.status.bank) q (32 + t.cause)

/-- Does an asynchronous trap or a pre-emption stop an LDM, STM, MOVW or FILLW part-way (05 R158, 07 R224, R225)? -/
def interrupted (s : State) (q : Nat) : Bool :=
  let x := getSeat s q
  asyncPending s q || (preemptPending x && !anyOccupied x)

/-- How many of n words such an instruction moves before it stops: all, unless it is interrupted, when no rule says at which
word boundary. DESIGN CHOICE, log 66. -/
def wordsMoved (s : State) (q n : Nat) : Nat × State :=
  if interrupted s q then
    let (k, s) := drawFree s
    ((Config.openWord k).toNat % (n + 1), s)
  else (n, s)

/-- An instruction that places PCC itself is first to clear its bank's progress word (05 R159). -/
def dropProgress (s : State) (q : Nat) : State := modCur s q fun k => { k with progress := 0 }

/-- The first failed return check of R232, 0 when all pass. -/
def returnFail (x : Seat) (atM : Bool) (v : SaveSet) : Nat :=
  let lvl := bits v.st 1 0
  let cur := if atM then 3 else 1
  if !atM && !occupied v then 1
  else if lvl = 2 || decide (cur < lvl) || ((lvl == 3) != (saveBank v == 8)) then 2
  else if !atM && (bit v.st 2 != x.status.side) then 3
  else if !v.pcc.tag || capSeal v.pcc != 0 || !holds (capRights v.pcc) rEX then 4
  else if lvl = 1 && !holds (capRights v.pcc) rSY then 5
  else if !atM && bit v.bank 7 && decide (bits v.st 12 11 < bits v.bank 5 4) then 6
  else 0

/-- The STATUS a return restores (07 R230). A DET that FORCE alone gave the trapped activation is FORCE's, not its own (06
R206). -/
def returnStatus (atM : Bool) (v : SaveSet) : Status :=
  let t := statusOf v.st
  let t := { t with bank := saveBank v, wideOn := false }
  let t := if atM then t else { t with det := bit v.bank 6, ringMode := bit v.bank 7 }
  { t with det := t.det && !v.forced }

/-- A return whose checks pass (07 R230). A return into a bank whose way-enough waits completes the abort (R237). -/
def returnPass (s : State) (q : Nat) (atM : Bool) (v : SaveSet) (i : Nat) : State :=
  let b := saveBank v
  let s := modSeatR s q fun x =>
    let x := setSaveSet x i (clearOcc v)
    let x := modBank x b fun k => { k with pcc := v.pcc, progress := v.prog }
    let x := if atM then x else modBank x b fun k => bankSetC k 13 v.granB
    { x with status := returnStatus atM v }
  let s := reloadCode s q
  if atM && (getBank (getSeat s q) b).abortHeld then leaveAborted s q b else s

/-- Hands the seat back to its cox idle (07 R231), which takes up its next READY bank. -/
def releaseSeat (s : State) (q : Nat) : State :=
  let s := modSeatR s q fun x => { x with svM := clearOcc x.svM, idle := true }
  selectBank (reloadCode s q) q

/-- Does the seat issue instructions now? Its domain is on, it is not in check stop, it is not idle, and at U or S the bank
in use is RUNNING (01 R15, 07 R234, 08 R253, 16 R471, 19 R529). -/
def canIssue (s : State) (q : Nat) : Bool :=
  let x := getSeat s q
  s.pins.porN && !dark s.power && x.powered && x.checkStop.isNone && !x.idle
    && (x.status.lvl == .M || (decide (x.status.bank < 8) && (curBank x).st == .running))

/-- The fetch of an instruction of n words as an access under PCC (02 R56). -/
def fetchAccess (s : State) (q n : Nat) : Access :=
  { cap := pccGet s q, ea := (pcOf s q : Int), n := n, need := rEX, fetch := true }

/-- The sampling countdown at a decoded instruction (15 R448): whether this instruction is tagged. SAMPLE_TAG expires it. -/
def sampleOn (x : Seat) : Bool :=
  x.sampOn && !detOn x && (if x.status.side then x.sampBow else x.sampStroke)

/-- One decoded instruction off the count, down to one. -/
def sampleDecode (x : Seat) : Seat :=
  if x.sampTag || !sampleOn x then x else { x with sampCount := max 1 (x.sampCount - 1) }

/-- A decoded instruction's seat: one off the sampling count, and a tag taken where instructions are sampled (15 R448). -/
def decoded (x : Seat) : Seat := if sampleOn x then { sampleDecode x with sampTag := false } else x

/-- A tagged instruction's record waits in one of two places (15 R449, R450). -/
def sampleKeep (s : State) (q : Nat) (y : Sample) : State :=
  if 2 ≤ (getSeat s q).samples.length then seatCount s q 162
  else modSeat s q fun x => { x with samples := x.samples ++ [y] }

/-- What a record says of an instruction (15 R449), before its outcome. -/
def sampleOf (s : State) (q : Nat) (word : Word) : Sample :=
  let x := getSeat s q
  let b := curBank x
  { addr := b.pcc.w0, word := word, ctxSt := field 20 (curSeal b) ||| (statusWord (liveStatus x) &&& 0o17777), trapped := false,
    cause := 0, taken := false, ea := 0, pa := 0, source := 0, lane := b.lane, stamp := s.time, bank := x.status.bank }

/-- An instruction that retires in bank b: PCC, the progress word (05 R159) and the counters (15 R444). One that stops
part-way does not retire. -/
def retire (q len b : Nat) (d : Done) : State :=
  let count := fun s : State =>
    let s := seatCount s q 1
    if b < 8 then seatCount s q (8 + b) else s
  match d.next with
  | .advance => count (dropProgress (pcSet d.st q ((pcOf d.st q + len) % space36)) q)
  | .jump a => count (dropProgress (pcSet d.st q (a % space36)) q)
  | .stopped p => modCur d.st q fun k => { k with progress := p }
  | .placed => count d.st
  | .blocked => d.st

/-- Where an instruction's data come from, as a sample record shows it (15 R449): 0 no access or system space, 6 host window,
7 stick, 3 case, 5 bulk; of the last two only the caches know more. -/
def dataSource (x : Seat) (d : Done) : Nat :=
  if !d.acc || isSystem d.pa then 0
  else if inStick x d.pa then 7 else if isHost d.pa then 6 else if isBulk d.pa then 5 else 3

/-- Of a sample, whether a TLB missed and whether a walk followed: L1 TLB misses and walks that the seat has counted from the
instruction's start to its end (15 R444, R449; log 8). -/
def sampleWalks (before after : State) (q : Nat) (y : Sample) : Sample :=
  let more := fun i => counterValue before (256 * q + i) != counterValue after (256 * q + i)
  { y with miss := more 105, walk := more 107 }

/-- The sample of a tagged instruction that has gone on (15 R448, R449): one that stopped part-way is tagged again, one that
waits to execute again has produced none. -/
def sampleDone (s : State) (q : Nat) (y : Sample) (d : Done) : State :=
  match d.next with
  | .stopped _ => modSeat s q fun x => { x with sampTag := true }
  | .blocked => s
  | _ =>
    sampleKeep s q { y with taken := d.taken, ea := d.ea, pa := BitVec.ofNat 36 d.pa, source := dataSource (getSeat s q) d }

/-- The sample of a tagged instruction that traps (15 R449): the address of the access that failed, and its physical address
where the trap has one (07 R214). -/
def sampleTrap (y : Sample) (t : Trap) : Sample :=
  let access := !t.fetch && (t.step != 0 || t.cause == cPOISON || t.cause == cWATCH)
  { y with trapped := true, cause := t.cause, ea := if access then t.addr else 0,
           pa := if access && (t.cause == cFENCE || t.cause == cPOISON) then t.aux else 0 }

/-- The counter of an instruction that is counted by its name, where its level or mode does not permit it: RET, FENCEW, MAPSYNC,
CALLG (15 R439, R444: a seat counts an instruction when it raises a trap too). -/
def barredCount (s : State) (q : Nat) (word : Word) : State :=
  match bits word 35 29 with
  | 0o104 => seatCount s q 122
  | 0o110 => seatCount s q 125
  | 0o112 => seatCount s q 126
  | 0o114 => seatCount s q 121
  | _ => s

/-- One instruction of seat q: fetch check, decode, body, then retirement or a trap (05 R140, 02 R56). Nothing happens
when the seat cannot issue (log 11). permitted is R130 step 4. A fault of the fetch itself keeps the progress that a return
or a resume has left (05 R159); DEDUCED, log 66. A pair-checked activation whose outputs pass 256 words ends in place of the
instruction's end (08 R268). -/
def seatInstr (q : Nat) (word : Word) (len : Nat) (legal : Bool) (permitted : Status → Bool)
    (body : State → Except (Trap × State) Done) (s : State) : State :=
  if !canIssue s q then s
  else
    let tagged := (getSeat s q).sampTag && sampleOn (getSeat s q)
    let y := sampleOf s q word
    let here := (pccGet s q).w0
    let walks := fun t : State => sampleWalks s t q y
    let fin := fun r : Except (Trap × State) Done =>
      match r with
      | .error (t, s) =>
        let y := walks s
        let s := if pairOver s q then pairOverflow s q else takeTrap (modCur s q fun k => { k with progress := t.prog }) q t
        if tagged && !t.fetch then sampleKeep s q (sampleTrap y t) else s
      | .ok d =>
        let s := if pairOver d.st q then pairOverflow d.st q else retire q len y.bank d
        if tagged then sampleDone s q (walks d.st) d else s
    match accessAll q [fetchAccess s q len] s with
    | .error (t, s) => fin (.error ({ t with prog := (curBank (getSeat s q)).progress }, s))
    | .ok p =>
      let s := modSeat p.st q decoded
      if !legal || !permitted (statusOfSeat s q) then
        fin (.error ({ cause := cILLEGAL, addr := here, aux := word }, if legal then barredCount s q word else s))
      else fin (body s)

/-- Permitted at every level and mode. -/
def anyMode (_ : Status) : Bool := true

/-- Not permitted in ring mode (03 R103, 05 R138, R178). -/
def noRing (t : Status) : Bool := !t.ringMode

/-- Permitted at S and M. -/
def atSM (t : Status) : Bool := t.lvl != .U

/-- Permitted at M. -/
def atM (t : Status) : Bool := t.lvl == .M

/-- The instruction i of seat q, whose word, length and field checks are those of Decode. -/
def seatRun (q : SeatNo) (i : Instr) (permitted : Status → Bool) (body : State → Except (Trap × State) Done)
    (s : State) : Out State :=
  .next (seatInstr q.val (seatWord i) (seatLen i) (seatLegal i) permitted body s)

/-- A trap raised by an instruction at its own address (07 R214). -/
def trapHere (s : State) (q : Nat) (cause : Nat) (aux : Word) : Trap := { cause := cause, addr := (pccGet s q).w0, aux := aux }

end Sys2Proof.Machine
end

