-- ==== Sys2Proof/Machine/Alu.lean ====
section
/-! DEFINITION. Integer, half-word and bit-field instructions (05 R143 to R149). -/

namespace Sys2Proof.Machine

/-- w[rd] := f of two registers. -/
def regOp2 (q : SeatNo) (i : Instr) (rd ra rb : Reg) (f : Word → Word → Word) (s : State) : Out State :=
  seatRun q i anyMode
    (fun s => done (wSet s q.val rd.toNat (f (wGet s q.val ra.toNat) (wGet s q.val rb.toNat)))) s

/-- w[rd] := f of one register. -/
def regOp1 (q : SeatNo) (i : Instr) (rd ra : Reg) (f : Word → Word) (s : State) : Out State :=
  seatRun q i anyMode (fun s => done (wSet s q.val rd.toNat (f (wGet s q.val ra.toNat)))) s

/-- A division: DIVZERO on a zero divisor (R145). -/
def regDiv (q : SeatNo) (i : Instr) (rd ra rb : Reg) (f : Word → Word → Word) (s : State) : Out State :=
  seatRun q i anyMode
    (fun s =>
      if wGet s q.val rb.toNat = 0 then .error (trapHere s q.val cDIVZERO 0, s)
      else done (wSet s q.val rd.toNat (f (wGet s q.val ra.toNat) (wGet s q.val rb.toNat)))) s

/-- The signed product of two words. -/
def mulSigned (a b : Word) : Int := a.toInt * b.toInt

/-- The unsigned product of two words. -/
def mulUnsigned (a b : Word) : Nat := a.toNat * b.toNat

/-- SLL: 36 or more gives 0 (R144). -/
def shiftL (a : Word) (n : Nat) : Word := a <<< n

/-- SRL: 36 or more gives 0 (R144). -/
def shiftR (a : Word) (n : Nat) : Word := a >>> n

/-- SRA: 36 or more gives copies of bit 35 (R144). -/
def shiftA (a : Word) (n : Nat) : Word := a.sshiftRight n

/-- ROL: by the count modulo 36 (R144). -/
def rotL (a : Word) (n : Nat) : Word := a.rotateLeft (n % 36)

/-- The count of a shift by register: bits 5-0 (R143). -/
def shiftCount (b : Word) : Nat := bits b 5 0

/-- The number of leading zero bits (R143). -/
def leadZeros (a : Word) : Nat := if a.toNat = 0 then 36 else 35 - a.toNat.log2

/-- The number of one bits (R143). -/
def onesCount (a : Word) : Nat := (List.range 36).foldl (fun n k => if bit a k then n + 1 else n) 0

/-- The mask of a field of width bits (R146). -/
def fieldMask (width : Nat) : Word := BitVec.ofNat 36 (2 ^ width - 1)

/-- EXTU (R146). -/
def extractU (a : Word) (pos width : Nat) : Word := (a >>> pos) &&& fieldMask width

/-- EXTS (R146). -/
def extractS (a : Word) (pos width : Nat) : Word := ((extractU a pos width) <<< (36 - width)).sshiftRight (36 - width)

/-- INS (R146). -/
def insertField (d a : Word) (pos width : Nat) : Word :=
  (d &&& ~~~(fieldMask width <<< pos)) ||| ((a &&& fieldMask width) <<< pos)

/-- ADD (R143): the sum modulo 2^36. -/
def execAdd (q : SeatNo) (rd ra rb : Reg) (s : State) : Out State :=
  regOp2 q (.add q rd ra rb) rd ra rb (fun a b => a + b) s

/-- SUB (R143): the difference modulo 2^36. -/
def execSub (q : SeatNo) (rd ra rb : Reg) (s : State) : Out State :=
  regOp2 q (.sub q rd ra rb) rd ra rb (fun a b => a - b) s

/-- AND (R143): bitwise and. -/
def execAnd (q : SeatNo) (rd ra rb : Reg) (s : State) : Out State :=
  regOp2 q (.and q rd ra rb) rd ra rb (fun a b => a &&& b) s

/-- OR (R143): bitwise or. -/
def execOr (q : SeatNo) (rd ra rb : Reg) (s : State) : Out State :=
  regOp2 q (.or q rd ra rb) rd ra rb (fun a b => a ||| b) s

/-- XOR (R143): bitwise exclusive or. -/
def execXor (q : SeatNo) (rd ra rb : Reg) (s : State) : Out State :=
  regOp2 q (.xor q rd ra rb) rd ra rb (fun a b => a ^^^ b) s

/-- ANDN (R143): w[ra] and not w[rb]. -/
def execAndn (q : SeatNo) (rd ra rb : Reg) (s : State) : Out State :=
  regOp2 q (.andn q rd ra rb) rd ra rb (fun a b => a &&& ~~~b) s

/-- SLT (R143): 1 if less, signed. -/
def execSlt (q : SeatNo) (rd ra rb : Reg) (s : State) : Out State :=
  regOp2 q (.slt q rd ra rb) rd ra rb (fun a b => boolWord (a.slt b)) s

/-- SLTU (R143): 1 if less, unsigned. -/
def execSltu (q : SeatNo) (rd ra rb : Reg) (s : State) : Out State :=
  regOp2 q (.sltu q rd ra rb) rd ra rb (fun a b => boolWord (a.ult b)) s

/-- MIN (R143): signed minimum. -/
def execMin (q : SeatNo) (rd ra rb : Reg) (s : State) : Out State :=
  regOp2 q (.min q rd ra rb) rd ra rb (fun a b => if b.slt a then b else a) s

/-- MAX (R143): signed maximum. -/
def execMax (q : SeatNo) (rd ra rb : Reg) (s : State) : Out State :=
  regOp2 q (.max q rd ra rb) rd ra rb (fun a b => if a.slt b then b else a) s

/-- MINU (R143): unsigned minimum. -/
def execMinu (q : SeatNo) (rd ra rb : Reg) (s : State) : Out State :=
  regOp2 q (.minu q rd ra rb) rd ra rb (fun a b => if b.ult a then b else a) s

/-- MAXU (R143): unsigned maximum. -/
def execMaxu (q : SeatNo) (rd ra rb : Reg) (s : State) : Out State :=
  regOp2 q (.maxu q rd ra rb) rd ra rb (fun a b => if a.ult b then b else a) s

/-- CLZ (R143): leading zero bits. -/
def execClz (q : SeatNo) (rd ra : Reg) (s : State) : Out State :=
  regOp1 q (.clz q rd ra) rd ra (fun a => BitVec.ofNat 36 (leadZeros a)) s

/-- POPC (R143): one bits. -/
def execPopc (q : SeatNo) (rd ra : Reg) (s : State) : Out State :=
  regOp1 q (.popc q rd ra) rd ra (fun a => BitVec.ofNat 36 (onesCount a)) s

/-- ADDCO (R143): the carry of the unsigned sum. -/
def execAddco (q : SeatNo) (rd ra rb : Reg) (s : State) : Out State :=
  regOp2 q (.addco q rd ra rb) rd ra rb (carryOut) s

/-- SLL (R143, R144): by w[rb] bits 5-0. -/
def execSll (q : SeatNo) (rd ra rb : Reg) (s : State) : Out State :=
  regOp2 q (.sll q rd ra rb) rd ra rb (fun a b => shiftL a (shiftCount b)) s

/-- SRL (R143, R144): by w[rb] bits 5-0. -/
def execSrl (q : SeatNo) (rd ra rb : Reg) (s : State) : Out State :=
  regOp2 q (.srl q rd ra rb) rd ra rb (fun a b => shiftR a (shiftCount b)) s

/-- SRA (R143, R144): by w[rb] bits 5-0. -/
def execSra (q : SeatNo) (rd ra rb : Reg) (s : State) : Out State :=
  regOp2 q (.sra q rd ra rb) rd ra rb (fun a b => shiftA a (shiftCount b)) s

/-- ROL (R143, R144): by w[rb] bits 5-0. -/
def execRol (q : SeatNo) (rd ra rb : Reg) (s : State) : Out State :=
  regOp2 q (.rol q rd ra rb) rd ra rb (fun a b => rotL a (shiftCount b)) s

/-- SLLA (R143, R144): by aux. -/
def execSlla (q : SeatNo) (rd ra aux : Reg) (s : State) : Out State :=
  regOp1 q (.slla q rd ra aux) rd ra (fun a => shiftL a aux.toNat) s

/-- SRLA (R143, R144): by aux. -/
def execSrla (q : SeatNo) (rd ra aux : Reg) (s : State) : Out State :=
  regOp1 q (.srla q rd ra aux) rd ra (fun a => shiftR a aux.toNat) s

/-- SRAA (R143, R144): by aux. -/
def execSraa (q : SeatNo) (rd ra aux : Reg) (s : State) : Out State :=
  regOp1 q (.sraa q rd ra aux) rd ra (fun a => shiftA a aux.toNat) s

/-- ROLA (R143, R144): by aux. -/
def execRola (q : SeatNo) (rd ra aux : Reg) (s : State) : Out State :=
  regOp1 q (.rola q rd ra aux) rd ra (fun a => rotL a aux.toNat) s

/-- MUL (R143): the low 36 bits of the product. -/
def execMul (q : SeatNo) (rd ra rb : Reg) (s : State) : Out State :=
  regOp2 q (.mul q rd ra rb) rd ra rb (fun a b => a * b) s

/-- MULH (R143): the high 36 bits of the signed product. -/
def execMulh (q : SeatNo) (rd ra rb : Reg) (s : State) : Out State :=
  regOp2 q (.mulh q rd ra rb) rd ra rb (fun a b => BitVec.ofInt 36 (mulSigned a b / 2 ^ 36)) s

/-- MULHU (R143): the high 36 bits of the unsigned product. -/
def execMulhu (q : SeatNo) (rd ra rb : Reg) (s : State) : Out State :=
  regOp2 q (.mulhu q rd ra rb) rd ra rb (fun a b => doubleHi (mulUnsigned a b)) s

/-- MULD (R143, R147): the unsigned product as a double in rd, rd+1. -/
def execMuld (q : SeatNo) (rd ra rb : Reg) (s : State) : Out State :=
  seatRun q (.muld q rd ra rb) anyMode
    (fun s =>
      let p := mulUnsigned (wGet s q.val ra.toNat) (wGet s q.val rb.toNat)
      done (pairSet s q.val rd.toNat (doubleLo p) (doubleHi p))) s

/-- DIV (R143, R145): signed quotient, truncated toward zero; -2^35 by -1 gives -2^35. -/
def execDiv (q : SeatNo) (rd ra rb : Reg) (s : State) : Out State :=
  regDiv q (.div q rd ra rb) rd ra rb (fun a b => BitVec.ofInt 36 (a.toInt.tdiv b.toInt)) s

/-- DIVU (R143, R145): unsigned quotient. -/
def execDivu (q : SeatNo) (rd ra rb : Reg) (s : State) : Out State :=
  regDiv q (.divu q rd ra rb) rd ra rb (fun a b => a / b) s

/-- REM (R143, R145): signed remainder, with the sign of the dividend. -/
def execRem (q : SeatNo) (rd ra rb : Reg) (s : State) : Out State :=
  regDiv q (.rem q rd ra rb) rd ra rb (fun a b => BitVec.ofInt 36 (a.toInt.tmod b.toInt)) s

/-- REMU (R143, R145): unsigned remainder. -/
def execRemu (q : SeatNo) (rd ra rb : Reg) (s : State) : Out State :=
  regDiv q (.remu q rd ra rb) rd ra rb (fun a b => a % b) s

/-- HSWAP (R143): the halves exchanged. -/
def execHswap (q : SeatNo) (rd ra : Reg) (s : State) : Out State :=
  regOp1 q (.hswap q rd ra) rd ra (fun a => joinHalves (half0 a) (half1 a)) s

/-- HADD (R143): each half, modulo 2^18. -/
def execHadd (q : SeatNo) (rd ra rb : Reg) (s : State) : Out State :=
  regOp2 q (.hadd q rd ra rb) rd ra rb (fun a b => joinHalves (half1 a + half1 b) (half0 a + half0 b)) s

/-- HSUB (R143): each half, modulo 2^18. -/
def execHsub (q : SeatNo) (rd ra rb : Reg) (s : State) : Out State :=
  regOp2 q (.hsub q rd ra rb) rd ra rb (fun a b => joinHalves (half1 a - half1 b) (half0 a - half0 b)) s

/-- HJOIN (R143): H0 of ra in H1, H0 of rb in H0. -/
def execHjoin (q : SeatNo) (rd ra rb : Reg) (s : State) : Out State :=
  regOp2 q (.hjoin q rd ra rb) rd ra rb (fun a b => joinHalves (half0 a) (half0 b)) s

/-- HSX0 (R143): H0 extended by sign. -/
def execHsx0 (q : SeatNo) (rd ra : Reg) (s : State) : Out State :=
  regOp1 q (.hsx0 q rd ra) rd ra (fun a => (half0 a).signExtend 36) s

/-- HSX1 (R143): H1 extended by sign. -/
def execHsx1 (q : SeatNo) (rd ra : Reg) (s : State) : Out State :=
  regOp1 q (.hsx1 q rd ra) rd ra (fun a => (half1 a).signExtend 36) s

/-- EXTU (R146): unsigned extract. -/
def execExtu (q : SeatNo) (rd ra : Reg) (pos : BitVec 6) (aux : Reg) (s : State) : Out State :=
  regOp1 q (.extu q rd ra pos aux) rd ra (fun a => extractU a pos.toNat (aux.toNat + 1)) s

/-- EXTS (R146): signed extract. -/
def execExts (q : SeatNo) (rd ra : Reg) (pos : BitVec 6) (aux : Reg) (s : State) : Out State :=
  regOp1 q (.exts q rd ra pos aux) rd ra (fun a => extractS a pos.toNat (aux.toNat + 1)) s

/-- INS (R146): inserts a field into w[rd]. -/
def execIns (q : SeatNo) (rd ra : Reg) (pos : BitVec 6) (aux : Reg) (s : State) : Out State :=
  regOp2 q (.ins q rd ra pos aux) rd rd ra (fun d a => insertField d a pos.toNat (aux.toNat + 1)) s

/-- ADDI (R148): w[ra] + imm. -/
def execAddi (q : SeatNo) (rd ra : Reg) (imm : BitVec 19) (s : State) : Out State :=
  regOp1 q (.addi q rd ra imm) rd ra (fun a => a + immI imm) s

/-- ANDI (R148): w[ra] and imm. -/
def execAndi (q : SeatNo) (rd ra : Reg) (imm : BitVec 19) (s : State) : Out State :=
  regOp1 q (.andi q rd ra imm) rd ra (fun a => a &&& immI imm) s

/-- ORI (R148): w[ra] or imm. -/
def execOri (q : SeatNo) (rd ra : Reg) (imm : BitVec 19) (s : State) : Out State :=
  regOp1 q (.ori q rd ra imm) rd ra (fun a => a ||| immI imm) s

/-- XORI (R148): w[ra] xor imm. -/
def execXori (q : SeatNo) (rd ra : Reg) (imm : BitVec 19) (s : State) : Out State :=
  regOp1 q (.xori q rd ra imm) rd ra (fun a => a ^^^ immI imm) s

/-- SLTI (R148): 1 if less than imm, signed. -/
def execSlti (q : SeatNo) (rd ra : Reg) (imm : BitVec 19) (s : State) : Out State :=
  regOp1 q (.slti q rd ra imm) rd ra (fun a => boolWord (a.slt (immI imm))) s

/-- SLTIU (R148): 1 if less than the extended imm, unsigned. -/
def execSltiu (q : SeatNo) (rd ra : Reg) (imm : BitVec 19) (s : State) : Out State :=
  regOp1 q (.sltiu q rd ra imm) rd ra (fun a => boolWord (a.ult (immI imm))) s

/-- LIH (R148): H1 := imm bits 17-0, H0 := H0 of ra. -/
def execLih (q : SeatNo) (rd ra : Reg) (imm : BitVec 19) (s : State) : Out State :=
  regOp1 q (.lih q rd ra imm) rd ra (fun a => joinHalves (imm.truncate 18) (half0 a)) s

/-- MULI (R148): the low 36 bits of the product. -/
def execMuli (q : SeatNo) (rd ra : Reg) (imm : BitVec 19) (s : State) : Out State :=
  regOp1 q (.muli q rd ra imm) rd ra (fun a => a * immI imm) s

/-- LI (R149): w[rd] := imm36. -/
def execLi (q : SeatNo) (rd : Reg) (imm : Word) (s : State) : Out State :=
  regOp1 q (.li q rd imm) rd 0 (fun _ => imm) s

/-- ADDL (R149): w[ra] + imm36. -/
def execAddl (q : SeatNo) (rd ra : Reg) (imm : Word) (s : State) : Out State :=
  regOp1 q (.addl q rd ra imm) rd ra (fun a => a + imm) s

/-- ANDL (R149): w[ra] and imm36. -/
def execAndl (q : SeatNo) (rd ra : Reg) (imm : Word) (s : State) : Out State :=
  regOp1 q (.andl q rd ra imm) rd ra (fun a => a &&& imm) s

/-- ORL (R149): w[ra] or imm36. -/
def execOrl (q : SeatNo) (rd ra : Reg) (imm : Word) (s : State) : Out State :=
  regOp1 q (.orl q rd ra imm) rd ra (fun a => a ||| imm) s

/-- XORL (R149): w[ra] xor imm36. -/
def execXorl (q : SeatNo) (rd ra : Reg) (imm : Word) (s : State) : Out State :=
  regOp1 q (.xorl q rd ra imm) rd ra (fun a => a ^^^ imm) s

end Sys2Proof.Machine
end

