-- ==== Sys2Proof/Machine/CoxWords.lean ====
section
/-! DEFINITION. The words of cox instructions (08 R242, R243), what each reads and delays (R240), and the check of a cox
program that image verification makes (R241). -/

namespace Sys2Proof

/-- Format CR of R242; bits 14-0 are res0. -/
def encCR (op : BitVec 6) (rd ra rb : Reg) : Word := op ++ rd ++ ra ++ rb ++ (0 : BitVec 15)

/-- Format CI of R242. -/
def encCI (op : BitVec 6) (rd ra : Reg) (imm : BitVec 18) : Word := op ++ rd ++ ra ++ (0 : BitVec 2) ++ imm

/-- Format CB of R242. -/
def encCB (op : BitVec 6) (ra rb : Reg) (target : BitVec 13) : Word := op ++ ra ++ rb ++ (0 : BitVec 7) ++ target

/-- The cox that executes a cox instruction and the instruction's word (R243); none for every other command. -/
def coxWord : Instr → Option (CoxNo × Word)
  | .coxAdd x rd ra rb => some (x, encCR 0o01 rd ra rb)
  | .coxSub x rd ra rb => some (x, encCR 0o02 rd ra rb)
  | .coxAnd x rd ra rb => some (x, encCR 0o03 rd ra rb)
  | .coxOr x rd ra rb => some (x, encCR 0o04 rd ra rb)
  | .coxXor x rd ra rb => some (x, encCR 0o05 rd ra rb)
  | .shl x rd ra imm => some (x, encCI 0o06 rd ra imm)
  | .shr x rd ra imm => some (x, encCI 0o07 rd ra imm)
  | .coxAddi x rd ra imm => some (x, encCI 0o10 rd ra imm)
  | .ld x rd ra imm => some (x, encCI 0o11 rd ra imm)
  | .st x rd ra imm => some (x, encCI 0o12 rd ra imm)
  | .beq x ra rb target => some (x, encCB 0o13 ra rb target)
  | .bne x ra rb target => some (x, encCB 0o14 ra rb target)
  | .bltu x ra rb target => some (x, encCB 0o15 ra rb target)
  | .jmp x target => some (x, encCB 0o16 0 0 target)
  | .bnxt x target => some (x, encCB 0o17 0 0 target)
  | .waits x rd => some (x, encCR 0o20 rd 0 0)
  | .idle x => some (x, encCR 0o21 0 0 0)
  | .strk x rd => some (x, encCR 0o22 rd 0 0)
  | .pend x rd ra => some (x, encCR 0o23 rd ra 0)
  | .pick x rd ra => some (x, encCR 0o24 rd ra 0)
  | .seatst x rd ra => some (x, encCR 0o25 rd ra 0)
  | .post x rd ra rb => some (x, encCR 0o26 rd ra rb)
  | .postp x rd ra rb => some (x, encCR 0o27 rd ra rb)
  | .relay x rd ra rb => some (x, encCR 0o30 rd ra rb)
  | .taker x rd => some (x, encCR 0o31 rd 0 0)
  | .cnt x imm => some (x, encCI 0o32 0 0 imm)
  | _ => none

/-- Bits 29-25 of a cox word: rd, or ra of format CB (R242). -/
def cfA (w : Word) : Reg := w.extractLsb' 25 5
/-- Bits 24-20: ra, or rb of format CB. -/
def cfB (w : Word) : Reg := w.extractLsb' 20 5
/-- Bits 19-15: rb of format CR. -/
def cfC (w : Word) : Reg := w.extractLsb' 15 5
/-- imm of format CI. -/
def cfImm (w : Word) : BitVec 18 := w.extractLsb' 0 18
/-- target of format CB. -/
def cfTarget (w : Word) : BitVec 13 := w.extractLsb' 0 13

/-- How cox x decodes a word (R242, R243): by its opcode in bits 35-30; none for an unassigned one. Fields that are res0 or
that the mnemonic does not name are ignored (00 R11). -/
def decodeCox (x : CoxNo) (w : Word) : Option Instr :=
  match (w.extractLsb' 30 6).toNat with
  | 0o01 => some (.coxAdd x (cfA w) (cfB w) (cfC w))
  | 0o02 => some (.coxSub x (cfA w) (cfB w) (cfC w))
  | 0o03 => some (.coxAnd x (cfA w) (cfB w) (cfC w))
  | 0o04 => some (.coxOr x (cfA w) (cfB w) (cfC w))
  | 0o05 => some (.coxXor x (cfA w) (cfB w) (cfC w))
  | 0o06 => some (.shl x (cfA w) (cfB w) (cfImm w))
  | 0o07 => some (.shr x (cfA w) (cfB w) (cfImm w))
  | 0o10 => some (.coxAddi x (cfA w) (cfB w) (cfImm w))
  | 0o11 => some (.ld x (cfA w) (cfB w) (cfImm w))
  | 0o12 => some (.st x (cfA w) (cfB w) (cfImm w))
  | 0o13 => some (.beq x (cfA w) (cfB w) (cfTarget w))
  | 0o14 => some (.bne x (cfA w) (cfB w) (cfTarget w))
  | 0o15 => some (.bltu x (cfA w) (cfB w) (cfTarget w))
  | 0o16 => some (.jmp x (cfTarget w))
  | 0o17 => some (.bnxt x (cfTarget w))
  | 0o20 => some (.waits x (cfA w))
  | 0o21 => some (.idle x)
  | 0o22 => some (.strk x (cfA w))
  | 0o23 => some (.pend x (cfA w) (cfB w))
  | 0o24 => some (.pick x (cfA w) (cfB w))
  | 0o25 => some (.seatst x (cfA w) (cfB w))
  | 0o26 => some (.post x (cfA w) (cfB w) (cfC w))
  | 0o27 => some (.postp x (cfA w) (cfB w) (cfC w))
  | 0o30 => some (.relay x (cfA w) (cfB w) (cfC w))
  | 0o31 => some (.taker x (cfA w))
  | 0o32 => some (.cnt x (cfImm w))
  | _ => none

/-- The registers that a cox instruction reads (R243). -/
def coxReads : Instr → List Reg
  | .coxAdd _ _ ra rb | .coxSub _ _ ra rb | .coxAnd _ _ ra rb | .coxOr _ _ ra rb | .coxXor _ _ ra rb => [ra, rb]
  | .shl _ _ ra _ | .shr _ _ ra _ | .coxAddi _ _ ra _ | .ld _ _ ra _ => [ra]
  | .st _ rd ra _ => [ra, rd]
  | .beq _ ra rb _ | .bne _ ra rb _ | .bltu _ ra rb _ => [ra, rb]
  | .pend _ _ ra | .pick _ _ ra | .seatst _ _ ra => [ra]
  | .post _ rd ra rb | .postp _ rd ra rb | .relay _ rd ra rb => [rd, ra, rb]
  | _ => []

/-- The registers that a delayed writer writes (R243, column D); h0 takes no write (R238). -/
def coxDelays : Instr → List Reg
  | .ld _ rd _ _ | .waits _ rd | .pend _ rd _ | .pick _ rd _ | .seatst _ rd _ => [rd].filter (· != 0)
  | .taker _ rd => [rd, rd + 1].filter (· != 0)
  | _ => []

/-- The target of a branch (R243). -/
def coxTarget : Instr → Option (BitVec 13)
  | .beq _ _ _ target | .bne _ _ _ target | .bltu _ _ _ target | .jmp _ target | .bnxt _ target => some target
  | _ => none

/-- May the cox's program hold the instruction (R241)? -/
def coxMayHold (x : CoxNo) : Instr → Bool
  | .post _ _ _ _ | .postp _ _ _ _ => decide (3 ≤ x.val)
  | .taker _ _ => x != 0
  | .relay _ _ _ _ => decide (x.val < 3)
  | _ => true

/-- The words of a program up to its last that is not 0: the rest of an image's slot holds no instruction. DESIGN CHOICE,
log 58. -/
def coxProgram (ws : List Word) : List Word := (ws.reverse.dropWhile (· == 0)).reverse

/-- May the instruction at address i of a program stand there, after the one before it and before those that can follow
(R241)? The follower of a delay slot is the branch's target, or the next word after a branch that need not be taken and
where another branch of the program enters at the slot itself. DEDUCED, log 81. -/
def coxPlaced (x : CoxNo) (ins : List (Option Instr)) (i : Nat) : Bool :=
  let at_ := fun a => (ins.getD a none)
  match at_ i with
  | none => false
  | some w =>
    let before := if i = 0 then none else (at_ (i - 1)).bind coxTarget
    let always := match (if i = 0 then none else at_ (i - 1)) with
      | some (.jmp _ _) => true
      | _ => false
    let entered := ins.any fun n => (n.bind coxTarget).any fun t => t.toNat == i
    let next := (if always && !entered then [] else [at_ (i + 1)]) ++ (before.toList.map fun t => at_ t.toNat)
    coxMayHold x w && !(before.isSome && (coxTarget w).isSome)
      && next.all fun n => (n.toList.flatMap coxReads).all fun r => !(coxDelays w).contains r

/-- Does image verification accept a cox's program (R241)? -/
def coxProgramOk (x : CoxNo) (ws : List Word) : Bool :=
  let ins := (coxProgram ws).map (decodeCox x)
  (List.range ins.length).all (coxPlaced x ins)

end Sys2Proof
end

