-- ==== Sys2Proof/Machine/Fuses.lean ====
section
/-! DEFINITION. The rollback fuses (18 R494, R506): counting and programming. -/

namespace Sys2Proof.Machine

/-- Word i of the OTP. -/
def otpWord (s : State) (i : Nat) : Word := smGet 0 s.boot.otp i

/-- Fuse f, 0 to 63, of rollback counter k (R494). -/
def fuseSet (s : State) (k f : Nat) : Bool := bit (otpWord s (0o41 + 2 * k + f / 32)) (f % 32)

/-- The fuses of counter k that are not programmed. -/
def fusesLeft (s : State) (k : Nat) : List Nat := (List.range 64).filter fun f => !fuseSet s k f

/-- The value of rollback counter k: the number of fuses set (R494). -/
def rollback (s : State) (k : Nat) : Nat := 64 - (fusesLeft s k).length

/-- Programs one more fuse of counter k. Which one is a free value: the spec counts fuses only (log 5). -/
def programFuse (s : State) (k : Nat) : State :=
  let left := fusesLeft s k
  match left[(Config.openWord s.free).toNat % left.length]? with
  | none => s
  | some f =>
    let i := 0o41 + 2 * k + f / 32
    { s with free := s.free + 1,
             boot := { s.boot with otp := smSet 0 s.boot.otp i (otpWord s i ||| flag (f % 32) true) } }

/-- Programs fuses until counter k reaches v. -/
def advanceTo : Nat → State → Nat → Nat → State
  | 0, s, _, _ => s
  | fuel + 1, s, k, v => if rollback s k < v then advanceTo fuel (programFuse s k) k v else s

/-- The rollback counter that guards an image of a type (R494): RB0 Keel, RB1 both sides, RB2 the imposition. -/
def rbOf (ty : Nat) : Nat := if ty = 1 then 0 else if ty = 4 then 2 else 1

/-- Advances the counters to the SVNs of the running images with COMMIT (R506). -/
def advanceRollback (s : State) : State :=
  [1, 2, 3, 4].foldl (fun s ty =>
    let v := smGet 0 s.boot.svn ty
    if v % 2 = 1 then advanceTo 64 s (rbOf ty) (v / 2) else s) s

end Sys2Proof.Machine
end

