-- ==== Sys2Proof/Machine/OctetOps.lean ====
section
/-! DEFINITION. Packed-octet instructions (05 R150). -/

namespace Sys2Proof.Machine

/-- Slot k of a word, its presence bit included (R150). -/
def slotBits (w : Word) (k : Nat) : Nat := bits w (9 * k + 8) (9 * k)

/-- The slot that OGET and OPUT select (R150). -/
def slotNo (b : Word) (aux : Reg) : Nat := (b.toNat + aux.toNat) % 4

/-- The present octets in slot order (R150 OUNPK). -/
def presentOctets (w : Word) : List Octet := ((List.range 4).filter (slotPresent w)).map (slotOctet w)

/-- Is the word in prefix form (00 R6): the present slots come first, every absent slot is 0? -/
def prefixForm (w : Word) : Bool := packWord (presentOctets w) == w

/-- OPACK (R150): the low 8n bits, most significant octet first, into slots 0 to n-1. -/
def packLow (a : Word) (n : Nat) : Word := packWord (beOctets n (a.toNat % 2 ^ (8 * n)))

/-- OPACK (R150). -/
def execOpack (q : SeatNo) (rd ra aux : Reg) (s : State) : Out State :=
  regOp1 q (.opack q rd ra aux) rd ra (fun a => packLow a aux.toNat) s

/-- OUNPK (R150): the present octets as an unsigned integer, the first most significant. -/
def execOunpk (q : SeatNo) (rd ra : Reg) (s : State) : Out State :=
  regOp1 q (.ounpk q rd ra) rd ra (fun a => BitVec.ofNat 36 (beNat (presentOctets a))) s

/-- OGET (R150): slot k of w[ra] in bits 8-0. -/
def execOget (q : SeatNo) (rd ra rb aux : Reg) (s : State) : Out State :=
  regOp2 q (.oget q rd ra rb aux) rd ra rb (fun a b => field 0 (slotBits a (slotNo b aux))) s

/-- OPUT (R150): slot k of w[rd] := w[ra] bits 8-0. -/
def execOput (q : SeatNo) (rd ra rb aux : Reg) (s : State) : Out State :=
  seatRun q (.oput q rd ra rb aux) anyMode
    (fun s =>
      let k := slotNo (wGet s q.val rb.toNat) aux
      done (wSet s q.val rd.toNat (insertField (wGet s q.val rd.toNat) (wGet s q.val ra.toNat) (9 * k) 9))) s

/-- OCNT (R150): bits 2-0 the number of presence bits set; bit 3 prefix form. -/
def execOcnt (q : SeatNo) (rd ra : Reg) (s : State) : Out State :=
  regOp1 q (.ocnt q rd ra) rd ra
    (fun a => field 0 (((List.range 4).filter (slotPresent a)).length) ||| flag 3 (prefixForm a)) s

end Sys2Proof.Machine
end

