-- ==== Sys2Proof/Machine/Keys.lean ====
section
/-! DEFINITION. Key slots (12 R370 to R372), key handles (R373), packed-octet sequences (04 R114) and the DRBG's draws
(12 R393, R394). -/

namespace Sys2Proof.Machine

/-- The number of key slots (12 R367). -/
def slotCount : Nat := 1048576

/-- Word i of slot n. -/
def slotWord (s : State) (n i : Nat) : Word := smGet 0 s.custody.slots (16 * n + i)

def slotState (s : State) (n : Nat) : Nat := bits (slotWord s n 0) 35 33
def slotType (s : State) (n : Nat) : Nat := bits (slotWord s n 0) 32 28
def slotUsage (s : State) (n : Nat) : Nat := bits (slotWord s n 0) 27 19
def slotOwner (s : State) (n : Nat) : Nat := bits (slotWord s n 0) 15 0
def slotALen (s : State) (n : Nat) : Nat := bits (slotWord s n 1) 32 21
def slotAOff (s : State) (n : Nat) : Nat := bits (slotWord s n 1) 20 0

/-- The attributes of USAGE (12 R370), from ENC, bit 8 of the field, to EXPORT, bit 0. -/
def uENC : Nat := 0x100
def uDEC : Nat := 0x080
def uSIGN : Nat := 0x040
def uVERIFY : Nat := 0x020
def uWRAP : Nat := 0x010
def uUNWRAP : Nat := 0x008
def uDERIVE : Nat := 0x004
def uPIN : Nat := 0x002
def uEXPORT : Nat := 0x001

/-- Does the slot's stripe poison its jobs (12 R369)? -/
def slotPoisoned (s : State) (n : Nat) : Bool := smGet false s.custody.slotPoison n

/-- The octets of a packed-octet sequence (04 R114); none when it is not in prefix form or holds a word without an octet
(R115). -/
def seqOctets (ws : List Word) : Option (List Octet) :=
  if ws.all prefixForm && ws.dropLast.all (fun w => (presentOctets w).length == 4) && ws.all (fun w => w != 0) then
    some (ws.flatMap presentOctets) else none

/-- Octets as a packed-octet sequence. -/
def seqWords (os : List Octet) : List Word := (chunks 4 os).map packWord

/-- The arena words of a slot (12 R371). -/
def arenaWords (s : State) (n : Nat) : List Word := smGetList 0 s.custody.arena (slotAOff s n) (slotALen s n)

/-- The key octets of a slot: inline, or in the arena for a long HMAC key (12 R371). -/
def slotKey (s : State) (n : Nat) : List Octet :=
  if slotALen s n = 0 then (smGetList 0 s.custody.slots (16 * n + 4) 8).flatMap presentOctets
  else (arenaWords s n).flatMap presentOctets

/-- A big integer, least significant word first (12 R380). -/
def bigNat : List Word → Nat
  | [] => 0
  | w :: ws => w.toNat + space36 * bigNat ws

/-- L words of a big integer (12 R380). -/
def bigWords : Nat → Nat → List Word
  | 0, _ => []
  | n + 1, v => BitVec.ofNat 36 v :: bigWords n (v / space36)

/-- The type codes of AES keys. -/
def isAes (ty : Nat) : Bool := decide (1 ≤ ty) && decide (ty ≤ 3)

/-- Is the live bit of seal v set (02 R63)? -/
def sealOn (s : State) (v : Nat) : Bool := smGet false s.sys.sealLive v

/-- The check of a key handle by an attached instruction (05 R183): the cause, none when it passes. A slot in a poisoned
stripe, which 12 R369 speaks of for engine jobs alone, fails order 6. DESIGN CHOICE, log 70. -/
def handleCause (s : State) (c : Cap) (usage cur : Nat) : Option Nat :=
  let n := capCursor c
  if !c.tag then some cTAG
  else if capSeal c ≠ 65535 then some cSEALED
  else if !holds (capRights c) rKY then some cRIGHTS
  else if !sealOn s 65535 then some cSEALRETIRED
  else if !(decide (capBase c ≤ n) && decide (n ≤ capLast c)) then some cBOUNDS
  else if decide (n < slotCount) && !slotPoisoned s n && slotState s n == 1 && isAes (slotType s n)
      && slotUsage s n &&& usage != 0 && (slotOwner s n == 0 || slotOwner s n == cur) then none
  else some cRIGHTS

/-- V counted on by n, modulo 2^128 (SP 800-90A 10.2.1). -/
def drbgCount (v : List Octet) (n : Nat) : List Octet := beOctets 16 ((beNat v + n) % 2 ^ 128)

/-- n blocks: V + 1 onward, each encrypted. -/
def drbgBlocks (key v : List Octet) (n : Nat) : List Octet :=
  (List.range n).flatMap fun i => aesEncrypt key (drbgCount v (i + 1))

/-- CTR_DRBG_Update (SP 800-90A 10.2.1.2) with provided data of 48 octets. -/
def drbgUpdate (d : Drbg) (data : List Octet) : Drbg :=
  let t := xorOctets (drbgBlocks d.key d.v 3) data
  { key := t.take 32, v := (t.drop 32).take 16 }

/-- The CBC-MAC of whole blocks under a key (SP 800-90A 10.3.3). -/
def drbgBcc (key : List Octet) (blocks : List (List Octet)) : List Octet :=
  blocks.foldl (fun c b => aesEncrypt key (xorOctets c b)) (List.replicate 16 0)

/-- Blocks made from a block by encrypting it over and over. -/
def drbgChain (key : List Octet) : Nat → List Octet → List Octet
  | 0, _ => []
  | n + 1, x =>
    let y := aesEncrypt key x
    y ++ drbgChain key n y

/-- The derivation function (SP 800-90A 10.3.2) to 48 octets. -/
def drbgDf (input : List Octet) : List Octet :=
  let body := beOctets 4 input.length ++ beOctets 4 48 ++ input ++ [0x80]
  let padded := chunks 16 (pad16 body)
  let k0 := (List.range 32).map (BitVec.ofNat 8)
  let t := (List.range 3).flatMap fun i => drbgBcc k0 ((beOctets 4 i ++ List.replicate 12 0) :: padded)
  drbgChain (t.take 32) 3 ((t.drop 32).take 16)

/-- 256 bits of conditioned entropy from each healthy source (12 R393, R394). -/
def entropyInput (s : State) : List Octet :=
  (if s.custody.entropy0 then (List.range 32).map (Config.entropyOctet 0 s.free) else [])
    ++ (if s.custody.entropy1 then (List.range 32).map (Config.entropyOctet 1 s.free) else [])

/-- Instance i holds a working state, from fresh entropy; no request is served since then (12 R393). -/
def drbgSeeded (s : State) (i : Nat) (d : Drbg) : State :=
  let c := s.custody
  { s with free := s.free + 1,
           custody := { c with drbgs := smSet none c.drbgs i (some d), requests := smSet 0 c.requests i 0,
                               reseedAt := smSet 0 c.reseedAt i s.time, refusing := smSet false c.refusing i false } }

/-- An instance is instantiated, with a nonce of 128 bits and no personalization string (12 R393). -/
def drbgInstantiate (s : State) (i : Nat) : State :=
  let nonce := (List.range 16).map (Config.entropyOctet 2 s.free)
  drbgSeeded s i (drbgUpdate { key := List.replicate 32 0, v := List.replicate 16 0 } (drbgDf (entropyInput s ++ nonce)))

/-- An instance that holds a state reseeds from the healthy sources (12 R393, R394). -/
def drbgReseed (s : State) (i : Nat) : State :=
  match smGet none s.custody.drbgs i with
  | none => s
  | some d => drbgSeeded s i (drbgUpdate d (drbgDf (entropyInput s)))

/-- n octets from a DRBG instance by one generate request without prediction resistance (12 R393, SP 800-90A 10.2.1.5). An
instance without a state gives free values (log 5). -/
def drbgDraw (s : State) (inst n : Nat) : List Octet × State :=
  let c := s.custody
  let requests := smSet 0 c.requests inst (smGet 0 c.requests inst + 1)
  match smGet none c.drbgs inst with
  | none => ((List.range n).map fun i => Config.drbgOctet inst s.free i,
             { s with free := s.free + 1, custody := { c with requests := requests } })
  | some d =>
    let blocks := (n + 15) / 16
    let next := drbgUpdate { d with v := drbgCount d.v blocks } (List.replicate 48 0)
    ((drbgBlocks d.key d.v blocks).take n,
     { s with custody := { c with requests := requests, drbgs := smSet none c.drbgs inst (some next) } })

/-- Has the instance been refusing since its last reseed fell due with both sources failed (12 R394)? -/
def drbgRefuses (s : State) (inst : Nat) : Bool := smGet false s.custody.refusing inst

end Sys2Proof.Machine
end

