-- ==== Sys2Proof/Machine/Engines.lean ====
section
/-! DEFINITION. Engine requests and responses (12 R374 to R381), the slot checks, entropy and reseeding (R392 to R394). An
engine does a job when it takes the request; the response is committed by ENGINE_RESPONSE. -/

namespace Sys2Proof.Machine

/-- DETAIL codes of R379. -/
def dEmpty : Nat := 1
def dType : Nat := 2
def dUsage : Nat := 3
def dOwner : Nat := 4
def dStroke : Nat := 5
def dMaster : Nat := 6
def dEntropy : Nat := 7
def dTarget : Nat := 8
def dPinDir : Nat := 9
def dVerify : Nat := 10
def dMac : Nat := 11
def dPin : Nat := 12

/-- The operation codes of each engine (R382, R385, R389, R391). -/
def platenOps : List Nat := [0o100, 0o102, 0o103, 0o110, 0o111]
def cipherOps : List Nat :=
  [0o200, 0o201, 0o202, 0o203, 0o204, 0o210, 0o211, 0o212, 0o220, 0o221, 0o222, 0o230,
   0o240, 0o241, 0o242, 0o243, 0o244, 0o245]
def digestOps : List Nat := [0o300, 0o301, 0o302]

/-- Does the operation belong to the engine (R377 order 2)? -/
def opBelongs (u op : Nat) : Bool :=
  (isPlaten u && platenOps.contains op) || (isCipher u && cipherOps.contains op) || (isDigest u && digestOps.contains op)

/-- Is it any engine's operation? -/
def opKnown (op : Nat) : Bool := platenOps.contains op || cipherOps.contains op || digestOps.contains op

/-- Does the unit run: its domain has power and is out of reset? -/
def unitRuns (s : State) (u : Nat) : Bool :=
  s.pins.porN && !dark s.power && !smGet false s.power.domOff (unitDomain u)

/-- Jobs in progress at once (R378, 14 R423). -/
def unitJobs (u : Nat) : Nat := if isCipher u then 16 else if isDigest u then 4 else 1

/-- A request as the engine reads it (R375). -/
structure Req where
  unit : Nat
  lane : Nat
  op   : Nat
  mode : Nat
  k1   : Cap
  k2   : Cap
  ops  : List Word
  /-- OPLEN matches the words present -/
  whole : Bool
  /-- the consumer gate of the request lane -/
  gate : Cap

/-- The request of a message. -/
def reqOf (s : State) (u l : Nat) (m : Msg) : Req :=
  let w := fun i => m.words.getD i 0
  let cap := fun g => ({ w0 := w (4 * g), w1 := w (4 * g + 1), w2 := w (4 * g + 2), w3 := w (4 * g + 3),
                         tag := m.tags.getD g false } : Cap)
  { unit := u, lane := l, op := bits (w 0) 35 27, mode := bits (w 0) 23 16, k1 := cap 1, k2 := cap 2,
    ops := m.words.drop 12, whole := decide (m.words.length = 12 + bits (w 2) 12 0), gate := laneGate s l }

/-- What a job comes to: status, DETAIL, result words, what it writes at its completion. -/
structure Ans where
  status : Nat := 0
  detail : Nat := 0
  result : List Word := []
  commit : Option SlotWrite := none
deriving DecidableEq, Repr

/-- OK with result words. -/
def ansOk (s : State) (ws : List Word) : Ans × State := ({ result := ws }, s)
/-- A failure. -/
def ansFail (s : State) (f : Nat × Nat) : Ans × State := ({ status := f.1, detail := f.2 }, s)
/-- BAD_DESCRIPTOR. -/
def ansBad (s : State) : Ans × State := ansFail s (stBadDescriptor, 0)

/-- Orders 1 to 5 of R374. -/
def handleFail (s : State) (c : Cap) : Option (Nat × Nat) :=
  let n := capCursor c
  if c.tag && capSeal c == 65535 && holds (capRights c) rKY && sealOn s 65535
      && decide (capBase c ≤ n) && decide (n ≤ capLast c) && decide (n < slotCount) then none
  else some (stCapability, 0)

/-- The checks of R374 on a handle: the slot is usable for the request (R372). usage 0 asks for no attribute. -/
def keyFail (s : State) (r : Req) (c : Cap) (types : Nat → Bool) (usage : Nat) : Option (Nat × Nat) :=
  let n := capCursor c
  match handleFail s c with
  | some f => some f
  | none =>
    if slotPoisoned s n then some (stPoison, 0)
    else if slotState s n ≠ 1 then some (stKey, dEmpty)
    else if !types (slotType s n) then some (stKey, dType)
    else if slotUsage s n &&& usage ≠ usage then some (stKey, dUsage)
    else if !(slotOwner s n == 0 || slotOwner s n == capSeal r.gate) then some (stKey, dOwner)
    else none

/-- A handle field that holds nothing (R375, 02 R30). -/
def handleNull (c : Cap) : Bool := c == capNull

/-- The slots a request read. -/
def reqSlots (r : Req) : List Nat :=
  ([r.k1, r.k2].filter fun c => !handleNull c).map capCursor

/-- Order 1 of R377: RLANE is an open lane of kind 4 under the same consumer seal. Neither lane counts as open where the fence
refuses the lane unit the granules that say so (09 R280, R551). -/
def rlaneOk (s : State) (l rl : Nat) : Bool :=
  match classOf s rl with
  | some k => clKind s k == 4 && descReads s rl 1 && descReads s rl 2 && descReads s l 2 && (laneSt s rl).state == lsOpen
      && capSeal (laneGate s rl) == capSeal (laneGate s l)
  | none => false

/-- The lane unit's reads for order 1 of R377: RLANE's STATE and gate, and the gate of the request lane (09 R280, R551). -/
def rlaneRead (s : State) (l rl : Nat) : State :=
  match classOf s rl with
  | some k => if clKind s k = 4 then (laneReach (reachAll s rl [(1, 0), (2, 0)]).2 l 2).2 else s
  | none => s

/-- The request at HEAD of the lane whose turn it is at an engine (R375, R378): an open lane of kind 3 whose UNIT it is. It is
taken, and its credits return, when want holds of it. -/
def engineTake (s : State) (u l : Nat) (want : Msg → Bool) : Option Msg × State :=
  match unitHead s u l with
  | (none, s) => (none, s)
  | (some (m, k), t) =>
    if clKind s k == 3 && want m then (some m, takeMsg (noteServed t u l k) l m true) else (none, t)

/-- Adds a job that has read its request. -/
def addJob (s : State) (j : Job) : State := { s with engines := { s.engines with jobs := s.engines.jobs ++ [j] } }

/-- A request without a usable RLANE: no response, a notice BAD_DESCRIPTOR (R377). -/
def refuseRequest (s : State) (u l : Nat) (m : Msg) : State :=
  completeCount (notice s l { status := stBadDescriptor, sq := some m.sq, len := m.words.length, who := u }) u
    stBadDescriptor

/-- A custody operation waits while an earlier one that has not completed names a slot of its (R381). DEDUCED, log 86. -/
def custodyWaits (s : State) (r : Req) : Bool :=
  s.engines.jobs.any fun j => j.custody && j.slots.any (reqSlots r).contains

/-- Does the message at HEAD call for the command of operation op (R377)? -/
def engineWants (s : State) (u l op : Nat) (custody : Bool) (m : Msg) : Bool :=
  let o := bits (m.words.getD 0 0) 35 27
  !opKnown o || (o == op && !(custody && custodyWaits s (reqOf s u l m)))

/-- A command of operation op on a unit and a lane (R377): the engine takes the request at HEAD and does the job. A request
whose OP is no engine's is taken by whichever command comes (R377 order 2). -/
def engineCommand (unit : UnitCode) (lane : LaneNo) (op : Nat) (custody : Bool) (body : State → Req → Ans × State)
    (s : State) : Out State :=
  let u := unit.toNat
  let l := lane.toNat
  if !(isPlaten u || isCipher u || isDigest u) then .fault .noSuchUnit
  else if !unitRuns s u || decide (unitJobs u ≤ (s.engines.jobs.filter fun j => j.unit == u).length) then .next s
  else
    match engineTake s u l (engineWants s u l op custody) with
    | (none, s) => .next s
    | (some m, s) =>
      let s := unitCount s u 0 1
      let w0 := m.words.getD 0 0
      let rl := bits w0 15 0
      if !rlaneOk s l rl then .next (refuseRequest (rlaneRead s l rl) u l m)
      else
        let r := reqOf s u l m
        let (a, s) := if opBelongs u r.op && r.whole then body s r else ansBad s
        .next (addJob s { unit := u, lane := lane, rlane := BitVec.ofNat 16 rl, reqId := m.words.getD 1 0, op := r.op,
                          status := a.status, detail := a.detail, result := a.result, slots := reqSlots r,
                          custody := custody && r.op == op, commit := a.commit })

/-- Must the job wait: KDEL, while a job that read its slot before the destruction has not completed (R381)? A job that stands
behind it on its own lane answers after it (R378) and is not waited for. DEDUCED, log 86. -/
def jobWaits (js : List Job) (j : Job) : Bool :=
  let behind := (js.dropWhile fun x => x != j).filter fun x => x.unit == j.unit && x.lane == j.lane
  j.op == 0o243 && j.commit.isSome && js.any fun x => !behind.contains x && x.slots.any j.slots.contains

/-- What a completing job writes, in one action (R381). -/
def commitSlot (s : State) (w : Option SlotWrite) : State :=
  match w with
  | none => s
  | some w =>
    let c := s.custody
    { s with custody := { c with
        slots := smSetList 0 c.slots (16 * w.slot) w.words, arena := smSetList 0 c.arena w.aoff w.arena,
        slotPoison := if w.clear then smSet false c.slotPoison w.slot false else c.slotPoison } }

/-- Is a response of the unit for the lane held (09 R292)? Later ones keep their order behind it (R378). -/
def responseHeld (s : State) (u : Nat) (lane : LaneNo) : Bool :=
  s.lanes.held.any fun h => h.unit == u && h.req == some lane

/-- Does an RSA_PRIV job complete with a mismatch of its check (R383)? -/
def verifyFailed (j : Job) : Bool := j.op == 0o110 && j.status == stCheck && j.detail == dVerify

/-- ENGINE_RESPONSE (R376, R378, R381; 14 R433): the unit's oldest job of the lane commits its response; a parse that asks
for it writes its notice. -/
def execEngineResponse (unit : UnitCode) (lane : LaneNo) (s : State) : Out State :=
  let u := unit.toNat
  if !(isPlaten u || isCipher u || isDigest u || isCompositor u) then .fault .noSuchUnit
  else
    match s.engines.jobs.find? fun j => j.unit == u && j.lane == lane with
    | none => .next s
    | some j =>
      if !unitRuns s u || responseHeld s u lane || jobWaits s.engines.jobs j then .next s
      else
        let s := commitSlot { s with engines := { s.engines with jobs := s.engines.jobs.erase j } } j.commit
        let s := completeCount s u j.status
        let s := if verifyFailed j then unitCount (logEvent 10 (unitSource u) s) u 8 1 else s
        let s := (putOrHold s u none (some lane) j.rlane.toNat (responseWords j)).2
        .next (match j.reject with
          | some (rej, ws) =>
            match putLane s rej.toNat ws with
            | (0, s) => s
            | (_, s) => unitCount s u 7 1
          | none => s)

/-- ENTROPY_FAILURE (R392): a source stops contributing until a reset; the event is logged. -/
def execEntropyFailure (src : Fin 2) (s : State) : Out State :=
  let c := s.custody
  if src = 0 then
    .next (if c.entropy0 then logEvent 6 (unnamedSource s) { s with custody := { c with entropy0 := false } } else s)
  else .next (if c.entropy1 then logEvent 6 (unnamedSource s) { s with custody := { c with entropy1 := false } } else s)

/-- Is a reseed of the instance due: 100 ms after the last, or after 2^16 requests (R393)? -/
def reseedDue (s : State) (i : Nat) : Bool :=
  decide (100000000 + smGet 0 s.custody.reseedAt i ≤ s.time) || decide (65536 ≤ smGet 0 s.custody.requests i)

/-- DRBG_RESEED (R393, R394): with no healthy source the instance refuses from then on. -/
def execDrbgReseed (inst : Fin 4) (s : State) : Out State :=
  let i := inst.val
  let c := s.custody
  if !reseedDue s i then .next s
  else if c.entropy0 || c.entropy1 then .next (drbgReseed s i)
  else .next { s with custody := { c with refusing := smSet false c.refusing i true } }

end Sys2Proof.Machine
end

