-- ==== Sys2Proof/Machine/Platens.lean ====
section
/-! DEFINITION. The platens (12 R382, R383). -/

namespace Sys2Proof.Machine

/-- Platen j's operand of L words from word i of the operands. -/
def bigAt (r : Req) (i n : Nat) : Nat := bigNat ((r.ops.drop i).take n)

/-- The operations on L; A; B; M (R382): odd when the modulus must be odd, below when B must lie below it. -/
def platenThree (mode : Nat → Bool) (odd below : Bool) (f : Nat → Nat → Nat → Nat → Nat) (s : State) (r : Req) :
    Ans × State :=
  let n := bits (r.ops.getD 0 0) 6 0
  let a := bigAt r 1 n
  let b := bigAt r (1 + n) n
  let m := bigAt r (1 + 2 * n) n
  if !(mode r.mode && handleNull r.k1 && handleNull r.k2 && decide (1 ≤ n) && decide (n ≤ 86)
      && r.ops.length == 1 + 3 * n) then ansBad s
  else if decide (m ≤ a) || (below && decide (m ≤ b)) || (odd && m % 2 == 0) then ansBad s
  else ansOk s (bigWords n (f r.mode a b m))

/-- MODADD (R382). -/
def execModadd (unit : UnitCode) (lane : LaneNo) (s : State) : Out State :=
  engineCommand unit lane 0o100 false
    (platenThree (· ≤ 1) false true fun mode a b m => (if mode = 0 then a + b else a + m - b) % m) s

/-- MODMUL (R382). -/
def execModmul (unit : UnitCode) (lane : LaneNo) (s : State) : Out State :=
  engineCommand unit lane 0o102 false (platenThree (· == 0) true true fun _ a b m => a * b % m) s

/-- MODEXP (R382). -/
def execModexp (unit : UnitCode) (lane : LaneNo) (s : State) : Out State :=
  engineCommand unit lane 0o103 false (platenThree (· == 0) true false fun _ a e m => powMod a e m) s

/-- The words of n and of one CRT half, from the arena length 2L + 5H of an RSA private key, where L is 2H or 2H - 1
(R371). DEDUCED, log 40. -/
def rsaShape (alen : Nat) : Option (Nat × Nat) :=
  if alen = 0 then none
  else if alen % 9 = 0 then some (2 * (alen / 9), alen / 9)
  else if alen % 9 = 7 then some (2 * (alen / 9 + 1) - 1, alen / 9 + 1)
  else none

/-- The inverse of a modulo n, by Euclid's algorithm with the coefficients u and v of its remainders. -/
def invFuel : Nat → Nat → Nat → Int → Int → Int
  | 0, _, _, u, _ => u
  | fuel + 1, a, b, u, v => if b = 0 then u else invFuel fuel b (a % b) v (u - (a / b : Nat) * v)

/-- The inverse of a modulo n. -/
def invMod (a n : Nat) : Nat := (invFuel (2 * n.log2 + 4) a n 1 0 % (n : Int)).toNat

/-- The blinding value r of a draw, 1 < r < n, with an inverse modulo n (R383): the first such at or after the drawn number.
DESIGN CHOICE, log 41. -/
def blinding (v n : Nat) : Nat :=
  (((List.range 64).map fun i => 2 + (v + i) % (n - 2)).find? fun r => Nat.gcd r n == 1).getD 1

/-- The CRT private operation (R383 steps 2 and 3). -/
def rsaCrt (p q dp dq qinv x : Nat) : Nat :=
  let a := powMod x dp p
  let b := powMod x dq q
  b + q * (qinv * (a + p - b % p) % p)

/-- The body of RSA_PRIV (R383): blinded, halves, recombined and unblinded, checked. A mismatch is logged when the job
completes. -/
def rsaPriv (s : State) (r : Req) : Ans × State :=
  if !(decide (r.mode ≤ 1) && !handleNull r.k1 && handleNull r.k2 && decide (1 ≤ r.ops.length)
      && decide (r.ops.length ≤ 86)) then ansBad s
  else match keyFail s r r.k1 (· == 6) (if r.mode = 0 then uSIGN else uDEC) with
  | some f => ansFail s f
  | none =>
    let ws := arenaWords s (capCursor r.k1)
    match rsaShape ws.length with
    | none => ansBad s
    | some (l, h) =>
      let part := fun i => bigNat ((ws.drop (2 * l + i * h)).take h)
      let n := bigNat (ws.take l)
      let e := bigNat ((ws.drop l).take l)
      let x := bigNat r.ops
      if r.ops.length ≠ l ∨ n ≤ x ∨ n % 2 = 0 then ansBad s
      else if drbgRefuses s 1 then ansFail s (stKey, dEntropy)
      else
        let (os, s) := drbgDraw s 1 (5 * l)
        let b := blinding (beNat os) n
        let y := rsaCrt (part 0) (part 1) (part 2) (part 3) (part 4) (x * powMod b e n % n) % n * invMod b n % n
        if powMod y e n = x then ansOk s (bigWords l y) else ansFail s (stCheck, dVerify)

/-- RSA_PRIV (R382, R383). -/
def execRsaPriv (unit : UnitCode) (lane : LaneNo) (s : State) : Out State :=
  engineCommand unit lane 0o110 false rsaPriv s

/-- x^e mod n, when x lies below an odd n. -/
def rsaPublic (s : State) (l x n e : Nat) : Ans × State :=
  if n ≤ x ∨ n % 2 = 0 then ansBad s else ansOk s (bigWords l (powMod x e n))

/-- The body of RSA_PUB: a slot, or a key inline with MODE bit 4 (R382). -/
def rsaPub (s : State) (r : Req) : Ans × State :=
  let len := r.ops.length
  if !(handleNull r.k2 && (r.mode == 0 || r.mode == 1 || r.mode == 16 || r.mode == 17) && decide (1 ≤ len)) then ansBad s
  else if 16 ≤ r.mode then
    let l := len / 3
    if !handleNull r.k1 || len % 3 != 0 || decide (86 < l) then ansBad s
    else rsaPublic s l (bigAt r 0 l) (bigAt r l l) (bigAt r (2 * l) l)
  else if handleNull r.k1 || decide (86 < len) then ansBad s
  else match keyFail s r r.k1 (· == 7) (if r.mode = 0 then uVERIFY else uENC) with
  | some f => ansFail s f
  | none =>
    let ws := arenaWords s (capCursor r.k1)
    let l := ws.length / 2
    if len ≠ l then ansBad s else rsaPublic s l (bigAt r 0 l) (bigNat (ws.take l)) (bigNat (ws.drop l))

/-- RSA_PUB (R382). -/
def execRsaPub (unit : UnitCode) (lane : LaneNo) (s : State) : Out State :=
  engineCommand unit lane 0o111 false rsaPub s

end Sys2Proof.Machine
end

