-- ==== Sys2Proof/Machine/Compositor.lean ====
section
/-! DEFINITION. The compositor (14): forms, the parse, PARSE. -/

namespace Sys2Proof.Machine

/-- Word i of form f of the active form store (R423, R424). -/
def formWord (s : State) (f i : Nat) : Word := smGet 0 s.engines.forms (65536 * f + i)

/-- The fields of a form's header (R424). -/
structure FormHead where
  nstates : Nat
  start   : Nat
  rejen   : Bool
  depth   : Nat
  maxf    : Nat
  rejlane : Nat

/-- The header of form f. -/
def formHead (s : State) (f : Nat) : FormHead :=
  let w0 := formWord s f 0
  let w1 := formWord s f 1
  ⟨bits w0 23 12, bits w0 11 0, bit w1 35, bits w1 34 31, bits w1 27 16, bits w1 15 0⟩

/-- Is a form resident: it has a state (R424 gives 1 to 4,091)? -/
def formResident (s : State) (f : Nat) : Bool := decide (1 ≤ (formHead s f).nstates)

/-- The class of an octet (R425). -/
def octetClass (s : State) (f : Nat) (o : Octet) : Nat :=
  bits (formWord s f (16 + o.toNat / 4)) (9 * (o.toNat % 4) + 3) (9 * (o.toNat % 4))

/-- The registers of a parse (R428). half is true while the first digit of a bitmap octet has been taken; stall counts
transitions without progress (R429). Records are newest first. -/
structure Parse where
  state   : Nat
  pos     : Nat := 0
  tag     : Nat := 0
  tlen    : Nat := 0
  len     : Nat := 0
  cnt     : Nat := 0
  bitmap  : List Octet := List.replicate 24 0
  bpos    : Nat := 0
  half    : Bool := false
  fnum    : Nat := 0
  stack   : List (Nat × Nat) := []
  records : List (List Word) := []
  stall   : Nat := 0
deriving DecidableEq, Repr

/-- What a transition does: it goes on (with progress or without), ends the parse, or rejects with a reason. -/
inductive PStep where
  | go (p : Parse) (progress : Bool)
  | done (p : Parse)
  | reject (reason : Nat) (p : Parse)

/-- The surroundings of a parse: its form, the parsed data, SKIP and the most records (R424, R430, R433). -/
structure PEnv where
  head  : FormHead
  data  : List Octet
  skip  : Nat
  most  : Nat

/-- The fields of an entry (R426). -/
def eOpc (w : Word) : Nat := bits w 35 32
def eC (w : Word) : Bool := bit w 31
def eNext (w : Word) : Nat := bits w 30 19
def eFid (w : Word) : Nat := bits w 18 11
def eArg (w : Word) : Nat := bits w 10 0

/-- Does an entry of a class break R427? -/
def entryBad (n cls : Nat) (w : Word) : Bool :=
  let op := eOpc w
  let a := eArg w
  decide (8 < op) || decide (n ≤ eNext w) || ((op == 2 || op == 3 || op == 6) && !eC w) || (cls == 15 && eC w)
    || (op == 8 && cls != 15) || (op == 4 && a == 0 && cls == 15) || (op == 7 && eC w)
    || (op == 0 && !(decide (1 ≤ a % 256) && decide (a % 256 ≤ 127)))

/-- Does the parse stand at the end of its top scope? -/
def atScopeEnd (p : Parse) : Bool :=
  match p.stack with
  | (e, _) :: _ => p.pos == e
  | [] => false

/-- A counted step: CNT falls, and the state changes when it reaches 0 (R427). -/
def counted (p : Parse) (next : Nat) : Parse :=
  { p with cnt := p.cnt - 1, state := if p.cnt = 1 then next else p.state }

/-- TAG (R427). -/
def stepTag (w : Word) (o : Octet) (p : Parse) : PStep :=
  if eArg w % 2 = 1 then .go { p with tag := o.toNat, tlen := 1, pos := p.pos + 1, state := eNext w } true
  else if 4 ≤ p.tlen then .reject 132 p
  else .go { p with tag := p.tag * 256 + o.toNat, tlen := p.tlen + 1, pos := p.pos + 1, state := eNext w } true

/-- LEN (R427). -/
def stepLen (w : Word) (o : Octet) (p : Parse) : PStep :=
  let a := eArg w
  let v := o.toNat
  let old := if a.testBit 3 then 0 else p.len
  let bad := (a % 4 == 1 && !(decide (0x30 ≤ v) && decide (v ≤ 0x39)))
    || (a % 4 == 2 && (decide (9 < v / 16) || decide (9 < v % 16)))
  let n := if a % 4 = 0 then old * 256 + v else if a % 4 = 1 then old * 10 + (v - 0x30)
    else if a % 4 = 2 then old * 100 + 10 * (v / 16) + v % 16 else v
  if a.testBit 2 && p.cnt == 0 then .reject 138 p
  else if bad then .reject 136 p
  else if 262143 < n then .reject 133 p
  else
    let q := { p with len := n, pos := p.pos + 1 }
    .go (if a.testBit 2 then counted q (eNext w) else { q with state := eNext w }) true

/-- SETCNT (R427). -/
def stepSetcnt (w : Word) (o : Octet) (p : Parse) : PStep :=
  let n := if eArg w = 0 then o.toNat % 128 else eArg w
  if n = 0 then .reject 138 p
  else .go { p with len := 0, cnt := n, pos := p.pos + (if eC w then 1 else 0), state := eNext w } (eC w)

/-- A field view record (R432). -/
def viewRecord (skip : Nat) (w : Word) (p : Parse) (pos o l : Nat) : List Word :=
  let a := skip + pos
  [field 28 (eFid w) ||| flag 27 ((eArg w).testBit 0) ||| field 23 p.stack.length ||| field 0 (a / 4 % 8192),
   field 34 (a % 4) ||| field 0 (o % 262144), field 32 p.tlen ||| field 0 (p.tag % 2 ^ 32),
   field 18 (l % 262144) ||| field 0 (pos % 262144)]

/-- FIELD (R428). -/
def stepField (env : PEnv) (w : Word) (p : Parse) : PStep :=
  let a := eArg w
  let pos := p.pos + (if eC w then 1 else 0)
  let l := if a / 4 % 512 ≠ 0 then a / 4 % 512 else p.len
  let o := if a.testBit 1 then (l + 1) / 2 else l
  let stop := match p.stack with
    | (e, _) :: _ => e
    | [] => env.data.length
  if stop < pos + o then .reject 129 { p with pos := pos }
  else if env.most ≤ p.records.length then .reject 134 { p with pos := pos }
  else
    let q := { p with records := viewRecord env.skip w p pos o l :: p.records, tag := 0, tlen := 0, len := 0,
                      state := eNext w }
    if a.testBit 0 then
      if env.head.depth ≤ p.stack.length then .reject 130 { p with records := q.records, pos := pos }
      else .go { q with pos := pos, stack := (pos + o, eNext w) :: p.stack } true
    else .go { q with pos := pos + o } (eC w || decide (0 < o))

/-- The value of an ASCII hexadecimal digit (R429). -/
def hexDigit (o : Octet) : Option Nat :=
  let v := o.toNat
  if 0x30 ≤ v ∧ v ≤ 0x39 then some (v - 0x30) else if 0x41 ≤ v ∧ v ≤ 0x46 then some (v - 0x37) else none

/-- BITMAP (R427). -/
def stepBitmap (w : Word) (o : Octet) (p : Parse) : PStep :=
  if p.cnt = 0 then .reject 138 p
  else if 24 ≤ p.bpos then .reject 137 p
  else if eArg w % 2 = 0 then
    .go (counted { p with bitmap := p.bitmap.set p.bpos o, bpos := p.bpos + 1, pos := p.pos + 1 } (eNext w)) true
  else match hexDigit o with
  | none => .reject 136 p
  | some d =>
    let old := p.bitmap.getD p.bpos 0
    let v : Octet := if p.half then old + BitVec.ofNat 8 d else BitVec.ofNat 8 (16 * d)
    .go (counted { p with bitmap := p.bitmap.set p.bpos v, bpos := p.bpos + (if p.half then 1 else 0), half := !p.half,
                          pos := p.pos + 1 } (eNext w)) true

/-- Bit n of the bitmap, bit 1 the most significant of octet 0 (R427). -/
def bitmapBit (b : List Octet) (n : Nat) : Bool := (b.getD ((n - 1) / 8) 0).toNat.testBit (7 - (n - 1) % 8)

/-- NEXTBIT (R427). -/
def stepNextbit (env : PEnv) (w : Word) (p : Parse) : PStep :=
  match ((List.range 192).map (· + 1)).find? fun n => decide (p.fnum < n) && bitmapBit p.bitmap n with
  | none => .go { p with state := eNext w } false
  | some n =>
    if env.head.nstates ≤ eNext w + n then .reject 135 p else .go { p with fnum := n, state := eNext w + n } false

/-- END (R427). -/
def stepEnd (p : Parse) : PStep :=
  match p.stack with
  | (e, st) :: rest => if p.pos = e then .go { p with stack := rest, state := st } true else .done p
  | [] => .done p

/-- One transition (R427, R428). -/
def parseStep (s : State) (f : Nat) (env : PEnv) (p : Parse) : PStep :=
  let o := env.data.getD p.pos 0
  let ended := atScopeEnd p || p.pos == env.data.length
  let cls := if ended then 15 else octetClass s f o
  let w := formWord s f (80 + 16 * p.state + cls)
  if !ended && cls == 15 then .reject 128 p
  else if env.head.nstates ≤ p.state || entryBad env.head.nstates cls w then .reject 135 p
  else
    match eOpc w with
    | 0 => .reject (eArg w % 256) p
    | 1 => .go { p with pos := p.pos + (if eC w then 1 else 0), state := eNext w } (eC w)
    | 2 => stepTag w o p
    | 3 => stepLen w o p
    | 4 => stepSetcnt w o p
    | 5 => stepField env w p
    | 6 => stepBitmap w o p
    | 7 => stepNextbit env w p
    | _ => stepEnd p

/-- The parse: reason 0 when it ends OK, else the reason, with the registers as they then stand. fuel bounds the
transitions, of which at most 7 in a row make no progress (R429). -/
def parseRun (s : State) (f : Nat) (env : PEnv) : Nat → Parse → Nat × Parse
  | 0, p => (131, p)
  | fuel + 1, p =>
    match parseStep s f env p with
    | .done q => (0, q)
    | .reject r q => (r, q)
    | .go q true => parseRun s f env fuel { q with stall := 0 }
    | .go q false =>
      if 7 ≤ p.stall then (131, q) else parseRun s f env fuel { q with stall := p.stall + 1 }

/-- The largest message of a lane, in words (09 R289). -/
def laneMost (s : State) (l : Nat) : Nat :=
  match classOf s l with
  | some k => 16 * clSS s k
  | none => 0

/-- A request's parse: status, DETAIL, records, and where a reject stood (R428, R431). -/
def parseBody (s : State) (f skip rl : Nat) (os : List Octet) : Ans × Parse :=
  let head := formHead s f
  let env : PEnv := ⟨head, os.drop skip, skip, min head.maxf ((laneMost s rl - 4) / 4)⟩
  let (r, p) := parseRun s f env (8 * (os.length + 2 * head.maxf + 2)) { state := head.start }
  ({ status := if r = 0 then stOK else stCheck, detail := r, result := p.records.reverse.flatten }, p)

/-- The job of a parse request (R430 to R433). -/
def parseJob (s : State) (u : Nat) (lane : LaneNo) (m : Msg) : Job :=
  let w := fun i => m.words.getD i 0
  let rl := bits (w 0) 15 0
  let f := bits (w 0) 23 16
  let skip := bits (w 3) 17 0
  let ws := m.words.drop 4
  let j : Job := { unit := u, lane := lane, rlane := BitVec.ofNat 16 rl, reqId := w 1, op := 0o400,
                   status := stBadDescriptor, detail := 0, result := [], slots := [] }
  match seqOctets ws with
  | none => j
  | some os =>
    if !(bits (w 0) 35 27 == 0o400 && m.words.length == 4 + bits (w 2) 12 0 && formResident s f
        && decide (skip < os.length)) then j
    else
      let (a, p) := parseBody s f skip rl os
      let j := { j with status := a.status, detail := a.detail, result := a.result }
      let head := formHead s f
      if a.status = stCheck ∧ head.rejen then
        let body := (responseWords j).take 4 ++ [field 18 p.state ||| field 0 p.pos]
        { j with reject := some (BitVec.ofNat 16 head.rejlane, body ++ ws.take (laneMost s head.rejlane - 5)) }
      else j

/-- PARSE (R422, R431): the compositor takes the request at HEAD of the lane and parses. -/
def execParse (unit : UnitCode) (lane : LaneNo) (s : State) : Out State :=
  let u := unit.toNat
  let l := lane.toNat
  if !isCompositor u then .fault .noSuchUnit
  else if !unitRuns s u || s.engines.jobs.any (fun j => j.unit == u) then .next s
  else
    match engineTake s u l fun _ => true with
    | (none, s) => .next s
    | (some m, s) =>
      let s := unitCount s u 0 1
      if rlaneOk s l (bits (m.words.getD 0 0) 15 0) then .next (addJob s (parseJob s u lane m))
      else .next (refuseRequest (rlaneRead s l (bits (m.words.getD 0 0) 15 0)) u l m)

end Sys2Proof.Machine
end

