-- ==== Sys2Proof/Machine/Ciphers.lean ====
section
/-! DEFINITION. The cipher engines' operations on data and PIN blocks (12 R385 to R387). -/

namespace Sys2Proof.Machine

/-- Is it a TDES key (R370)? -/
def isTdes (ty : Nat) : Bool := ty == 4 || ty == 5

/-- The usage that MODE bit 0 asks for: encrypt or decrypt (R385). -/
def encDec (r : Req) : Nat := if r.mode % 2 = 0 then uENC else uDEC

/-- A job under the one key K1: form, then the key, then the work on the key's octets. -/
def withKey (s : State) (r : Req) (form : Bool) (types : Nat → Bool) (usage : Nat) (f : List Octet → Ans × State) :
    Ans × State :=
  if !form || handleNull r.k1 || !handleNull r.k2 then ansBad s
  else match keyFail s r r.k1 types usage with
  | some x => ansFail s x
  | none => f (slotKey s (capCursor r.k1))

/-- Octets of exactly n octets in words i onward, as a packed-octet sequence. -/
def octetsAt (r : Req) (i n : Nat) : Option (List Octet) :=
  match seqOctets ((r.ops.drop i).take ((n + 3) / 4)) with
  | some os => if os.length = n then some os else none
  | none => none

/-- A mode over whole blocks of k octets, with an IV of iv octets (R385). -/
def blockMode (k iv : Nat) (types : Nat → Bool) (f : Bool → List Octet → List Octet → List Octet → List Octet)
    (s : State) (r : Req) : Ans × State :=
  match octetsAt r 0 iv, seqOctets (r.ops.drop ((iv + 3) / 4)) with
  | some v, some d =>
    withKey s r (d.length % k == 0) types (encDec r) fun key => ansOk s (seqWords (f (r.mode % 2 == 0) key v d))
  | _, _ => ansBad s

/-- AES_ECB (R385). -/
def execAesEcb (unit : UnitCode) (lane : LaneNo) (s : State) : Out State :=
  engineCommand unit lane 0o200 false
    (blockMode 16 0 isAes fun enc key _ d => ecb (if enc then aesEncrypt key else aesDecrypt key) 16 d) s

/-- AES_CBC (R385). -/
def execAesCbc (unit : UnitCode) (lane : LaneNo) (s : State) : Out State :=
  engineCommand unit lane 0o201 false
    (blockMode 16 16 isAes fun enc key v d =>
      if enc then cbcEnc (aesEncrypt key) 16 v d else cbcDec (aesDecrypt key) 16 v d) s

/-- AES_CTR (R385): any length. -/
def execAesCtr (unit : UnitCode) (lane : LaneNo) (s : State) : Out State :=
  engineCommand unit lane 0o202 false (blockMode 1 16 isAes fun _ key v d => aesCtr key v d) s

/-- TDES_ECB (R385). -/
def execTdesEcb (unit : UnitCode) (lane : LaneNo) (s : State) : Out State :=
  engineCommand unit lane 0o210 false
    (blockMode 8 0 isTdes fun enc key _ d => ecb (if enc then tdesEncrypt key else tdesDecrypt key) 8 d) s

/-- TDES_CBC (R385). -/
def execTdesCbc (unit : UnitCode) (lane : LaneNo) (s : State) : Out State :=
  engineCommand unit lane 0o211 false
    (blockMode 8 8 isTdes fun enc key v d =>
      if enc then cbcEnc (tdesEncrypt key) 8 v d else cbcDec (tdesDecrypt key) 8 v d) s

/-- The body of AES_GCM (R385): IV, AAD length word, AAD, data, and the tag on decrypt. -/
def gcmBody (s : State) (r : Req) : Ans × State :=
  let n := (r.ops.getD 3 0).toNat
  let a := (n + 3) / 4
  let dec := r.mode % 2 == 1
  let rest := r.ops.drop (4 + a)
  let body := if dec then rest.take (rest.length - 4) else rest
  match octetsAt r 0 12, octetsAt r 4 n, seqOctets body with
  | some iv, some aad, some d =>
    let tag := seqOctets (rest.drop (rest.length - 4))
    let form := decide (4 + a ≤ r.ops.length) && (!dec || (decide (4 ≤ rest.length) && (tag.getD []).length == 16))
    withKey s r form isAes (encDec r) fun key =>
      let out := gcmCrypt key iv d
      if !dec then ansOk s (seqWords out ++ seqWords (gcmTag key iv aad out))
      else if tag = some (gcmTag key iv aad d) then ansOk s (seqWords out)
      else ansFail s (stCheck, dMac)
  | _, _, _ => ansBad s

/-- AES_GCM (R385). -/
def execAesGcm (unit : UnitCode) (lane : LaneNo) (s : State) : Out State :=
  engineCommand unit lane 0o203 false gcmBody s

/-- The body of a CMAC: MODE bits 7-4 the tag length less one, 3 to hi; on verify the tag ends the operands (R385). -/
def cmacBody (hi : Nat) (types : Nat → Bool) (f : List Octet → List Octet → List Octet) (s : State) (r : Req) :
    Ans × State :=
  let t := r.mode / 16 + 1
  let verify := r.mode % 2 == 1
  let k := if verify then (t + 3) / 4 else 0
  let n := r.ops.length
  match seqOctets (r.ops.take (n - k)), octetsAt r (n - k) (if verify then t else 0) with
  | some d, some tag =>
    withKey s r (decide (4 ≤ t) && decide (t ≤ hi) && decide (k ≤ n)) types (if verify then uVERIFY else uSIGN) fun key =>
      let mac := (f key d).take t
      if !verify then ansOk s (seqWords mac) else if mac = tag then ansOk s [] else ansFail s (stCheck, dMac)
  | _, _ => ansBad s

/-- AES_CMAC (R385). -/
def execAesCmac (unit : UnitCode) (lane : LaneNo) (s : State) : Out State :=
  engineCommand unit lane 0o204 false (cmacBody 16 isAes fun key d => cmac (aesEncrypt key) 16 0x87 d) s

/-- TDES_CMAC (R385). -/
def execTdesCmac (unit : UnitCode) (lane : LaneNo) (s : State) : Out State :=
  engineCommand unit lane 0o212 false (cmacBody 8 isTdes fun key d => cmac (tdesEncrypt key) 8 0x1B d) s

/-- Is it a PIN format (R386)? -/
def isPinFormat (f : Nat) : Bool := f == 0 || f == 1 || f == 3 || f == 4

/-- The key types of a PIN format (R386). -/
def pinTypes (f : Nat) (ty : Nat) : Bool := if f = 4 then isAes ty else isTdes ty

/-- A PAN's length lies within its limits: 12 to 19 (R377 order 2, R386). -/
def panForm (os : List Octet) : Bool := decide (12 ≤ os.length) && decide (os.length ≤ 19)

/-- The digits of a PAN of 12 to 19 ASCII digits (R377 order 4, R386). -/
def panDigits (os : List Octet) : Option (List Nat) :=
  if 12 ≤ os.length ∧ os.length ≤ 19 ∧ os.all (fun o => decide (0x30 ≤ o.toNat) && decide (o.toNat ≤ 0x39)) then
    some (os.map fun o => o.toNat - 0x30) else none

/-- The failure of K2, unless the direction is refused, which comes first (R386, R387 and their worked example). -/
def pinDirection (refused : Bool) (k2 : Option (Nat × Nat)) : Option (Nat × Nat) :=
  if refused then some (stKey, dPinDir) else k2

/-- The PIN goes from an open block to a block of the destination format, with fill from D2 where the format needs it
(R386). -/
def pinTranslate (s : State) (pin : Option (List Nat)) (dst : Nat) (key : List Octet) (pan : List Nat) : Ans × State :=
  match pin with
  | none => ansFail s (stCheck, dPin)
  | some p =>
    if dst = 0 then ansOk s (seqWords (pinSeal 0 key p pan []))
    else if drbgRefuses s 2 then ansFail s (stKey, dEntropy)
    else
      let (rand, s) := drbgDraw s 2 8
      ansOk s (seqWords (pinSeal dst key p pan rand))

/-- The body of PIN_XLATE (R386). -/
def pinXlate (s : State) (r : Req) : Ans × State :=
  let src := r.mode / 16
  let dst := r.mode % 16
  let b := if src = 4 then 16 else 8
  let usesPan := src != 1 || dst != 1
  match octetsAt r 0 b, seqOctets (r.ops.drop (b / 4)) with
  | some block, some panOs =>
    let pan := if usesPan then panDigits panOs else if panOs.isEmpty then some [] else none
    let form := if usesPan then panForm panOs else panOs.isEmpty
    if !(isPinFormat src && isPinFormat dst && form && !handleNull r.k1 && !handleNull r.k2) then ansBad s
    else match (keyFail s r r.k1 (pinTypes src) uPIN).or
        (pinDirection (dst == 1 && src != 1) (keyFail s r r.k2 (pinTypes dst) uPIN)) with
    | some f => ansFail s f
    | none =>
      match pan with
      | none => ansBad s
      | some pan =>
        pinTranslate s (pinOpen src (slotKey s (capCursor r.k1)) block pan) dst (slotKey s (capCursor r.k2)) pan
  | _, _ => ansBad s

/-- PIN_XLATE (R386). -/
def execPinXlate (unit : UnitCode) (lane : LaneNo) (s : State) : Out State :=
  engineCommand unit lane 0o220 false pinXlate s

/-- Is it a key that AES DUKPT derives from (R387)? -/
def isDukpt (ty : Nat) : Bool := ty == 9 || ty == 10

/-- Step 1 and 2 of R387 on slot n and a KSN: the initial key, or what the request fails with. -/
def dukptStart (s : State) (n : Nat) (ksn : List Octet) : Except (Nat × Nat) (List Octet) :=
  let ikid := ksn.take 8
  let ctr := beNat (ksn.drop 8)
  if slotType s n = 10 ∧ (smGetList 0 s.custody.slots (16 * n + 12) 2).flatMap presentOctets ≠ ikid then
    .error (stKey, dType)
  else if 16 < ((List.range 32).filter fun i => ctr.testBit i).length then .error (stBadDescriptor, 0)
  else .ok (if slotType s n = 9 then dukptInitial (slotKey s n) ikid else slotKey s n)

/-- The body of DUKPT_PIN (R387). The working key's usage is PIN encryption, 0x1000 (log 10). -/
def dukptPin (s : State) (r : Req) : Ans × State :=
  let dst := r.mode % 16
  match octetsAt r 0 12, octetsAt r 3 16, seqOctets (r.ops.drop 7) with
  | some ksn, some block, some panOs =>
    if !(isPinFormat dst && panForm panOs && !handleNull r.k1 && !handleNull r.k2) then ansBad s
    else match (keyFail s r r.k1 isDukpt uDERIVE).or
        (pinDirection (dst == 1) (keyFail s r r.k2 (pinTypes dst) uPIN)) with
    | some f => ansFail s f
    | none =>
      match panDigits panOs, dukptStart s (capCursor r.k1) ksn with
      | none, _ => ansBad s
      | some _, .error f => ansFail s f
      | some pan, .ok ik =>
        let key := dukptWorking ik (ksn.take 8) (beNat (ksn.drop 8)) [0x10, 0x00]
        pinTranslate s (pinOpen 4 key block pan) dst (slotKey s (capCursor r.k2)) pan
  | _, _, _ => ansBad s

/-- DUKPT_PIN (R387). -/
def execDukptPin (unit : UnitCode) (lane : LaneNo) (s : State) : Out State :=
  engineCommand unit lane 0o221 false dukptPin s

/-- The body of DUKPT_DEC (R385). The working key's usage is data encryption, 0x3000 (log 10). -/
def dukptDec (s : State) (r : Req) : Ans × State :=
  match octetsAt r 0 12, octetsAt r 3 16, seqOctets (r.ops.drop 7) with
  | some ksn, some iv, some d =>
    withKey s r (d.length % 16 == 0) isDukpt uDERIVE fun _ =>
      match dukptStart s (capCursor r.k1) ksn with
      | .error f => ansFail s f
      | .ok ik =>
        let key := dukptWorking ik (ksn.take 8) (beNat (ksn.drop 8)) [0x30, 0x00]
        ansOk s (seqWords (cbcDec (aesDecrypt key) 16 iv d))
  | _, _, _ => ansBad s

/-- DUKPT_DEC (R385). -/
def execDukptDec (unit : UnitCode) (lane : LaneNo) (s : State) : Out State :=
  engineCommand unit lane 0o222 false dukptDec s

/-- The body of RANDOM (R385). -/
def randomBody (s : State) (r : Req) : Ans × State :=
  let n := (r.ops.getD 0 0).toNat
  if !(handleNull r.k1 && handleNull r.k2 && r.ops.length == 1 && decide (1 ≤ n) && decide (n ≤ 16384)) then ansBad s
  else if drbgRefuses s 2 then ansFail s (stKey, dEntropy)
  else
    let (os, s) := drbgDraw s 2 n
    ansOk s (seqWords os)

/-- RANDOM (R385). -/
def execRandom (unit : UnitCode) (lane : LaneNo) (s : State) : Out State :=
  engineCommand unit lane 0o230 false randomBody s

end Sys2Proof.Machine
end

