-- ==== Sys2Proof/Machine/CustodyOps.lean ====
section
/-! DEFINITION. Custody operations (12 R389, R390) and key check values (R370). -/

namespace Sys2Proof.Machine

/-- A 24-bit value of the first 3 octets. -/
def first3 (os : List Octet) : Word := field 0 (beNat (os.take 3))

/-- The octets of an RSA modulus, most significant first (R370). -/
def modulusOctets (n : Nat) : List Octet := beOctets ((n.log2 + 8) / 8) n

/-- The key check value of a key of a type, from its octets or its arena words (R370). -/
def kcvOf (ty : Nat) (key : List Octet) (arena : List Word) : Word :=
  if isAes ty then first3 (aesEncrypt key (List.replicate 16 0))
  else if isTdes ty then first3 (tdesEncrypt key (List.replicate 8 0))
  else if ty = 6 then first3 (sha .sha256 (modulusOctets (bigNat (arena.take ((rsaLen arena.length))))))
  else if ty = 7 then first3 (sha .sha256 (modulusOctets (bigNat (arena.take (arena.length / 2)))))
  else first3 (sha .sha256 key)
where
  /-- the words of n in an RSA private key's arena material -/
  rsaLen (alen : Nat) : Nat := if alen % 9 = 0 then 2 * (alen / 9) else 2 * (alen / 9 + 1) - 1

/-- Words of a blob's plaintext: 5 octets each (R390). -/
def blobOctets (ws : List Word) : List Octet := ws.flatMap wordOctets

/-- Words from 5-octet groups; none unless the length divides and the top 4 bits are zero. -/
def blobWords (os : List Octet) : Option (List Word) :=
  if os.length % 5 ≠ 0 ∨ (chunks 5 os).any (fun c => decide (16 ≤ (c.headD 0).toNat)) then none
  else some ((chunks 5 os).map fun c => BitVec.ofNat 36 (beNat c))

/-- The words of inline material in a blob: words 4 to 11, and 12 to 13 of an initial key. DEDUCED, log 42. -/
def inlineLen (ty : Nat) : Nat := if ty = 10 then 10 else 8

/-- The master key serves (R368)? -/
def masterUp (s : State) : Bool := s.custody.mkState == .present

/-- The wrapping key of KIMPORT and KEXPORT: K1 with a usage, or the master key when K1 is null (R389). -/
def wrapKey (s : State) (r : Req) (usage : Nat) : Except (Nat × Nat) (List Octet) :=
  if handleNull r.k1 then (if masterUp s then .ok s.custody.mkKey else .error (stKey, dMaster))
  else match keyFail s r r.k1 isAes usage with
  | some f => .error f
  | none => .ok (slotKey s (capCursor r.k1))

/-- An operation from bow side alone (R389). -/
def bowOnly (s : State) (r : Req) (f : Ans × State) : Ans × State :=
  if capSide r.gate then f else ansFail s (stKey, dStroke)

/-- The failure of K1 when it is a KEK; a null K1 asks for the master key (R377 order 3, R389). -/
def kekFail (s : State) (r : Req) (usage : Nat) : Option (Nat × Nat) :=
  if handleNull r.k1 then none else keyFail s r r.k1 isAes usage

/-- K1 has not failed, and the target slot of a custody operation passes orders 1 to 5 of R374 (R377 order 3). -/
def withTarget (s : State) (r : Req) (form : Bool) (k1 : Option (Nat × Nat)) (f : Nat → Ans × State) : Ans × State :=
  if !form || handleNull r.k2 then ansBad s
  else bowOnly s r (match k1.or (handleFail s r.k2) with
    | some x => ansFail s x
    | none => f (capCursor r.k2))

/-- OK, with what the operation writes at its completion (R381). -/
def ansWrite (s : State) (w : SlotWrite) : Ans × State := ({ commit := some w }, s)

/-- KS_HDR of a loaded slot. -/
def slotHeader (ty usage owner : Nat) : Word := field 33 1 ||| field 28 ty ||| field 19 usage ||| field 0 owner

/-- The octets of a fresh key of a type; HMAC and BDK keys of 32 octets (DESIGN CHOICE, log 43). -/
def freshLen (ty : Nat) : Option Nat :=
  if ty = 1 then some 16 else if ty = 2 then some 24 else if ty = 3 then some 32 else if ty = 4 then some 16
  else if ty = 5 then some 24 else if ty = 8 ∨ ty = 9 then some 32 else none

/-- The body of KGEN (R389). -/
def kgenBody (s : State) (r : Req) : Ans × State :=
  let h := r.ops.getD 0 0
  withTarget s r (handleNull r.k1 && r.ops.length == 2) none fun n =>
    if slotPoisoned s n then ansFail s (stPoison, 0)
    else if slotState s n ≠ 0 then ansFail s (stKey, dTarget)
    else match freshLen (bits h 32 28) with
    | none => ansBad s
    | some len =>
      if drbgRefuses s 0 then ansFail s (stKey, dEntropy)
      else
        let (key, s) := drbgDraw s 0 len
        let ws := seqWords key
        ansWrite s { slot := n, words := [slotHeader (bits h 32 28) (bits h 27 19) (bits h 15 0), 0,
          kcvOf (bits h 32 28) key [], r.ops.getD 1 0] ++ ws ++ List.replicate (12 - ws.length) 0 }

/-- KGEN (R389). -/
def execKgen (unit : UnitCode) (lane : LaneNo) (s : State) : Out State :=
  engineCommand unit lane 0o240 true kgenBody s

/-- Loads a slot from an unwrapped blob's words (R389, R390). The label comes from the request, whose operands name none: a
free value (log 44). -/
def importWords (s : State) (n : Nat) (h : Word) (aoff : Nat) (ws : List Word) : Ans × State :=
  let w0 := ws.getD 0 0
  let ty := bits w0 32 28
  let alen := bits (ws.getD 1 0) 32 21
  let k := inlineLen ty
  if ty ≠ bits h 32 28 then ansFail s (stKey, dType)
  else if ws.length ≠ 3 + k + alen ∨ 2097152 < aoff + alen ∨ ty = 0 ∨ 10 < ty then ansBad s
  else
    let inl := (ws.drop 3).take k
    let arena := ws.drop (3 + k)
    let key := if alen = 0 then (inl.take 8).flatMap presentOctets else arena.flatMap presentOctets
    let hdr := slotHeader ty (bits w0 27 19 &&& bits h 27 19) (bits h 15 0)
    ansWrite { s with free := s.free + 1 }
      { slot := n, words := [hdr, field 21 alen ||| field 0 aoff, kcvOf ty key arena, Config.openWord s.free] ++ inl
          ++ List.replicate (12 - inl.length) 0, aoff := aoff, arena := arena, clear := true }

/-- The body of KIMPORT (R389, R390). A poisoned target is written over (R369). -/
def kimportBody (s : State) (r : Req) : Ans × State :=
  match seqOctets (r.ops.drop 2) with
  | none => ansBad s
  | some blob =>
    withTarget s r (decide (2 ≤ r.ops.length) && bits (r.ops.getD 1 0) 35 21 == 0) (kekFail s r uUNWRAP) fun n =>
      match wrapKey s r uUNWRAP with
      | .error f => ansFail s f
      | .ok key =>
        if !slotPoisoned s n && slotState s n != 0 then ansFail s (stKey, dTarget)
        else match kwpUnwrap key blob with
        | none => ansFail s (stCheck, dMac)
        | some os =>
          match blobWords os with
          | none => ansBad s
          | some ws => importWords s n (r.ops.getD 0 0) (r.ops.getD 1 0).toNat ws

/-- KIMPORT (R389). -/
def execKimport (unit : UnitCode) (lane : LaneNo) (s : State) : Out State :=
  engineCommand unit lane 0o241 true kimportBody s

/-- The words of a slot's blob (R390). -/
def exportWords (s : State) (n : Nat) : List Word :=
  [slotWord s n 0, slotWord s n 1, slotWord s n 3] ++ smGetList 0 s.custody.slots (16 * n + 4) (inlineLen (slotType s n))
    ++ arenaWords s n

/-- The body of KEXPORT (R389, R390): the exported slot is usable under EXPORT (R372, R377 order 3). -/
def kexportBody (s : State) (r : Req) : Ans × State :=
  withTarget s r r.ops.isEmpty (kekFail s r uWRAP) fun n =>
    match wrapKey s r uWRAP with
    | .error f => ansFail s f
    | .ok key =>
      match keyFail s r r.k2 (fun _ => true) uEXPORT with
      | some f => ansFail s f
      | none => ansOk s (seqWords (kwpWrap key (blobOctets (exportWords s n))))

/-- KEXPORT (R389). -/
def execKexport (unit : UnitCode) (lane : LaneNo) (s : State) : Out State :=
  engineCommand unit lane 0o242 true kexportBody s

/-- The body of KDEL (R381, R389). A poisoned slot reads EMPTY words; its poison stays until an import (R369). -/
def kdelBody (s : State) (r : Req) : Ans × State :=
  withTarget s r (handleNull r.k1 && r.ops.isEmpty) none fun n =>
    if slotPoisoned s n then ansFail s (stPoison, 0)
    else
      ansWrite s { slot := n, words := List.replicate 16 0, aoff := slotAOff s n,
                   arena := List.replicate (slotALen s n) 0 }

/-- KDEL (R381, R389). -/
def execKdel (unit : UnitCode) (lane : LaneNo) (s : State) : Out State :=
  engineCommand unit lane 0o243 true kdelBody s

/-- The body of KINFO (R389): stroke-side requests meet the owner rule. -/
def kinfoBody (s : State) (r : Req) : Ans × State :=
  if !(handleNull r.k1 && r.ops.isEmpty && !handleNull r.k2) then ansBad s
  else match handleFail s r.k2 with
  | some f => ansFail s f
  | none =>
    let n := capCursor r.k2
    if slotPoisoned s n then ansFail s (stPoison, 0)
    else if !capSide r.gate && !(slotOwner s n == 0 || slotOwner s n == capSeal r.gate) then ansFail s (stKey, dOwner)
    else ansOk s ((List.range 4).map (slotWord s n))

/-- KINFO (R389). -/
def execKinfo (unit : UnitCode) (lane : LaneNo) (s : State) : Out State :=
  engineCommand unit lane 0o244 true kinfoBody s

/-- The body of KSEAL (R389). -/
def ksealBody (s : State) (r : Req) : Ans × State :=
  if !(handleNull r.k1 && handleNull r.k2 && r.ops.isEmpty) then ansBad s
  else bowOnly s r (if masterUp s then ansOk s [kcvOf 3 s.custody.mkKey []] else ansFail s (stKey, dMaster))

/-- KSEAL (R389). -/
def execKseal (unit : UnitCode) (lane : LaneNo) (s : State) : Out State :=
  engineCommand unit lane 0o245 true ksealBody s

end Sys2Proof.Machine
end

