-- ==== Sys2Proof/Machine/Digests.lean ====
section
/-! DEFINITION. The digest engines (12 R391). -/

namespace Sys2Proof.Machine

/-- The algorithm of MODE bits 1-0 (R391). -/
def shaOf (mode : Nat) : Option ShaAlg :=
  match mode % 4 with
  | 0 => some .sha256
  | 1 => some .sha384
  | 2 => some .sha512
  | _ => none

/-- The state words of a chain, without the count (R391). -/
def chainLen : ShaAlg → Nat
  | .sha256 => 8
  | _ => 16

/-- A state from its words (R391); none where an unused bit is set. -/
def chainState (alg : ShaAlg) (ws : List Word) : Option (List Nat) :=
  if ws.any fun w => bits w 35 32 != 0 then none
  else match alg with
  | .sha256 => some (ws.map (·.toNat))
  | _ => some ((chunks 2 ws).map fun p => (p.getD 0 0).toNat + 2 ^ 32 * (p.getD 1 0).toNat)

/-- The words of a state (R391). -/
def chainWords (alg : ShaAlg) (st : List Nat) : List Word :=
  match alg with
  | .sha256 => st.map (BitVec.ofNat 36)
  | _ => st.flatMap fun h => [BitVec.ofNat 36 (h % 2 ^ 32), BitVec.ofNat 36 (h / 2 ^ 32)]

/-- The body of SHA (R391). -/
def shaBody (s : State) (r : Req) : Ans × State :=
  match shaOf r.mode with
  | none => ansBad s
  | some alg =>
    let chained := r.mode / 16 % 2 == 1
    let more := r.mode / 32 % 2 == 1
    let n := chainLen alg
    let head := if chained then n + 2 else 0
    let before := if chained then double (r.ops.getD n 0) (r.ops.getD (n + 1) 0) else 0
    let st := if chained then chainState alg (r.ops.take n) else some (shaInit alg)
    match st, seqOctets (r.ops.drop head) with
    | some st, some d =>
      if !(handleNull r.k1 && handleNull r.k2 && decide (head ≤ r.ops.length) && decide (before + d.length < 2 ^ 72)
          && (!more || d.length % shaBlock alg == 0)) then ansBad s
      else if more then
        ansOk s (chainWords alg (shaBlocks alg st d) ++ [doubleLo (before + d.length), doubleHi (before + d.length)])
      else ansOk s (seqWords (shaFinish alg st before d))
    | _, _ => ansBad s

/-- SHA (R391). -/
def execSha (unit : UnitCode) (lane : LaneNo) (s : State) : Out State :=
  engineCommand unit lane 0o300 false shaBody s

/-- The tag length that MODE bits 7-2 give (R391). -/
def hmacLen (alg : ShaAlg) (mode : Nat) : Option Nat :=
  let t := mode / 4
  if t = 0 then some (shaLen alg) else if 4 ≤ t ∧ t < shaLen alg then some t else none

/-- The body of an HMAC; on verify the tag ends the operands (R391). -/
def hmacBody (verify : Bool) (s : State) (r : Req) : Ans × State :=
  match shaOf r.mode with
  | none => ansBad s
  | some alg =>
    match hmacLen alg r.mode with
    | none => ansBad s
    | some t =>
      let k := if verify then (t + 3) / 4 else 0
      let n := r.ops.length
      match seqOctets (r.ops.take (n - k)), octetsAt r (n - k) (if verify then t else 0) with
      | some d, some tag =>
        withKey s r (decide (k ≤ n)) (· == 8) (if verify then uVERIFY else uSIGN) fun key =>
          let mac := (hmac alg key d).take t
          if !verify then ansOk s (seqWords mac) else if mac = tag then ansOk s [] else ansFail s (stCheck, dMac)
      | _, _ => ansBad s

/-- HMAC_GEN (R391). -/
def execHmacGen (unit : UnitCode) (lane : LaneNo) (s : State) : Out State :=
  engineCommand unit lane 0o301 false (hmacBody false) s

/-- HMAC_VER (R391). -/
def execHmacVer (unit : UnitCode) (lane : LaneNo) (s : State) : Out State :=
  engineCommand unit lane 0o302 false (hmacBody true) s

end Sys2Proof.Machine
end

