-- ==== Sys2Proof/Machine/CapInstr.lean ====
section
/-! DEFINITION. Capability instructions (05 R160, R161), sealing (02 R58 to R62, 07 R548), gates and crossings (02 R61,
03 R90 to R100). -/

namespace Sys2Proof.Machine

/-- w[rd] := f of a capability register; no trap (R44). -/
def capRead (q : SeatNo) (i : Instr) (rd ca : Reg) (f : Cap → Word) (s : State) : Out State :=
  seatRun q i anyMode (fun s => done (wSet s q.val rd.toNat (f (cGet s q.val ca.toNat)))) s

/-- CGETC (R160). -/
def execCgetc (q : SeatNo) (rd ca : Reg) (s : State) : Out State := capRead q (.cgetc q rd ca) rd ca Cap.w0 s
/-- CGETB (R160). -/
def execCgetb (q : SeatNo) (rd ca : Reg) (s : State) : Out State := capRead q (.cgetb q rd ca) rd ca Cap.w1 s
/-- CGETL (R160). -/
def execCgetl (q : SeatNo) (rd ca : Reg) (s : State) : Out State := capRead q (.cgetl q rd ca) rd ca Cap.w2 s
/-- CGETP (R160). -/
def execCgetp (q : SeatNo) (rd ca : Reg) (s : State) : Out State := capRead q (.cgetp q rd ca) rd ca Cap.w3 s
/-- CGETT (R160). -/
def execCgett (q : SeatNo) (rd ca : Reg) (s : State) : Out State :=
  capRead q (.cgett q rd ca) rd ca (fun c => if c.tag then 1 else 0) s

/-- CMOV (R160): the value, tag included. -/
def execCmov (q : SeatNo) (rd ca : Reg) (s : State) : Out State :=
  seatRun q (.cmov q rd ca) anyMode (fun s => done (cSet s q.val rd.toNat (cGet s q.val ca.toNat))) s

/-- The rights that a CTEST's aux names (R161). -/
def testRights (aux : Reg) : Nat :=
  (if aux.getLsbD 4 then rRD else 0) + (if aux.getLsbD 3 then rWR else 0) + (if aux.getLsbD 2 then rEX else 0)
    + (if aux.getLsbD 1 then rRC else 0) + (if aux.getLsbD 0 then rWC else 0)

/-- The number of the first of steps 1 to 6 that fails, or 0 (R161). -/
def testStep (lvl : Level) (side : Bool) (c : Cap) (n : Nat) (aux : Reg) : Nat :=
  let n := if n = 0 then 1 else n
  let a : Access := { cap := c, ea := (capCursor c : Int), n := n, need := testRights aux,
                      align := if n = 2 ∨ n = 4 ∨ n = 8 then n else 1 }
  ([1, 2, 3, 4, 5, 6].find? fun k => (stepFail lvl side a k).isSome).getD 0

/-- CTEST (R161). -/
def execCtest (q : SeatNo) (rd ca rb aux : Reg) (s : State) : Out State :=
  seatRun q (.ctest q rd ca rb aux) anyMode
    (fun s =>
      let k := testStep (levelOf s q.val) (sideOf s q.val) (cGet s q.val ca.toNat) (wGet s q.val rb.toNat).toNat aux
      done (wSet s q.val rd.toNat (field 0 k))) s

/-- A derivation (R44, R45): the source check, then the result or DERIVE. -/
def deriveInstr (q : SeatNo) (i : Instr) (rd ca : Reg) (f : State → Cap → Option Cap) (s : State) : Out State :=
  seatRun q i noRing
    (fun s =>
      let c := cGet s q.val ca.toNat
      match checkSource (levelOf s q.val) (sideOf s q.val) c with
      | some t => .error (t, s)
      | none =>
        match f s c with
        | none => .error ({ cause := cDERIVE, addr := c.w0 }, s)
        | some n => done (cSet s q.val rd.toNat { n with tag := true })) s

/-- The legality test that CSETB, CANDR and CCLG add (R45). -/
def legalOr (c : Cap) (n : Option Cap) : Option Cap := n.filter (capLegal c)

/-- CINC (R45, R46). -/
def execCinc (q : SeatNo) (rd ca rb : Reg) (s : State) : Out State :=
  deriveInstr q (.cinc q rd ca rb) rd ca (fun s c => some (capInc c (wGet s q.val rb.toNat))) s

/-- CINCI (R160). -/
def execCinci (q : SeatNo) (rd ca : Reg) (imm : BitVec 19) (s : State) : Out State :=
  deriveInstr q (.cinci q rd ca imm) rd ca (fun _ c => some (capInc c (immI imm))) s

/-- CSETB (R45, R47). -/
def execCsetb (q : SeatNo) (rd ca rb : Reg) (s : State) : Out State :=
  deriveInstr q (.csetb q rd ca rb) rd ca (fun s c => legalOr c (capSetBounds c (wGet s q.val rb.toNat))) s

/-- CSETBI (R160). -/
def execCsetbi (q : SeatNo) (rd ca : Reg) (imm : BitVec 19) (s : State) : Out State :=
  deriveInstr q (.csetbi q rd ca imm) rd ca (fun _ c => legalOr c (capSetBounds c (immI imm))) s

/-- CANDR (R45): RIGHTS and w bits 19-8. -/
def execCandr (q : SeatNo) (rd ca rb : Reg) (s : State) : Out State :=
  deriveInstr q (.candr q rd ca rb) rd ca
    (fun s c => legalOr c (some (capSetRights c (capRights c &&& bits (wGet s q.val rb.toNat) 19 8)))) s

/-- CCLG (R45): GLOBAL cleared. -/
def execCclg (q : SeatNo) (rd ca : Reg) (s : State) : Out State :=
  deriveInstr q (.cclg q rd ca) rd ca (fun _ c => legalOr c (some (capSetGlobal c false))) s

/-- Is a seal live (R63)? The bit of seal 0 reads 1. -/
def sealIsLive (s : State) (v : Nat) : Bool := v == 0 || smGet false s.sys.sealLive v

/-- The seals that the level may use (R62). -/
def sealAllowed (lvl : Level) (side unsl : Bool) (v : Nat) : Bool :=
  if v = 0 then false
  else if v ≤ 65279 then true
  else if v = 65535 then lvl == .M || (!unsl && lvl == .S && side)
  else lvl == .M

/-- The first of a list of checks that fails: (fails, cause, address). -/
def firstFail (cs : List (Bool × Nat × Word)) : Option Trap :=
  (cs.find? fun c => c.1).map fun c => { cause := c.2.1, addr := c.2.2 }

/-- Is the cursor within the bounds? -/
def cursorIn (c : Cap) : Bool := decide (capBase c ≤ capCursor c) && decide (capCursor c ≤ capLast c)

/-- The checks of CSEAL (R59, 07 R548); a sealed source is SEALED at step 2 (R58, log 9). -/
def sealFail (s : State) (lvl : Level) (side : Bool) (cs ck : Cap) : Option Trap :=
  (firstFail [
    (!cs.tag, cTAG, cs.w0), (!ck.tag, cTAG, ck.w0),
    (capSeal cs != 0, cSEALED, cs.w0), (capSeal ck != 0, cSEALED, ck.w0),
    (!sideUsable lvl side cs, cRIGHTS, cs.w0), (!sideUsable lvl side ck, cRIGHTS, ck.w0),
    (!holds (capRights ck) rSE, cRIGHTS, ck.w0),
    (!cursorIn ck || capCursor ck == 0 || decide (65535 < capCursor ck), cDERIVE, ck.w0),
    (!sealAllowed lvl side false (capCursor ck), cRIGHTS, ck.w0),
    (!sealIsLive s (capCursor ck), cSEALRETIRED, ck.w0)]).map fun t =>
      { t with step := if cs.tag && ck.tag && capSeal cs != 0 then 2 else 0 }

/-- CSEAL (R59). -/
def execCseal (q : SeatNo) (rd ca cb : Reg) (s : State) : Out State :=
  seatRun q (.cseal q rd ca cb) noRing
    (fun s =>
      let cs := cGet s q.val ca.toNat
      let ck := cGet s q.val cb.toNat
      match sealFail s (levelOf s q.val) (sideOf s q.val) cs ck with
      | some t => .error (t, s)
      | none => done (cSet s q.val rd.toNat (capSetSeal cs (capCursor ck)))) s

/-- The checks of CUNSEAL (R60, 07 R548). -/
def unsealFail (s : State) (lvl : Level) (side : Bool) (cs ck : Cap) : Option Trap :=
  firstFail [
    (!cs.tag, cTAG, cs.w0), (!ck.tag, cTAG, ck.w0),
    (capSeal cs == 0, cSEALED, cs.w0), (capSeal ck != 0, cSEALED, ck.w0),
    (!sideUsable lvl side cs, cRIGHTS, cs.w0), (!sideUsable lvl side ck, cRIGHTS, ck.w0),
    (!holds (capRights ck) rUS, cRIGHTS, ck.w0),
    (!cursorIn ck || capCursor ck != capSeal cs, cDERIVE, ck.w0),
    (!sealAllowed lvl side true (capCursor ck), cRIGHTS, ck.w0),
    (!sealIsLive s (capCursor ck), cSEALRETIRED, ck.w0)]

/-- CUNSEAL (R60). -/
def execCunseal (q : SeatNo) (rd ca cb : Reg) (s : State) : Out State :=
  seatRun q (.cunseal q rd ca cb) noRing
    (fun s =>
      let cs := cGet s q.val ca.toNat
      let ck := cGet s q.val cb.toNat
      match unsealFail s (levelOf s q.val) (sideOf s q.val) cs ck with
      | some t => .error (t, s)
      | none => done (cSet s q.val rd.toNat (capSetGlobal (capSetSeal cs 0) (capGlobal cs && capGlobal ck)))) s

/-- The crossing seal (R62). -/
def crossSeal : Nat := 65534

/-- XCTX.OCC (03 R95). -/
def xctxOcc (b : Bank) : Bool := bit b.xctx 8

/-- Does the pair pass one of the two crossing forms of 03 R94? -/
def crossingForm (t : Status) (b : Bank) (ca cb : Cap) : Bool :=
  let sealed := capSeal ca == crossSeal && capSeal cb == crossSeal
  if t.side then
    sealed && !capSide ca && !capSide cb && !capGlobal ca && !capGlobal cb && t.lvl == .U && xctxOcc b
      && ca.w0 == b.xretPc && cb.w1 == b.xretDb
  else
    sealed && capSide ca && capSide cb && capGlobal ca && capGlobal cb && !xctxOcc b && curSeal b != 0

/-- A key handle: sealed under 65,535, with KY as its only right (12 R373). -/
def keyHandle (c : Cap) : Bool := c.tag && capSeal c == 65535 && capRights c == rKY

/-- The checks of a gate pair (R61, 07 R548). An invoke through a key handle raises SEALED (12 R373), once both tags are seen.
DEDUCED, log 90. crossBad is the failure of the crossing forms at check 2; the exception of
check 3 for the crossing seal holds when crossOk (03 R87 shuts it out). -/
def gateFail (s : State) (lvl : Level) (side crossBad crossOk : Bool) (ca cb : Cap) : Option Trap :=
  let v := capSeal ca
  let sided := fun c => !sideUsable lvl side c && !(crossOk && v == crossSeal)
  (firstFail [
    (!ca.tag, cTAG, ca.w0), (!cb.tag, cTAG, cb.w0),
    (keyHandle ca || keyHandle cb, cSEALED, if keyHandle ca then ca.w0 else cb.w0),
    (v == 0 || capSeal cb != v || crossBad, cGATE, ca.w0),
    (sided ca, cRIGHTS, ca.w0), (sided cb, cRIGHTS, cb.w0),
    (!holds (capRights ca) (rGT + rEX), cRIGHTS, ca.w0),
    (!holds (capRights cb) rGT || holds (capRights cb) rEX, cRIGHTS, cb.w0),
    (!sealIsLive s v, cSEALRETIRED, field 0 v),
    (!cursorIn ca, cBOUNDS, ca.w0)]).map fun t => { t with toM := t.cause == cSEALRETIRED && v == crossSeal }

/-- The registers that a call or a crossing writes with null (03 R90, R96). -/
def nullRegs (b : Bank) (rs : List Nat) : Bank := rs.foldl (fun b r => bankSetC b r capNull) b

/-- A capability sealed local, as a link (03 R90, R96). -/
def linkCap (c : Cap) (v : Nat) : Cap := capSetGlobal (capSetSeal c v) false

/-- PCC with the cursor at the instruction after a CINVOKE. -/
def pccNext (b : Bank) : Cap := capSetCursor b.pcc ((capCursor b.pcc + 1) % space36)

/-- The gate pair enters PCC and c14, unsealed (R61). -/
def enterPair (b : Bank) (ca cb : Cap) : Bank := bankSetC { b with pcc := capSetSeal ca 0 } 14 (capSetSeal cb 0)

/-- A call (03 R90). -/
def callBank (b : Bank) (ca cb : Cap) : Bank :=
  let v := curSeal b
  let l := fun c => if v = 0 then capNull else linkCap c v
  let n := bankSetC (bankSetC (enterPair b ca cb) 12 (l (pccNext b))) 13 (l (bankC b 14))
  { nullRegs n [8, 9, 10, 11, 15] with ctx := mkCtx (capSeal ca) (ctxMap b) }

/-- A crossing into bow side (03 R96). -/
def crossIn (b : Bank) (t : Status) (ca cb : Cap) : Bank :=
  let n := bankSetC (bankSetC (enterPair b ca cb) 12 (linkCap (pccNext b) crossSeal)) 13 (linkCap (bankC b 14) crossSeal)
  { nullRegs n [8, 9, 10, 11, 15] with
      xctx := field 20 (curSeal b) ||| flag 9 (t.lvl == .S) ||| flag 8 true ||| field 0 (ctxMap b),
      xretPc := (pccNext b).w0, xretDb := (bankC b 14).w1, ctx := mkCtx crossSeal 0 }

/-- A crossing back into stroke side (03 R96). -/
def crossBack (b : Bank) (ca cb : Cap) : Bank :=
  { nullRegs (enterPair b ca cb) [8, 9, 10, 11, 12, 13, 15] with
      xctx := b.xctx &&& ~~~(flag 8 true), ctx := mkCtx (bits b.xctx 35 20) (bits b.xctx 6 0) }

/-- Changes a seat whose STATUS.SIDE may change with it (03 R85). -/
def modSided (s : State) (q : Nat) (f : Seat → Seat) : State := sideNote (getSeat s q) (modSeat s q f) q

/-- What a CINVOKE that passes does (03 R90, R96, R100). -/
def invoke (s : State) (q : Nat) (ca cb : Cap) : State :=
  let t := statusOfSeat s q
  let b := curBank (getSeat s q)
  if t.lvl = .M then
    let s := modSided s q fun x =>
      { modBank x x.status.bank (fun b =>
          { nullRegs (enterPair b ca cb) [12, 13] with ctx := mkCtx (capSeal ca) (ctxMap b) }) with
        status := { t with side := capSide ca } }
    seatCount s q 119
  else if capSide ca = t.side then seatCount (modCur s q fun b => callBank b ca cb) q 119
  else if t.side then
    let lvl := if bit b.xctx 9 then Level.S else Level.U
    let s := modSided s q fun x =>
      { modBank x x.status.bank (fun b => crossBack b ca cb) with
        status := { t with side := false, lvl := lvl, wideOn := false } }
    seatCount s q 120
  else
    let s := modSided s q fun x =>
      { modBank x x.status.bank (fun b => crossIn b t ca cb) with
        status := { t with side := true, lvl := .U, wideOn := false } }
    seatCount s q 120

/-- CINVOKE (R61, 03 R90, R94 to R96, R100). The pair's SIDE is the code gate's (log 14). -/
def execCinvoke (q : SeatNo) (ca cb : Reg) (s : State) : Out State :=
  seatRun q (.cinvoke q ca cb) noRing
    (fun s =>
      let t := statusOfSeat s q.val
      let a := cGet s q.val ca.toNat
      let b := cGet s q.val cb.toNat
      let crossBad := t.lvl != .M && capSide a != t.side && !crossingForm t (curBank (getSeat s q.val)) a b
      match gateFail s t.lvl t.side crossBad true a b with
      | some t => .error (t, s)
      | none => .ok { st := invoke s q.val a b, next := .jump (capCursor a), taken := true }) s

end Sys2Proof.Machine
end

