-- ==== Sys2Proof/Machine/Control.lean ====
section
/-! DEFINITION. Control and synchronisation (05 R162 to R170): branches, TRAP, RET, END, SYNCI, the FENCE forms, MAPSYNC,
DOORBELL, CALLG. -/

namespace Sys2Proof.Machine

/-- B (R132, R162): the target is pc + disp. -/
def execB (q : SeatNo) (cond : BitVec 4) (ra rb : Reg) (disp : BitVec 15) (s : State) : Out State :=
  seatRun q (.b q cond ra rb disp) anyMode
    (fun s =>
      let s := seatCount s q.val 24
      if condTaken cond.toNat (wGet s q.val ra.toNat) (wGet s q.val rb.toNat) then
        .ok { st := s, next := .jump ((pccGet s q.val).w0 + disp.signExtend 36).toNat, taken := true }
      else done s) s

/-- J (R162). -/
def execJ (q : SeatNo) (ra : Reg) (imm : BitVec 19) (s : State) : Out State :=
  seatRun q (.j q ra imm) anyMode
    (fun s => .ok { st := seatCount s q.val 24, next := .jump (wGet s q.val ra.toNat + immI imm).toNat, taken := true }) s

/-- JAL (R162): the target uses w[ra] as it stood before the instruction. -/
def execJal (q : SeatNo) (rd ra : Reg) (imm : BitVec 19) (s : State) : Out State :=
  seatRun q (.jal q rd ra imm) anyMode
    (fun s =>
      .ok { st := wSet (seatCount s q.val 24) q.val rd.toNat ((pccGet s q.val).w0 + 1),
            next := .jump (wGet s q.val ra.toNat + immI imm).toNat, taken := true }) s

/-- TRAP (R163): CALL with SV_ADDR := imm. -/
def execTrap (q : SeatNo) (imm : BitVec 19) (s : State) : Out State :=
  seatRun q (.trap q imm) anyMode (fun s => .error ({ cause := cCALL, addr := immI imm }, s)) s

/-- The attempted state of a failed return (07 R217 MV_ATST): the saved STATUS as it stands, before what R230 takes from SV_BANK.
DESIGN CHOICE, log 115. -/
def returnTrap (k : Nat) (attempt : Cap) (st : Word) : Trap :=
  { cause := cRETURNCHECK, attempt := attempt, atst := field 33 k ||| (st &&& 0o17777) }

/-- RET at S or M through save set i (07 R230 to R233). -/
def returnFrom (s : State) (q : Nat) (atM : Bool) (i : Nat) : Except (Trap × State) Done :=
  let x := getSeat s q
  let v := saveSet x i
  let k := returnFail x atM v
  if k = 0 then .ok { st := returnPass s q atM v i, next := .placed, taken := true }
  else .error (returnTrap k v.pcc v.st, s)

/-- DEPTH of RING_LINK (03 R107). -/
def ringDepth (w : Word) : Nat := bits w 13 12

/-- Frame k of RING_LINK: the caller ring and the gate ring (03 R107). -/
def ringFrame (w : Word) (k : Nat) : Nat × Nat := (bits w (4 * k + 3) (4 * k + 2), bits w (4 * k + 1) (4 * k))

/-- A ring return (03 R108); it acts as SYNCI, as every RET does (05 R164, 06 R209). -/
def ringReturn (s : State) (q : Nat) : Except (Trap × State) Done :=
  let x := getSeat s q
  let b := curBank x
  let d := ringDepth b.ringLink
  let fr := ringFrame b.ringLink (d - 1)
  let t := wGet s q 31
  if 1 ≤ d ∧ fr.2 ≤ fr.1 then
    let s := modSeat s q fun x =>
      { modBank x x.status.bank (fun b => { b with ringLink := (b.ringLink &&& 0o7777) ||| field 12 (d - 1) }) with
        status := { x.status with ring := BitVec.ofNat 2 fr.1 } }
    .ok { st := reloadCode s q, next := .jump t.toNat, taken := true }
  else
    let ring := if 1 ≤ d then BitVec.ofNat 2 fr.1 else x.status.ring
    .error (returnTrap 7 (capSetCursor b.pcc t.toNat) (statusWord { x.status with ring := ring }), s)

/-- RET (R164, 03 R108, 07 R230 to R233): at U a ring return; at M a release when there is nothing to return to. -/
def execRet (q : SeatNo) (s : State) : Out State :=
  seatRun q (.ret q) (fun t => t.lvl != .U || t.ringMode)
    (fun s =>
      let x := getSeat s q.val
      let s := seatCount (dropProgress s q.val) q.val 122
      match x.status.lvl with
      | .U => ringReturn s q.val
      | .S => returnFrom s q.val false (sideSet x.status.side)
      | .M =>
        if !occupied x.svM || (saveBank x.svM == 8 && !x.svM.pcc.tag) then
          .ok { st := releaseSeat s q.val, next := .placed }
        else returnFrom s q.val true 2) s

/-- END at U or S ends the activation normally; in a pair-checked one the side's outputs are complete (R165, 08 R267). -/
def endRunning (s : State) (q b : Nat) : State :=
  let v := getBank (getSeat s q) b
  if v.role = .none then endBank s q b 0
  else
    let s := modSeatR s q fun x => { clearSets x b with idle := true }
    let s := selectBank (freeBank s q b) q
    sideEnded s (leafOf q) v.pairBuf v.role false

/-- END at M ends the activation of the bank that the M set names, as terminated (R165); one whose way-enough waits for the M
set of another seat of its pair too ends once that M has left (07 R237). -/
def endAtM (s : State) (q b : Nat) : State :=
  let v := getBank (getSeat s q) b
  let s := modSeatR s q fun x => clearSets x b
  let s := if v.abortHeld && (actBanks s v.lane.toNat).any (mNamed s) then s else endLive s q b stBroken
  selectBank (modSeatR s q fun x => { x with idle := true }) q

/-- END (R165). -/
def execEndAct (q : SeatNo) (s : State) : Out State :=
  seatRun q (.endAct q) anyMode
    (fun s =>
      let x := getSeat s q.val
      if x.status.lvl = .M then
        if !occupied x.svM || saveBank x.svM == 8 then
          .error (trapHere s q.val cILLEGAL (seatWord (.endAct q)), seatCount s q.val 123)
        else
          let b := saveBank x.svM
          let s := seatCount (modSeat (dropProgress s q.val) q.val fun x => dropWide x b) q.val 123
          .ok { st := endAtM s q.val b, next := .placed }
      else
        let b := x.status.bank
        let s := seatCount (modSeat s q.val fun x => dropWide x b) q.val 123
        .ok { st := endRunning s q.val b, next := .placed }) s

/-- SYNCI (R166, 06 R209). -/
def execSynci (q : SeatNo) (s : State) : Out State :=
  seatRun q (.synci q) anyMode (fun s => done (seatCount (reloadCode s q.val) q.val 127)) s

/-- FENCE, full (R167): in this model every access is performed in program order, so it only advances (log 15). -/
def execFenceFull (q : SeatNo) (s : State) : Out State := seatRun q (.fenceFull q) anyMode done s
/-- FENCE, acquire (R167). -/
def execFenceAcquire (q : SeatNo) (s : State) : Out State := seatRun q (.fenceAcquire q) anyMode done s
/-- FENCE, release (R167). -/
def execFenceRelease (q : SeatNo) (s : State) : Out State := seatRun q (.fenceRelease q) anyMode done s
/-- FENCEW (R168, 11 R366): every access that was checked before the seat's latest write to a descriptor has completed. The
stores that a pair buffer held then are outstanding until the cox performs or drops them; FENCEW waits at itself. DEDUCED,
log 15. -/
def execFencew (q : SeatNo) (s : State) : Out State :=
  seatRun q (.fencew q) atSM
    (fun s => if fenceAwaits s q.val then .ok { st := s, next := .blocked } else done (seatCount s q.val 125)) s
/-- SEALSYNC (02 R67): it returns once every operation admitted under a seal bit that the seat has replaced has completed:
the engine jobs whose handles were checked under seal 65,535. Until then it waits at itself. DEDUCED, log 88. -/
def execSealsync (q : SeatNo) (s : State) : Out State :=
  seatRun q (.sealsync q) atM
    (fun s =>
      if s.engines.jobs.any fun j => j.sealWaits.contains q.val then .ok { st := s, next := .blocked } else done s) s

/-- MAPSYNC_ST.ELAPSED of a MAPSYNC: at most 1 us, a free value (10 R349, R168, log 5). -/
def mapsyncTook (s : State) (q : Nat) : State :=
  let (n, s) := drawFree s
  seatCount (modSeat s q fun x => { x with mapsync := (Config.openWord n).toNat % 1001 }) q 126

/-- A MAPSYNC (R168, 10 R350) drops the TLB and walk-cache entries that the two tests name. -/
def mapsyncRun (q : SeatNo) (i : Instr) (dropT : State → TlbEntry → Bool) (dropW : State → WalkEntry → Bool)
    (s : State) : Out State :=
  seatRun q i atSM
    (fun s => done (mapsyncTook (modSeat s q.val fun x =>
      { x with tlb := x.tlb.filter fun e => !dropT s e, walks := x.walks.filter fun w => !dropW s w }) q.val)) s

/-- MAPSYNC aux 0 (R168): every entry. -/
def execMapsyncAll (q : SeatNo) (s : State) : Out State :=
  mapsyncRun q (.mapsyncAll q) (fun _ _ => true) (fun _ _ => true) s

/-- The map a MAPSYNC names (R168). -/
def syncMap (s : State) (q : Nat) (ra : Reg) : Nat := bits (wGet s q ra.toNat) 7 0

/-- MAPSYNC aux 1 (R168, 10 R350): the entries of a map; G entries remain. -/
def execMapsyncMap (q : SeatNo) (ra : Reg) (s : State) : Out State :=
  mapsyncRun q (.mapsyncMap q ra) (fun s e => e.map == syncMap s q.val ra && !e.glob)
    (fun s w => w.map == syncMap s q.val ra) s

/-- MAPSYNC aux 2 (R168, 10 R350): what translates one page. -/
def execMapsyncPage (q : SeatNo) (ra rb : Reg) (s : State) : Out State :=
  mapsyncRun q (.mapsyncPage q ra rb)
    (fun s e => tlbMap e (syncMap s q.val ra) && tlbCovers e (wGet s q.val rb.toNat).toNat)
    (fun s w => w.map == syncMap s q.val ra && w.idx == (wGet s q.val rb.toNat).toNat / 2 ^ 24) s

/-- The lane result word (R171). -/
def laneResult (st : Nat) (msg : Bool) (len lane : Nat) : Word :=
  field 30 st ||| flag 29 msg ||| field 16 len ||| field 0 (lane % 65536)

/-- The doorbell lane of a physical seat, if the seat table names one (08 R252). -/
def doorbellLane (s : State) (n : Nat) : Option Nat :=
  let l := smGet 65536 s.lanes.doorbell n
  if l < 65536 then some l else none

/-- DOORBELL to physical seat n (R169): the status, the lane when there is one, and the state. DOORBELL is a producer of kind 6
alone (09 R275). A pair-checked activation holds the word back (08 R266). -/
def ringBell (s : State) (q n : Nat) (w : Word) : Nat × Option Nat × State :=
  let y := getSeat s n
  match doorbellLane s n with
  | none => (stBadDescriptor, none, s)
  | some l =>
    if 71 < n || !y.powered || y.checkStop.isSome || (classOf s l).map (clKind s) != some 6 then (stBadDescriptor, some l, s)
    else
    let s := (laneReach s l 1).2
    if (laneSt s l).state != lsOpen then (stBadDescriptor, some l, s)
    else if (curBank (getSeat s q)).role ≠ .none then
      (stOK, some l, seatCount (pairPush s q { kind := 4, addr := l, words := [w], tags := [] }) q 117)
    else
      let (st, s) := putLane s l [w]
      if st = stOK then (st, some l, seatCount (seatCount s q 117) n 118)
      else if st = stNoCredit then (st, some l, seatCount s q 116)
      else (st, some l, s)

/-- DOORBELL (R169). LANE of the result is a free value where the target has no doorbell lane (log 5). -/
def execDoorbell (q : SeatNo) (rd ra rb : Reg) (s : State) : Out State :=
  seatRun q (.doorbell q rd ra rb) atSM
    (fun s =>
      let (st, l, s) := ringBell s q.val (wGet s q.val ra.toNat).toNat (wGet s q.val rb.toNat)
      match l with
      | some l => done (wSet s q.val rd.toNat (laneResult st false 0 l))
      | none =>
        let (n, s) := drawFree s
        done (wSet s q.val rd.toNat (laneResult st false 0 (Config.openWord n).toNat))) s

/-- The target of a CALLG as an access under PCC (R170). -/
def callgAccess (s : State) (q : Nat) (ra : Reg) (imm : BitVec 19) : Access :=
  { cap := pccGet s q, ea := ((wGet s q ra.toNat).toNat : Int) + imm.toInt, n := 1, need := rEX }

/-- The region of the one enabled descriptor that covers a physical word (03 R106 order 4), or the kind of the refusal. A
target in the fence block is DENIED whatever the descriptors state (11 R355), and so is one in a region whose RS EX is 0
(11 R356); its side bits are left to the fetch at the target. DEDUCED, log 67. -/
def gateRegion (s : State) (p : Nat) : Except Nat Region :=
  if isFenceBlock p then .error 1
  else match descsOver s.fence p 1 with
  | [] => .error 2
  | [d] => if permBit (descWord s.fence d 2) 2 2 then .ok (descRegion s.fence d p) else .error 1
  | _ => .error 3

/-- RING_LINK after an inward CALLG (03 R107): a frame is pushed. R107 says that DEPTH never exceeds 3; what a push at DEPTH
3 leaves, which a RING_LINK written at M can bring about, no rule states: the frames and DEPTH are then a free value, and
bits 35 to 14 stay zero. DESIGN CHOICE, log 68. -/
def pushFrame (w : Word) (caller gate n : Nat) : Word :=
  let d := ringDepth w
  if d = 3 then Config.openWord n &&& 0o37777
  else (w &&& ~~~(field (4 * d) 15 ||| field 12 3)) ||| field (4 * d) (caller * 4 + gate) ||| field 12 (d + 1)

/-- What a CALLG that passes does (03 R107). -/
def callGate (s : State) (q : Nat) (ringlim : Nat) : State :=
  let x := getSeat s q
  let b := curBank x
  let s := wSet s q 31 (b.pcc.w0 + 1)
  if ringlim = x.status.ring.toNat then s
  else
    let (n, s) := drawFree s
    modSeat s q fun x =>
      { modBank x x.status.bank (fun b => { b with ringLink := pushFrame b.ringLink x.status.ring.toNat ringlim n }) with
        status := { x.status with ring := BitVec.ofNat 2 ringlim } }

/-- CALLG (R170, 03 R106, R107). -/
def execCallg (q : SeatNo) (ra : Reg) (imm : BitVec 19) (s : State) : Out State :=
  seatRun q (.callg q ra imm) (fun t => t.lvl == .U && t.ringMode)
    (fun s =>
      let s := seatCount s q.val 121
      let a := callgAccess s q.val ra imm
      match boundsFail a with
      | some t => .error ({ t with step := 0 }, s)
      | none =>
        match translateSpan q.val .fetch false 2 s a.ea.toNat 1 with
        | .error (f, v, s) =>
          .error ({ cause := f.cause, addr := BitVec.ofNat 36 v, aux := BitVec.ofNat 36 f.aux, wlvl := f.lvl }, s)
        | .ok (rs, s) =>
          let p := ((rs.head?).map Run.pa).getD 0
          match gateRegion s p with
          | .error k => .error ({ cause := cFENCE, addr := a.word, aux := BitVec.ofNat 36 p, fkind := k }, s)
          | .ok g =>
            if !g.gate || (p - g.start) % 16 != 0 || decide ((statusOfSeat s q.val).ring.toNat < g.ringlim) then
              .error ({ cause := cGATE, addr := a.word }, s)
            else .ok { st := callGate s q.val g.ringlim, next := .jump a.ea.toNat, taken := true }) s

end Sys2Proof.Machine
end

