-- ==== Sys2Proof/Machine/LaneInstr.lean ====
section
/-! DEFINITION. Lane instructions (05 R171 to R178, 09 R296, R297, R551). -/

namespace Sys2Proof.Machine

/-- The authority of LOPEN, LCLOSE, LARM and LSTAT: c[ca] with LN, its cursor one lane number; steps 1 to 4 and 6 of R48
(R172). -/
def laneAuth (s : State) (q : Nat) (c : Cap) : Option Trap :=
  stepsFail (levelOf s q) (sideOf s q) [{ cap := c, ea := (capCursor c : Int), n := 1, need := rLN }] [1, 2, 3, 4, 6]

/-- The class of a lane whose descriptor the lane unit reaches. -/
def laneClass (s : State) (l : Nat) : Option Nat × State :=
  match classOf s l with
  | none => (none, s)
  | some k =>
    let (ok, s) := laneReach s l 1
    (if ok then some k else none, s)

/-- The LANE trap (R173). -/
def laneTrap (l : Nat) : Trap := { cause := cLANE, addr := field 0 l }

/-- Does CTX.CUR_SEAL of the bank in use equal the seal of the lane's consumer gate (R173)? -/
def sealMatches (s : State) (q l : Nat) : Bool := curSeal (curBank (getSeat s q)) == capSeal (laneGate s l)

/-- Does the putting compartment satisfy the class's producer rule (R278)? -/
def producerOk (s : State) (q k l : Nat) : Bool :=
  let t := statusOfSeat s q
  let v := curSeal (curBank (getSeat s q))
  let sideOk := if t.side then clPbow s k else clPstroke s k
  let atM := t.lvl == .M
  match clPrule s k with
  | 0 => false
  | 1 => atM || sideOk
  | 2 => atM || (sideOk && decide (clPsealLo s k ≤ v) && decide (v ≤ clPsealHi s k))
  | _ => atM || sealMatches s q l

/-- Writes a lane result and goes on. -/
def laneDone (s : State) (q : Nat) (rd : Reg) (st : Nat) (msg : Bool) (len lane : Nat) : Except (Trap × State) Done :=
  done (wSet s q rd.toNat (laneResult st msg len lane))

/-- The stow capability's physical address (R296 condition 3): at U and S its 256 words lie in one page. -/
def stowTarget (s : State) (q : Nat) (c : Cap) : Option Nat × State :=
  if levelOf s q = .M then (some (capCursor c), s)
  else
    match translateSpan q .load false 2 s (capCursor c) 256 with
    | .error (_, _, s) => (none, s)
    | .ok ([r], s) => (some r.pa, s)
    | .ok (_, s) => (none, s)

/-- The ring capability of granule 0 (R281). -/
def ringCapability (s : State) (k l : Nat) (side : Bool) : Cap :=
  let b := ringBase s k l
  { w0 := field 0 b, w1 := field 0 b, w2 := field 0 (b + ringLen s k - 1),
    w3 := field 8 (rRD + rWR + (if clCaps s k then rRC + rWC + rWL else 0)) ||| flag 6 side, tag := true }

/-- Writes the descriptor of a lane that opens (R281, R296), and zeroes STOW_ST, as an access of the seat that opens it (08
R259, 06 R208). -/
def openLane (s : State) (q k l stow : Nat) (gate : Cap) : State :=
  let d := descAddr s l
  let rc := ringCapability s k l (capSide gate)
  let s := putGranule s d (capWords rc) true
  let s := setLane s l { credit := clIcred s k, state := lsOpen, cls := k }
  let s := putGranule s (d + 8) (capWords gate) gate.tag
  let s := putGranule s (d + 12) [0, 0, field 0 stow, field 0 (counterBase + 0o1000000 + 8 * l)] false
  let s := match fenceCheck s (atMReq 1 (stow + 0o143) 1 false) with
    | .ok _ => viewPut s q (stow + 0o143) [0] false
    | .error _ => s
  if s.boot.done && !s.boot.laneOpened then
    advanceRollback { s with boot := { s.boot with laneOpened := true } }
  else s

/-- LOPEN on lane l after its traps (R177, R296): the status and the state. -/
def openStatus (s : State) (q l : Nat) (gate stowCap : Cap) : Nat × State :=
  match classOf s l with
  | none => (stBadDescriptor, s)
  | some k =>
    let (ok, s) := laneReach s l 1
    if !ok || (laneSt s l).state ≠ lsClosed then (stBadDescriptor, s)
    else
      match stowTarget s q stowCap with
      | (none, s) => (stBadDescriptor, s)
      | (some p, s) =>
        match ringAdmits s k l with
        | .error s => (stBadDescriptor, s)
        | .ok _ =>
          match reachAll s l [(0, 1), (1, 1), (2, 1), (3, 1)] with
          | (true, s) => (stOK, openLane s q k l p gate)
          | (false, s) => (stBadDescriptor, s)

/-- What LOPEN asks of its gate cb at a step of R48: TAG, GATE if it is unsealed, RIGHTS without GT and EX (R172). Since no
rule says that these are steps of R48, STEP is 0 (log 9). SV_ADDR is the gate's cursor, which 07 R214 does not say of a gate.
DESIGN CHOICE, log 116. -/
def gateStep (gate : Cap) : Nat → Option Trap
  | 1 => if gate.tag then none else some { cause := cTAG, addr := gate.w0 }
  | 2 => if capSeal gate = 0 then some { cause := cGATE, addr := gate.w0 } else none
  | 4 => if holds (capRights gate) (rGT + rEX) then none else some { cause := cRIGHTS, addr := gate.w0 }
  | _ => none

/-- The checks of LOPEN (R172, R177): each step over ca, cb and c[aux] before the next (02 R55). Step 5 is not made on ca.
The place of cb's checks among the steps is DEDUCED, log 16. -/
def openFail (s : State) (q : Nat) (c gate stowCap : Cap) : Option Trap :=
  let lvl := levelOf s q
  let side := sideOf s q
  let auth : Access := { cap := c, ea := (capCursor c : Int), n := 1, need := rLN }
  let area : Access := { cap := stowCap, ea := (capCursor stowCap : Int), n := 256, align := 4, memOnly := true }
  [1, 2, 3, 4, 5, 6].findSome? fun k =>
    [if k = 5 then none else stepFail lvl side auth k, gateStep gate k, stepFail lvl side area k].findSome? id

/-- LOPEN (R177, 09 R296). -/
def execLopen (q : SeatNo) (rd ca cb aux : Reg) (s : State) : Out State :=
  seatRun q (.lopen q rd ca cb aux) noRing
    (fun s =>
      let c := cGet s q.val ca.toNat
      let gate := cGet s q.val cb.toNat
      let sc := cGet s q.val aux.toNat
      match openFail s q.val c gate sc with
      | some t => .error (t, s)
      | none =>
        let (st, s) := openStatus s q.val (capCursor c) gate sc
        laneDone s q.val rd st false 0 (capCursor c)) s

/-- Discards the messages that hardware producers hold for a lane, each with a BROKEN notice (R177 step 2, R292). -/
def dropHeld (s : State) (l : Nat) : State :=
  let (gone, kept) := s.lanes.held.partition fun h => h.lane.toNat == l
  gone.foldl (fun s h =>
      let s := match h.channel with
        | some ch => chanCommitted s ch
        | none => s
      notice s l { status := stBroken, len := h.words.length })
    { s with lanes := { s.lanes with held := kept } }

/-- How many messages lie delivered between HEAD and TAIL, as the slot records that the lane unit reads tell (10 R321, R322). -/
def queuedCount (k l : Nat) : Nat → State → LaneSt → Nat × State
  | 0, s, _ => (0, s)
  | fuel + 1, s, x =>
    let s := meetSkip k l 8192 s x
    let x := skipBroken s k l 8192 x
    if x.head = x.tail then (0, s)
    else
      let n := bits (memWord s.mem (recAddr s k l x.head)) 33 30 + 1
      let (c, s) := queuedCount k l fuel s { x with head := (x.head + n) % 8192 }
      (1 + c, s)

/-- Counts n rejects of a lane (R177 step 3). -/
def laneRejects (s : State) (l n : Nat) : State := counterAdd s (0o1000000 + 8 * l) 3 n

/-- Is an activation of lane l live that is not the one which executes on seat q (R297)? At most one is live (08 R249), and a
pair-checked one executes on each of its seats; at M no activation executes. -/
def liveElsewhere (s : State) (q l : Nat) : Bool :=
  let x := getSeat s q
  laneLive s l && !(decide (x.status.bank < 8) && (curBank x).st == .running && (curBank x).lane.toNat == l)

/-- The queued messages of a lane that ends, as its slot records tell. Records that the fence does not let the lane unit read
count as none, and the refusal is recorded. DEDUCED, log 75. -/
def queuedMost (s : State) (k l : Nat) (x : LaneSt) : Nat × State :=
  match fenceUnit s { cls := 6, dir := 0, p := ringBase s k l, n := ringLen s k } 0o203 with
  | .ok _ => queuedCount k l 8192 s x
  | .error s => (0, s)

/-- What the end of a lane does to its descriptor, granule by granule as the fence admits it (R177 steps 3 to 5, 09 R314,
R551): the queued messages are discarded and counted and STATE is st, the deadline is disarmed, the gate's tag is cleared,
and every activation that waits on the lane is woken. read1 says that granule 1 has been read; the result, that every access
is admitted. -/
def purgeLane (s : State) (k l st : Nat) (read1 : Bool) : Bool × State :=
  let (ok1, s) := if read1 then laneTouch s l 1 1 else (false, s)
  let (ok3, s) := laneTouch s l 3 1
  let (ok2, s) := laneTouch s l 2 1
  let s := if ok1 then
      let x := laneSt s l
      let (n, s) := queuedMost s k l x
      setLane (laneRejects s l n) l { x with head := x.tail, tof := false, armed := false, state := st }
    else s
  let s := if ok3 then setDeadline s l 0 else s
  let s := if ok1 then laneEvent s l true else wakeAll s l true
  (ok1 && ok2 && ok3, if ok2 then clearTag s ((descAddr s l + 8) / 4) else s)

/-- A lane that has ended and whose descriptor the lane unit has reached whole: CLOSED, or CLOSING while an activation of it
is live; its fault bit is clear (R297, R551, 09 R314). -/
def closedLane (s : State) (l : Nat) (live : Bool) : State :=
  let s := { s with lanes := { s.lanes with fault := smSet false s.lanes.fault l false } }
  setLane s l { laneSt s l with state := if live then lsClosing else lsClosed, wait := false }

/-- LCLOSE on lane l (R177, R297). One whose descriptor the fence refuses somewhere does the steps whose accesses it admits
and stays FAULTED (R551). -/
def closeStatus (s : State) (q l : Nat) : Nat × State :=
  match classOf s l with
  | none => (stBadDescriptor, s)
  | some k =>
    let (ok1, s) := laneReach s l 1
    let st := (laneSt s l).state
    if st ≠ lsOpen ∧ st ≠ lsFaulted then (stBadDescriptor, s)
    else
      let (ok0, s) := laneReach s l 0
      let (ok, s) := purgeLane (dropHeld s l) k l lsClosing ok1
      let s := match s.lanes.stowed.find? fun e => e.lane.toNat == l with
        | some e => endStowed (unready s l) e 0
        | none => unready s l
      if ok0 && ok then (stOK, closedLane s l (liveElsewhere s q l)) else (stFence, s)

/-- LCLOSE (R177). -/
def execLclose (q : SeatNo) (rd ca : Reg) (s : State) : Out State :=
  seatRun q (.lclose q rd ca) noRing
    (fun s =>
      let c := cGet s q.val ca.toNat
      match laneAuth s q.val c with
      | some t => .error (t, s)
      | none =>
        let (st, s) := closeStatus s q.val (capCursor c)
        laneDone s q.val rd st false 0 (capCursor c)) s

/-- The granule tags that an LPUT carries (02 R37): the class has CAPS, the source has RC, the source granules are whole. -/
def putTags (s : State) (q k : Nat) (c : Cap) (p : Passed) (n : Nat) : List Bool :=
  if clCaps s k && holds (capRights c) rRC && capCursor c % 4 == 0 then
    ((p.runs.getD 0 []).flatMap fun r => (List.range (r.n / 4)).map fun i => seatTag s q (r.pa + 4 * i)).take (n / 4)
  else []

/-- The kinds whose lanes take LPUT: egress, internal, engine request (R275). -/
def lputKind (kind : Nat) : Bool := decide (1 ≤ kind) && decide (kind ≤ 3)

/-- Does an LPUT read the gate granule of the lane: producer rule 3, below M (R278)? -/
def putReadsGate (s : State) (q k : Nat) : Bool := decide (3 ≤ clPrule s k) && levelOf s q != .M

/-- The class of a lane that an LPUT reaches: STATE, and the gate where its producer rule asks for it (R173, R278, R551). -/
def putClass (s : State) (q l : Nat) : Option Nat × State :=
  match classOf s l with
  | none => (none, s)
  | some k =>
    let (ok, s) := reachAll s l ((1, 0) :: if putReadsGate s q k then [(2, 0)] else [])
    (if ok then some k else none, s)

/-- LPUT's put of a message (R174, R275, 08 R266). A lane of a kind that programs do not put to refuses it as a wrong kind
(R315); it is no refusal under R289, and is not counted. DEDUCED, log 77. -/
def putStatus (s : State) (q l : Nat) (ws : List Word) (ts : Nat → List Bool) : Nat × State :=
  match putClass s q l with
  | (none, s) => (stBadDescriptor, s)
  | (some k, s) =>
    if !lputKind (clKind s k) then (stBadDescriptor, s)
    else if (curBank (getSeat s q)).role ≠ .none then
      if (laneSt s l).state ≠ lsOpen then (stBadDescriptor, s)
      else if ws.length = 0 ∨ 16 * clSS s k < ws.length then (stBadDescriptor, laneCount s l 3)
      else (stOK, pairPush s q { kind := 2, addr := l, words := ws, tags := ts k })
    else
      let (st, s) := putLaneTags s l ws (ts k)
      (st, if st = stNoCredit then seatCount s q 116 else s)

/-- Is STATE other than CLOSED, as the LANE checks ask (R173)? A lane whose granule 1 the fence refuses counts as FAULTED
(R551). -/
def notClosed (s : State) (l : Nat) : Bool := !descReads s l 1 || (laneSt s l).state != lsClosed

/-- Does R173 raise LANE on an LPUT? A gate that the fence does not let the lane unit read raises none: the lane is then FAULTED
(R551). -/
def putRefused (s : State) (q l : Nat) : Bool :=
  match classOf s l with
  | none => false
  | some k => notClosed s l && !(putReadsGate s q k && !descReads s l 2) && !producerOk s q k l

/-- The LANE trap, in the state that the lane unit's read of STATE leaves: a refused read marks the lane (R551). -/
def laneRaised (l : Nat) (s : State) : Trap × State := (laneTrap l, (laneReach s l 1).2)

/-- LPUT (R174). -/
def execLput (q : SeatNo) (rd ca rb : Reg) (s : State) : Out State :=
  seatRun q (.lput q rd ca rb) anyMode
    (fun s =>
      let w := wGet s q.val rb.toNat
      let l := bits w 15 0
      let n := bits w 28 16
      let c := blockCap s q.val ca.toNat
      let a : Access := { cap := c, ea := (capCursor c : Int), n := n, need := rRD }
      let s := seatCount s q.val 112
      if n = 0 then
        match stepsFail (levelOf s q.val) (sideOf s q.val) [{ a with n := 1 }] [1, 2, 3, 4, 5] with
        | some t => .error (t, s)
        | none =>
          if putRefused s q.val l then .error (laneRaised l s)
          else
            let (st, s) := putStatus s q.val l [] (fun _ => [])
            laneDone s q.val rd st false 0 l
      else
        match accessAll q.val [{ a with last := if putRefused s q.val l then some (laneTrap l) else none }] s with
        | .error e => .error (if e.1.cause = cLANE then laneRaised l e.2 else e)
        | .ok p =>
          let (st, s) := putStatus p.st q.val l (p.data.getD 0 []) (fun k => putTags p.st q.val k c p n)
          .ok { st := wSet s q.val rd.toNat (laneResult st false 0 l), acc := true, ea := a.word, pa := p.pa 0 }) s

/-- Does R173 or R276 raise LANE on an LTAKE or LGIVE? A gate that the fence does not let the lane unit read raises none: the
lane is then FAULTED (R551). -/
def takeRefused (s : State) (q l : Nat) : Bool :=
  match classOf s l with
  | none => false
  | some k => notClosed s l && (hwKind (clKind s k) || (descReads s l 2 && !sealMatches s q l))

/-- The class of a lane that an LTAKE or LGIVE reaches: STATE and the gate (R173, R551). -/
def takeClass (s : State) (l : Nat) : Option Nat × State :=
  match classOf s l with
  | none => (none, s)
  | some k =>
    let (ok, s) := reachAll s l [(1, 0), (2, 0)]
    (if ok then some k else none, s)

/-- May a destination granule receive a tag (02 R37)? -/
def destTagOk (s : State) (q : Nat) (c : Cap) (r : Run) (pa : Nat) (v : Cap) : Bool :=
  holds (capRights c) rWC && (capGlobal v || holds (capRights c) rWL) && r.capOk &&
    match fenceCheck s (seatReq (statusOfSeat s q) 1 pa 4 false) with
    | .ok g => g.tagcap
    | .error _ => false

/-- Writes a taken message over the runs of its destination (R175, 02 R37). -/
def deliverRuns (q : Nat) (c : Cap) : List Run → State → List Word → List Bool → State
  | [], s, _, _ => s
  | r :: rs, s, ws, ts =>
    if capCursor c % 4 = 0 then
      let put := fun (s : State) (i : Nat) =>
        let g := ((ws.take r.n).drop (4 * i)).take 4
        let v : Cap := { w0 := g.getD 0 0, w1 := g.getD 1 0, w2 := g.getD 2 0, w3 := g.getD 3 0, tag := true }
        let t := ts.getD i false && g.length == 4 && destTagOk s q c r (r.pa + 4 * i) v
        seatPut s q (r.pa + 4 * i) g t t
      deliverRuns q c rs ((List.range ((r.n + 3) / 4)).foldl put s) (ws.drop r.n) (ts.drop (r.n / 4))
    else deliverRuns q c rs (seatWrite s q r.pa (ws.take r.n)) (ws.drop r.n) []

/-- The lane as a pair-checked side sees it: its own removals and returns are applied, and nothing else (08 R266). -/
def pairView (s : State) (q l : Nat) : State :=
  ((seatOuts s q).filter fun o => o.addr == l && (o.kind == 3 || o.kind == 5)).foldl performOut s

/-- The message an LTAKE finds, after diversions (R175, R294). -/
def takeHead (s : State) (q l : Nat) : Option Msg × State :=
  if (curBank (getSeat s q)).role = .none then laneHead s l
  else match classOf s l with
  | none => (none, s)
  | some k => msgBehind k l 8192 s (laneSt (pairView s q l) l).head

/-- An LTAKE that retires without blocking: its result word and its count (R171, 15 R444). -/
def takeDone (s : State) (q : Nat) (rd : Reg) (st : Nat) (one : Bool) (n l : Nat) : Except (Trap × State) Done :=
  laneDone (seatCount s q 113) q rd st one n l

/-- LTAKE delivers a message (R175): steps 6 to 8, the fence word by word, then the words, then the removal. What the lane
unit diverted before (09 R294, R552) stands where a step traps. DEDUCED, log 102. -/
def takeMessage (s : State) (q l : Nat) (rd : Reg) (c : Cap) (m : Msg) : Except (Trap × State) Done :=
  let a : Access := { cap := c, ea := (capCursor c : Int), n := m.words.length, need := rWR, write := true,
                      each := true }
  match accessAll q [a] s with
  | .error (t, s) => .error (t, seatCount s q 113)
  | .ok p =>
    let s := deliverRuns q c (p.runs.getD 0 []) p.st m.words m.tags
    let v := curBank (getSeat s q)
    let s := if v.role = .none then takeMsg s l m false
      else pairPush s q { kind := 5, addr := l, words := [field 0 m.slots, field 0 m.sq], tags := [],
                          len := m.words.length }
    let s := modCur s q fun b => { b with lastMsg := some (m.sq, m.words.length) }
    .ok { st := wSet (seatCount s q 113) q rd.toNat (laneResult stOK true m.words.length l),
          acc := true, ea := a.word, pa := p.pa 0 }

/-- The activation blocks in LTAKE on a lane and keeps its bank (R175, 08 R256), also where the fence refuses the lane unit's
write of WAIT: the lane is then FAULTED (R551), and no rule says what becomes of the LTAKE. DESIGN CHOICE, log 111. -/
def blockOn (s : State) (q l : Nat) : State :=
  let s := unready (laneStore s l { laneSt s l with wait := true }) l
  let s := modSeatR s q fun x =>
    let x := leaveBank x
    { modBank x x.status.bank (fun b => { b with st := .blocked, waitLane := BitVec.ofNat 16 l, progress := 0 }) with
        idle := true }
  selectBank (seatCount s q 115) q

/-- Does BLOCK take effect (R175, 07 R225, 08 R266)? -/
def mayBlock (s : State) (q : Nat) (aux : Reg) : Bool :=
  let x := getSeat s q
  aux == 1 && x.status.lvl != .M && !anyOccupied x && (curBank x).role == .none

/-- LTAKE on lane l after its traps (R175). It answers TIMEOUT also where the fence refuses the lane unit's write that clears the
flag. DESIGN CHOICE, log 111. -/
def takeStatus (s : State) (q l : Nat) (rd : Reg) (c : Cap) (aux : Reg) : Except (Trap × State) Done :=
  match takeClass s l with
  | (none, s) => takeDone s q rd stBadDescriptor false 0 l
  | (some _, s) =>
    if (laneSt s l).state ≠ lsOpen then takeDone s q rd stBadDescriptor false 0 l
    else
      match takeHead s q l with
      | (some m, s) => takeMessage s q l rd c m
      | (none, s) =>
        let x := laneSt s l
        if x.state ≠ lsOpen then takeDone s q rd (if smGet false s.lanes.fault l then stBadDescriptor else stFence) false 0 l
        else if x.tof then takeDone (offQueue (laneStore s l { x with tof := false }) l) q rd stTimeout false 0 l
        else if mayBlock s q aux then .ok { st := blockOn s q l, next := .blocked }
        else takeDone s q rd stOK false 0 l

/-- LTAKE (R175). -/
def execLtake (q : SeatNo) (rd ca rb aux : Reg) (s : State) : Out State :=
  seatRun q (.ltake q rd ca rb aux) anyMode
    (fun s =>
      let l := bits (wGet s q.val rb.toNat) 15 0
      let c := blockCap s q.val ca.toNat
      let a : Access := { cap := c, ea := (capCursor c : Int), n := 1, need := rWR, write := true }
      match stepsFail (levelOf s q.val) (sideOf s q.val) [a] [1, 2, 3, 4, 5] with
      | some t => .error (t, seatCount s q.val 113)
      | none =>
        let v := curBank (getSeat s q.val)
        if v.abortTake && v.waitLane.toNat == l then
          takeDone (modCur s q.val fun b => { b with abortTake := false }) q.val rd stAborted false 0 l
        else if takeRefused s q.val l then .error (laneRaised l (seatCount s q.val 113))
        else takeStatus s q.val l rd c aux) s

/-- LGIVE on lane l after its traps (R176). -/
def giveStatus (s : State) (q l k : Nat) : Nat × State :=
  match takeClass s l with
  | (none, s) => (stBadDescriptor, s)
  | (some _, s) =>
    let x := laneSt s l
    if x.state ≠ lsOpen then (stBadDescriptor, s)
    else if (curBank (getSeat s q)).role ≠ .none then
      if (laneSt (pairView s q l) l).taken < k then (stBadDescriptor, s)
      else (stOK, pairPush s q { kind := 3, addr := l, words := [field 0 k], tags := [] })
    else if x.taken < k then (stBadDescriptor, s)
    else match laneTouch s l 1 1 with
      | (true, s) => (stOK, setLane s l { x with taken := x.taken - k, credit := x.credit + k })
      | (false, s) => (stBadDescriptor, s)

/-- LGIVE (R176). -/
def execLgive (q : SeatNo) (rd ra rb : Reg) (s : State) : Out State :=
  seatRun q (.lgive q rd ra rb) anyMode
    (fun s =>
      let l := bits (wGet s q.val ra.toNat) 15 0
      let s := seatCount s q.val 114
      if takeRefused s q.val l then .error (laneRaised l s)
      else
        let (st, s) := giveStatus s q.val l (wGet s q.val rb.toNat).toNat
        laneDone s q.val rd st false 0 l) s

/-- LARM on lane l (R176, 09 R300): a message already delivered meets the deadline at once. One that is refused clears no
timeout flag. DEDUCED, log 95. -/
def armStatus (s : State) (l n : Nat) : Nat × State :=
  match laneClass s l with
  | (none, s) => (stBadDescriptor, s)
  | (some _, s) =>
    let x := laneSt s l
    if x.state ≠ lsOpen then (stBadDescriptor, s)
    else match reachAll s l [(1, 1), (3, 1)] with
    | (false, s) => (stBadDescriptor, s)
    | (true, s) =>
      let arm := n != 0 && x.head == x.tail
      (stOK, offQueue (setDeadline (setLane s l { x with armed := arm, tof := false }) l (if arm then s.time + n else 0)) l)

/-- LARM (R176). -/
def execLarm (q : SeatNo) (rd ca rb : Reg) (s : State) : Out State :=
  seatRun q (.larm q rd ca rb) noRing
    (fun s =>
      let c := cGet s q.val ca.toNat
      match laneAuth s q.val c with
      | some t => .error (t, s)
      | none =>
        let (st, s) := armStatus s (capCursor c) (wGet s q.val rb.toNat).toNat
        laneDone s q.val rd st false 0 (capCursor c)) s

/-- LSTAT (R176): word aux of the descriptor, as data. A word whose read the fence refuses is a free value (log 5). A cursor
above 65,535, which names no lane, reads where a descriptor of that number would stand. DESIGN CHOICE, log 112. -/
def execLstat (q : SeatNo) (rd ca aux : Reg) (s : State) : Out State :=
  seatRun q (.lstat q rd ca aux) noRing
    (fun s =>
      let c := cGet s q.val ca.toNat
      match laneAuth s q.val c with
      | some t => .error (t, s)
      | none =>
        let l := capCursor c
        let (ok, s) := laneReach s l (aux.toNat / 4)
        if ok then done (wSet s q.val rd.toNat (laneWord s l aux.toNat))
        else
          let (n, s) := drawFree s
          done (wSet s q.val rd.toNat (Config.openWord n))) s

end Sys2Proof.Machine
end

