-- ==== Sys2Proof/Machine/SysWords.lean ====
section
/-! DEFINITION. The system-word space (04 R124 to R127): which access is permitted, what each word reads and what a write
does. -/

namespace Sys2Proof.Machine

/-- Is n in the range? -/
def inR (n lo hi : Nat) : Bool := decide (lo ≤ n) && decide (n ≤ hi)

/-- The save set that a word of 0o0100 to 0o0157 belongs to (07 R217). -/
def svIndex (n : Nat) : Nat := (n - 0o100) / 16

/-- Is the word assigned and the direction permitted at the level (R125 step 1)? SYSRD and SYSWR at U never are. -/
def sysAllowed (t : Status) (n : Nat) (write : Bool) : Bool :=
  let m := t.lvl == .M
  let own := m || (t.lvl == .S)
  let rdAny := own && (!write || m)
  if t.lvl = .U then false
  else if n = 0 ∨ n = 0o10 ∨ n = 0o40 ∨ n = 0o41 then !write
  else if inR n 0o11 0o15 || n == 0o20 then rdAny
  else if inR n 0o100 0o115 then m || !t.side
  else if inR n 0o120 0o135 then m || t.side
  else if inR n 0o140 0o156 then m
  else if n = 0o160 ∨ n = 0o161 then m || !t.side
  else if n = 0o162 ∨ n = 0o163 then m || t.side
  else if n = 0o164 then own
  else if n = 0o165 ∨ n = 0o166 then m
  else if n = 0o167 then rdAny
  else if inR n 0o170 0o172 then m
  else if inR n 0o200 0o203 then rdAny
  else if n = 0o400 ∨ n = 0o401 || inR n 0o410 0o421 then m
  else if n = 0o430 ∨ n = 0o440 ∨ n = 0o441 || inR n 0o450 0o453 then m
  else if n = 0o460 ∨ n = 0o502 then !write
  else if n = 0o461 ∨ n = 0o510 then m
  else if inR n 0o470 0o477 then m && write
  else if n = 0o500 ∨ n = 0o501 then rdAny
  else if inR n 0o1000 0o1177 then m || !t.side
  else if inR n 0o1200 0o1377 then m || t.side
  else if n = 0o1400 then rdAny
  else if n = 0o1401 || inR n 0o2000 0o2017 then !write
  else if inR n 0o2400 0o2402 then rdAny
  else false

/-- SEAT_ID (R126). -/
def seatIdWord (q : Nat) : Word := field 8 q ||| field 4 (q / 9) ||| field 0 (q % 9)

/-- The bank whose CTX, XCTX, XRET_PC, XRET_DB and RING_LINK SYSRD and SYSWR reach: the bank in use; at M the one in use
when M was entered (03 R83). DEDUCED, log 17: bank T while the M set holds no trap. -/
def ctxBank (x : Seat) : Nat :=
  if x.status.lvl = .M then (if occupied x.svM then saveBank x.svM else 8) else x.status.bank

/-- Word i of a granule. -/
def capWordAt (c : Cap) (i : Nat) : Word := (capWords c).getD i 0

/-- The granule with word i written: its tag is cleared (07 R217). -/
def capPutWord (c : Cap) (i : Nat) (w : Word) : Cap :=
  match i with
  | 0 => { c with w0 := w, tag := false }
  | 1 => { c with w1 := w, tag := false }
  | 2 => { c with w2 := w, tag := false }
  | _ => { c with w3 := w, tag := false }

/-- A word of a save set (07 R217). -/
def saveWord (v : SaveSet) (o : Nat) : Word :=
  if o < 4 then capWordAt v.pcc o
  else if o < 8 then capWordAt v.granB (o - 4)
  else match o with
  | 8 => v.st
  | 9 => v.cause
  | 10 => v.addr
  | 11 => v.aux
  | 12 => v.prog
  | 13 => v.bank
  | 14 => v.atst
  | _ => 0

/-- STATUS bits that a stored word holds (03 R81): 12 to 0 without bit 3. -/
def statusMask : Word := 0o17767

/-- A write of a save-set word (07 R217): SV_CAUSE, SV_ADDR, SV_AUX, SV_BANK and MV_ATST are RO. -/
def saveWordSet (v : SaveSet) (o : Nat) (w : Word) : SaveSet :=
  if o < 4 then { v with pcc := capPutWord v.pcc o w }
  else if o < 8 then { v with granB := capPutWord v.granB (o - 4) w }
  else if o = 8 then { v with st := w &&& statusMask }
  else if o = 12 then { v with prog := w }
  else v

/-- The bits of an S trap mask whose causes are declinable: 0o01 to 0o17, 0o22, 0o27, 0o30 and 0o32 (07 R214, R216). -/
def declinable : Word := 0o541177776

/-- The selected register of BANK_SEL (07 R219): bank, KIND, WORD, REG. -/
def selBank (w : Word) : Nat := bits w 11 8
def selCap (w : Word) : Bool := bit w 7
def selWord (w : Word) : Nat := bits w 6 5
def selReg (w : Word) : Nat := bits w 4 0

/-- The capability register that BANK_SEL names; none outside the file (07 R219). -/
def selGet (x : Seat) (w : Word) : Option Cap :=
  if 8 ≤ selBank w then none
  else
    let b := getBank x (selBank w)
    if selReg w = 16 then some b.pcc else if 1 ≤ selReg w ∧ selReg w < 16 then some (bankC b (selReg w)) else none

/-- Writes the capability register that BANK_SEL names. PCC takes no capability without EX (02 R33; log 89). -/
def selSet (x : Seat) (w : Word) (c : Cap) : Seat :=
  if 8 ≤ selBank w then x
  else modBank x (selBank w) fun b =>
    if selReg w = 16 then { b with pcc := asPcc c } else if selReg w < 16 then bankSetC b (selReg w) c else b

/-- BANK_DATA as read (07 R219). -/
def bankDataRead (x : Seat) : Word :=
  let w := x.bankSel
  if selCap w then ((selGet x w).map fun c => capWordAt c (selWord w)).getD 0
  else if selBank w < 8 then bankW (getBank x (selBank w)) (selReg w) else 0

/-- A write of BANK_DATA (07 R219). -/
def bankDataPut (x : Seat) (v : Word) : Seat :=
  let w := x.bankSel
  if selCap w then
    match selGet x w with
    | some c => selSet x w (capPutWord c (selWord w) v)
    | none => x
  else if selBank w < 8 then modBank x (selBank w) fun b => bankSetW b (selReg w) v else x

/-- A write of BANK_SEL (07 R219): CMD 1 copies the selected capability into c11 of T, CMD 2 the other way. -/
def bankSelPut (x : Seat) (v : Word) : Seat :=
  let w := v &&& 0o7777
  let x := { x with bankSel := w }
  let cmd := bits v 13 12
  if !selCap w then x
  else if cmd = 1 then
    match selGet x w with
    | some c => modBank x 8 fun b => bankSetC b 11 c
    | none => modBank x 8 fun b => bankSetC b 11 capNull
  else if cmd = 2 then selSet x w (bankC (getBank x 8) 11)
  else x

/-- Does the class of a lane run its activations in deterministic mode (06 R206)? -/
def laneDet (s : State) (l : Nat) : Bool :=
  match classOf s l with
  | some k => clDet s k
  | none => false

/-- The bank state codes of 08 R253. -/
def bankCode : BankSt → Nat
  | .free => 0 | .posted => 1 | .running => 2 | .ready => 3 | .blocked => 4 | .stowing => 5 | .restoring => 6

/-- Does the activation in a bank run in deterministic mode (06 R206)? One that has not entered the bank is told by its class,
in the table of its post (18 R515), and one still in its stow area by the mode in which it was stowed. -/
def bankDet (s : State) (x : Seat) (b : Nat) : Bool :=
  let v := getBank x b
  match v.st with
  | .free => false
  | .posted => x.force || laneDet (classesFor s v.old) v.lane.toNat
  | .restoring => x.force || s.lanes.stowed.any fun e => e.lane == v.lane && e.det
  | _ => x.force || (if x.status.bank = b then x.status.det else v.status.det)

/-- ARRAY: does the seat hold an activation in deterministic mode, in a bank that it has entered or stowed (06 R207)? Bank
T counts while it is in use. DEDUCED, log 71. -/
def arrayOn (s : State) (q : Nat) : Bool :=
  let x := getSeat s q
  (x.status.bank == 8 && x.status.det) || (allBanks.any fun b => (getBank x b).st != .posted && bankDet s x b)
    || s.lanes.stowed.any fun e => e.seat == q && (x.force || e.det)

/-- BANK_ACT (08 R257). -/
def bankActWord (s : State) (x : Seat) (b : Nat) : Word :=
  let v := getBank x b
  field 33 (bankCode v.st) ||| flag 32 (v.st != .free && v.role != .none) ||| flag 31 (bankDet s x b)
    ||| field 0 v.lane.toNat

/-- PAIR_ST (08 R268). -/
def pairWord (v : Bank) : Word :=
  let role := match v.role with | .none => 0 | .seatA => 1 | .seatB => 2 | .referee => 3
  if v.st = .free ∨ v.role = .none then 0 else flag 35 true ||| field 33 role ||| field 0 v.partner

/-- Old activations still live (18 R515), saturating: at most one for each lane (08 R249). -/
def oldLive (s : State) : Nat := min 65535 (oldLanes s).dedup.length

/-- CHG_ST (18 R515). -/
def chgWord (s : State) : Word :=
  let b := s.boot
  field 33 b.phase ||| flag 32 b.mhold ||| flag 19 b.keelNew ||| flag 18 b.strokeNew ||| flag 17 b.bowNew
    ||| flag 16 b.impNew ||| field 0 (oldLive s)

/-- PADDLE_ST (16 R461). -/
def paddleWord (p : Power) : Word :=
  flag 35 p.paddle ||| flag 34 p.settleEnd.isSome ||| flag 33 p.throttle ||| field 8 p.crew ||| field 0 (triggerBits p)

/-- The value of a system word (R124). A read of TB_LO captures bits 71 to 36 (R127). -/
def sysRead (s : State) (q n : Nat) : Word × State :=
  let x := getSeat s q
  let k := getBank x (ctxBank x)
  let v := s.sys
  let r := fun w : Word => (w, s)
  if n = 0 then r (seatIdWord q)
  else if n = 0o10 then r (statusWord (liveStatus x))
  else if n = 0o11 then r k.ctx
  else if n = 0o12 then r k.xctx
  else if n = 0o13 then r k.xretPc
  else if n = 0o14 then r k.xretDb
  else if n = 0o15 then r k.ringLink
  else if n = 0o20 then r (flag 5 x.wideOwned ||| field 0 x.wideOwner)
  else if n = 0o40 then (doubleLo s.time, modCur s q fun b => { b with tbHi := doubleHi s.time })
  else if n = 0o41 then r (curBank x).tbHi
  else if inR n 0o100 0o156 then r (saveWord (saveSet x (svIndex n)) (n % 16))
  else if n = 0o160 then r x.strokeC
  else if n = 0o161 then r x.strokeR
  else if n = 0o162 then r x.bowC
  else if n = 0o163 then r x.bowR
  else if n = 0o165 then r x.bankSel
  else if n = 0o166 then r (bankDataRead x)
  else if n = 0o167 then r (field 0 x.residLim)
  else if n = 0o170 then r x.watchBase
  else if n = 0o171 then r x.watchLast
  else if n = 0o172 then r x.watchCtl
  else if n = 0o200 then r (flag 7 x.untimed ||| flag 5 (arrayOn s q) ||| flag 0 x.force)
  else if n = 0o201 then r (field 14 x.stickBase ||| flag 0 x.stickOn)
  else if n = 0o202 then r (field 14 x.codeBase ||| flag 0 x.codeOn)
  else if n = 0o400 then r (field 0 v.sealIndex)
  else if n = 0o401 then r (flag 0 (v.sealIndex == 0 || smGet false v.sealLive v.sealIndex))
  else if n = 0o410 then r (flag 7 v.sealMode ||| flag 5 v.regDone ||| field 0 v.arm)
  else if inR n 0o411 0o420 then r (smGet 0 v.sweepQ (n - 0o411))
  else if n = 0o421 then r (field 0 v.sealVal)
  else if n = 0o430 then r (field 20 v.laneBase ||| flag 0 v.laneLock)
  else if n = 0o440 then r (field 0 v.setAside)
  else if n = 0o441 then r (flag 35 v.hwinOn ||| field 0 v.hbase)
  else if n = 0o450 then r (flag 35 s.galley.dump.isSome ||| field 16 s.galley.dumpGroups ||| field 0 s.galley.dumpK)
  else if n = 0o451 then r s.galley.dumpBase
  else if n = 0o452 then r s.galley.dumpGeo
  else if n = 0o453 then r s.galley.dumpLane
  else if n = 0o460 then r (paddleWord s.power)
  else if n = 0o461 then r (flag 0 s.power.keelT)
  else if n = 0o500 then r (flag 34 v.measLock ||| field 3 v.measWord ||| field 0 v.measReg)
  else if n = 0o501 then r (smGet 0 v.mr (8 * v.measReg + v.measWord))
  else if n = 0o502 then r (chgWord s)
  else if n = 0o510 then r v.ethMode
  else if inR n 0o1000 0o1377 then r (mapBase s (n - 0o1000))
  else if n = 0o1400 then r (flag 1 x.pfWalk ||| flag 0 x.kHint)
  else if n = 0o1401 then r (field 0 (min x.mapsync 262143))
  else if inR n 0o2000 0o2007 then r (bankActWord s x (n - 0o2000))
  else if inR n 0o2010 0o2017 then r (pairWord (getBank x (n - 0o2010)))
  else if n = 0o2400 then r (flag 35 x.sampOn ||| flag 34 x.sampStroke ||| flag 33 x.sampBow ||| field 0 x.sampK)
  else if n = 0o2401 then r (field 0 x.sampLane.toNat)
  else if n = 0o2402 then r (field 0 x.sampSeed)
  else r 0

/-- The granule that SV_XFER selects (07 R218). -/
def xferGet (s : State) (q sel : Nat) : Cap :=
  let x := getSeat s q
  match sel with
  | 0 => x.svStroke.pcc
  | 1 => x.svStroke.granB
  | 2 => x.svBow.pcc
  | 3 => x.svBow.granB
  | 4 => x.svM.pcc
  | 5 => x.svM.granB
  | _ => smGet {} s.sys.vectors sel

/-- Writes the granule that SV_XFER selects (07 R218). -/
def xferSet (s : State) (q sel : Nat) (c : Cap) : State :=
  match sel with
  | 0 => modSeat s q fun x => { x with svStroke := { x.svStroke with pcc := c } }
  | 1 => modSeat s q fun x => { x with svStroke := { x.svStroke with granB := c } }
  | 2 => modSeat s q fun x => { x with svBow := { x.svBow with pcc := c } }
  | 3 => modSeat s q fun x => { x with svBow := { x.svBow with granB := c } }
  | 4 => modSeat s q fun x => { x with svM := { x.svM with pcc := c } }
  | 5 => modSeat s q fun x => { x with svM := { x.svM with granB := c } }
  | _ => { s with sys := { s.sys with vectors := smSet {} s.sys.vectors sel c } }

/-- May SV_XFER be written with this value at the level (07 R218)? -/
def xferAllowed (t : Status) (w : Word) : Bool :=
  let sel := bits w 4 0
  t.lvl == .M || (if t.side then sel == 2 || sel == 3 else decide (sel ≤ 1))

/-- A write of SV_XFER (07 R218). -/
def xferWrite (s : State) (q : Nat) (w : Word) : State :=
  let sel := bits w 4 0
  if 10 < sel then s
  else if bit w 5 then xferSet s q sel (cGet s q 11) else cSet s q 11 (xferGet s q sel)

/-- The trap of a stick copy's first failing word (06 R210). -/
def copyTrap (cause a k : Nat) (write : Bool) : Trap :=
  { cause := cause, addr := field 0 a, aux := field 0 a, fkind := k, write := write, toM := true,
    step := if cause = cFENCE then 8 else 0 }

/-- Why a word of a copy into the seat fails (06 R210). -/
def copyFail (s : State) (a : Nat) : Option Trap :=
  match fenceCheck s (atMReq 0 a 1 false) with
  | .error k => some (copyTrap cFENCE a k false)
  | .ok _ => if poisonedAt s.mem a then some (copyTrap cPOISON a 0 false) else none

/-- What a copy of a window into the seat meets in memory, where the fence admits its reads (10 R321, R322). -/
def copyMeets (s : State) (base : Nat) : State :=
  meetWords s (((List.range 16384).map (base + ·)).filter (copyReads s))

/-- LOAD_DATA: word by word, a failing word arriving as zero with tag 0 (06 R210). BASE must lie in case (R209); from a
window that does not, the copy takes whatever memWord holds there. DESIGN CHOICE, log 72. -/
def loadStick (s : State) (q : Nat) : Option Trap × State :=
  let base := 16384 * (getSeat s q).stickBase
  let s := copyMeets s base
  let bad := (List.range 16384).filterMap fun i => (copyFail s (base + i)).map fun t => (i, t)
  let words := (List.range 16384).foldl (fun m i =>
    if bad.any fun b => b.1 == i then m else smSet 0 m i (memWord s.mem (base + i))) []
  let tags := (List.range 4096).foldl (fun m g =>
    if bad.any fun b => b.1 / 4 == g then m else smSet false m g (memTag s.mem (base + 4 * g))) []
  ((bad.head?).map Prod.snd,
    modSeat s q fun x => { x with stick := words, stickTag := tags, stickOn := true, stickUse := true })

/-- LOAD_CODE (06 R210). The copy takes the words of case where the window is in use in the stick too, although a stale word is
reloaded from the stick (R209). DEDUCED, log 113. -/
def loadCodeStore (s : State) (q : Nat) : Option Trap × State :=
  let base := 16384 * (getSeat s q).codeBase
  let s := copyMeets s base
  let bad := (List.range 16384).filterMap fun i => (copyFail s (base + i)).map fun t => (i, t)
  let words := (List.range 16384).foldl (fun m i =>
    if bad.any fun b => b.1 == i then m else smSet 0 m i (memWord s.mem (base + i))) []
  ((bad.head?).map Prod.snd, modSeat s q fun x => { x with code := words, codeOn := true, stale := [] })

/-- One granule of a SAVE_DATA: written whole when the fence admits it, else word by word (06 R210). -/
def saveGranule (q base : Nat) (r : Option Trap × State) (g : Nat) : Option Trap × State :=
  let (t, s) := r
  let x := getSeat s q
  let a := base + 4 * g
  let ws := smGetList 0 x.stick (4 * g) 4
  let tag := smGet false x.stickTag g
  match fenceCheck s (atMReq 1 a 4 tag) with
  | .ok _ => (t, putGranule s a ws tag)
  | .error _ =>
    (List.range 4).foldl (fun (r : Option Trap × State) i =>
      match fenceCheck r.2 (atMReq 1 (a + i) 1 tag) with
      | .ok _ => (r.1, putGranule r.2 (a + i) [ws.getD i 0] false)
      | .error k => (some (r.1.getD (copyTrap cFENCE (a + i) k true)), r.2)) (t, s)

/-- SAVE_DATA: nothing while no window is bound (06 R210). BOUND stays; the seat's accesses use case from here on (R208).
DEDUCED, log 73. -/
def saveStick (s : State) (q : Nat) : Option Trap × State :=
  let x := getSeat s q
  if x.stickOn then
    let r := (List.range 4096).foldl (saveGranule q (16384 * x.stickBase)) (none, s)
    (r.1, modSeat r.2 q fun x => { x with stickUse := false })
  else (none, s)

/-- A STICK_CMD (06 R210). -/
def stickCommand (s : State) (q cmd : Nat) : Option Trap × State :=
  match cmd with
  | 1 => loadStick s q
  | 2 => saveStick s q
  | 3 => loadCodeStore s q
  | 4 => (none, modSeat s q fun x => { x with stickOn := false, stickUse := false, codeOn := false })
  | _ => (none, s)

/-- Is some lane not CLOSED (09 R279)? The lane unit reads the descriptors that it has written; a refused read makes a lane
FAULTED (R551). -/
def someLaneOpen (s : State) : Bool × State :=
  s.lanes.opened.foldl (fun r e =>
    let (ok, t) := laneReach r.2 e.1 1
    (r.1 || !ok || (laneSt t e.1).state != lsClosed, t)) (!s.lanes.fault.isEmpty, s)

/-- The new descriptor array is zeroed, tags included (09 R279), by writes of the lane unit that the fence checks (R280, R282): a
granule that it refuses is not written, and its lane is marked (R551). -/
def zeroLanes (s : State) : State :=
  match fenceCheck s { cls := 6, dir := 1, p := descAddr s 0, n := 2 ^ 20 } with
  | .ok _ => zeroSpan s (descAddr s 0) (2 ^ 20)
  | .error _ =>
    (List.range 65536).foldl (fun s l => (List.range 4).foldl (fun s g =>
      match laneTouch s l g 1 with
      | (true, s) => zeroSpan s (descAddr s l + 4 * g) 4
      | (false, s) => s) s) s

/-- A write of LANE_BASE (09 R279). -/
def laneBasePut (s : State) (w : Word) : State :=
  let b := bits w 35 20
  if s.sys.laneLock then s
  else
    let moved := decide (b ≠ s.sys.laneBase)
    let (busy, s) := if moved && decide (b ≤ 23) then someLaneOpen s else (decide (23 < b), s)
    if busy then { s with lanes := { s.lanes with refused := s.lanes.refused + 1 } }
    else
      let s := { s with sys := { s.sys with laneBase := b, laneLock := bit w 0 } }
      if moved then zeroLanes { s with lanes := { s.lanes with opened := [] } } else s

/-- A write of CASE_SETASIDE: every eighth whose bit changes is zeroed, tags included (10 R326). -/
def setAsidePut (s : State) (w : Word) : State :=
  let new := bits w 7 0
  let s := (List.range 8).foldl (fun s e =>
    if new.testBit e != s.sys.setAside.testBit e then zeroSpan s (3145728 * e) 3145728 else s) s
  { s with sys := { s.sys with setAside := new } }

/-- Octets as full packed-octet words. -/
def packOctets (os : List Octet) : List Word := (chunks 4 os).map packWord

/-- Words 0 to 7 of measurement register i. -/
def mrWords (s : State) (i : Nat) : List Word := smGetList 0 s.sys.mr (8 * i) 8

/-- MR := SHA-256 of MR and V (18 R507). -/
def extendMr (s : State) (i : Nat) (v : List Octet) : State :=
  let d := sha .sha256 (allOctets (mrWords s i) ++ v)
  { s with sys := { s.sys with mr := smSetList 0 s.sys.mr (8 * i) (packOctets d) } }

/-- A write of MEAS_CMD (18 R507, R508). The quoin as it stood before the write governs EXTEND. -/
def measCmdPut (s : State) (w : Word) : State :=
  let v := s.sys
  let s := { s with sys := { v with measLock := v.measLock || bit w 34, measWord := bits w 5 3, measReg := bits w 2 0 } }
  let ins := smGetList 0 v.measIn 0 8
  if !bit w 35 || (v.measLock && decide (bits w 2 0 ≤ 4)) then s
  else if ins.all fun x => (List.range 4).all (slotPresent x) then extendMr s (bits w 2 0) (allOctets ins)
  else { s with sys := { s.sys with measIgnored := s.sys.measIgnored + 1 } }

/-- Port p. -/
def getPort (s : State) (p : Nat) : Port := smGet {} s.eth.ports p

/-- The state with port p changed. -/
def modPort (s : State) (p : Nat) (f : Port → Port) : State :=
  { s with eth := { s.eth with ports := smSet {} s.eth.ports p (f (getPort s p)) } }

/-- The fields of port p in ETH_MODE: FEC and SPD (19 R534). -/
def ethField (w : Word) (p : Nat) : Nat := bits w (4 * p + 3) (4 * p)

/-- Where a bucket sends a frame: a lane, or none for a drop (09 R306, R307). port is the destination port of a UDP or TCP
frame. -/
def bucketLane (s : State) (b : Nat) (port : Option Nat) : Option Nat :=
  let w0 := smGet 0 s.eth.bucket (2 * b)
  let w1 := smGet 0 s.eth.bucket (2 * b + 1)
  let base := bits w1 31 16
  match bits w0 35 34, port with
  | 1, _ => some (bits w0 15 0)
  | 2, some p =>
    let l := bits w0 15 0 + p - base
    if decide (base ≤ p) && decide (p ≤ base + bits w1 15 0) && decide (l ≤ 65535) then some l else none
  | _, _ => none

/-- The frame that a port is receiving when its link drops is counted under 09 R307 (19 R535): at its bucket, and at its lane
where it has one (R306). Whether there is one, its bucket and its destination port are free values. DESIGN CHOICE, log 109. -/
def dropReception (s : State) (p : Nat) : State :=
  let (n, s) := drawFree s
  let w := Config.openWord n
  let b := bits w 12 1
  if bit w 0 then
    let s := bucketCount s p b
    match bucketLane s b (if bit w 13 then some (bits w 29 14) else none) with
    | some l => laneCount s l 3
    | none => s
  else s

/-- The message that a port is transmitting when its link drops: its credits return, and it counts as an egress refusal,
without a notice (19 R535). Whether it has begun one is a free value; it is that of the lane whose turn it is. DESIGN CHOICE,
log 109. -/
def dropTransmission (s : State) (p : Nat) : State :=
  let (n, s) := drawFree s
  if bit (Config.openWord n) 0 then
    match (servable s p).find? fun e => servesNext s p e.1 e.2 with
    | some e =>
      match hwTake s p e.1 with
      | (some _, s) => unitCount s p 13 1
      | (none, s) => s
    | none => s
  else s

/-- A port's link drops as its fields change (19 R535). -/
def cutLink (s : State) (p : Nat) : State :=
  let s := if (getPort s p).linkUp then dropTransmission (dropReception s p) p else s
  modPort s p fun x => { x with linkUp := false }

/-- A write of ETH_MODE (19 R534, R535): a port whose fields change drops its link. -/
def ethModePut (s : State) (w : Word) : State :=
  let s := (List.range 4).foldl (fun s p => if ethField w p ≠ ethField s.sys.ethMode p then cutLink s p else s) s
  { s with sys := { s.sys with ethMode := w &&& 0o177777 } }

/-- A write of SWEEP_CTL (02 R72, R74). -/
def sweepCtlPut (s : State) (w : Word) : State :=
  let s := { s with sys := { s.sys with sealMode := bit w 7, arm := bits w 3 0 } }
  if bit w 4 then
    let s := { s with sys := { s.sys with regDone := false } }
    (List.range 8).foldl (fun s c => modCox s (3 + c) fun x => { x with passDue := some s.time }) s
  else s

/-- The engine jobs in progress whose key handles were admitted under the live bit of seal 65,535 which seat q replaces: its
SEALSYNC waits for them (02 R67, 12 R373). -/
def sealJobs (s : State) (q : Nat) : State :=
  { s with engines := { s.engines with jobs := s.engines.jobs.map fun j =>
      if j.slots.isEmpty then j else { j with sealWaits := q :: j.sealWaits } } }

/-- A write of SEAL_LIVE by seat q (02 R63, R65, R66); the bit of seal 0 ignores writes. A retirement clears every seat's
predictions under the seal (06 R199, 15 R444). -/
def sealLivePut (s : State) (q : Nat) (w : Word) : State :=
  let v := s.sys.sealIndex
  if v = 0 then s
  else
    let s := if v = 65535 ∧ smGet false s.sys.sealLive v ≠ bit w 0 then sealJobs s q else s
    let s := { s with sys := { s.sys with sealLive := smSet false s.sys.sealLive v (bit w 0) } }
    if bit w 0 then s else (List.range 72).foldl (fun s r => seatCount s r 28) s

/-- A write of SAMP_CTL: a K outside 8 to 24 is ignored whole (15 R447). -/
def sampCtlPut (x : Seat) (w : Word) : Seat :=
  if 8 ≤ bits w 4 0 ∧ bits w 4 0 ≤ 24 then
    { x with sampOn := bit w 35, sampStroke := bit w 34, sampBow := bit w 33, sampK := bits w 4 0 }
  else x

/-- A write of a per-bank word of R83. -/
def ctxPut (s : State) (q n : Nat) (w : Word) : State :=
  modSeat s q fun x => modBank x (ctxBank x) fun k =>
    match n with
    | 0o11 => { k with ctx := mkCtx (bits w 35 20) (bits w 6 0) }
    | 0o12 => { k with xctx := w &&& 0o777774001577 }
    | 0o13 => { k with xretPc := w }
    | 0o14 => { k with xretDb := w }
    | _ => { k with ringLink := w &&& 0o37777 }

/-- What a permitted SYSWR does (R126): the trap that a stick command raises after its copy, and the state. -/
def sysWrite (s : State) (q n : Nat) (w : Word) : Option Trap × State :=
  let seat := fun f : Seat → Seat => ((none : Option Trap), modSeat s q f)
  let sys := fun f : SysWords → SysWords => ((none : Option Trap), { s with sys := f s.sys })
  let gal := fun f : Galley → Galley => ((none : Option Trap), { s with galley := f s.galley })
  if inR n 0o11 0o15 then (none, ctxPut s q n w)
  else if n = 0o20 then seat fun x => { x with wideOwned := bit w 5, wideOwner := bits w 3 0 }
  else if inR n 0o100 0o156 then
    (none, postRise (getSeat s q)
      (modSeat s q fun x => setSaveSet x (svIndex n) (saveWordSet (saveSet x (svIndex n)) (n % 16) w)) q)
  else if n = 0o160 then seat fun x => { x with strokeC := w &&& declinable }
  else if n = 0o161 then seat fun x => { x with strokeR := w &&& declinable }
  else if n = 0o162 then seat fun x => { x with bowC := w &&& declinable }
  else if n = 0o163 then seat fun x => { x with bowR := w &&& declinable }
  else if n = 0o164 then (none, xferWrite s q w)
  else if n = 0o165 then seat fun x => bankSelPut x w
  else if n = 0o166 then seat fun x => bankDataPut x w
  else if n = 0o167 then seat fun x => { x with residLim := bits w 15 0 }
  else if n = 0o170 then seat fun x => { x with watchBase := w }
  else if n = 0o171 then seat fun x => { x with watchLast := w }
  else if n = 0o172 then seat fun x => { x with watchCtl := w &&& 7 }
  else if n = 0o200 then seat fun x => { x with untimed := x.untimed && !bit w 7, force := bit w 0 }
  else if n = 0o201 then seat fun x => if x.stickOn then x else { x with stickBase := bits w 35 14 }
  else if n = 0o202 then seat fun x => if x.codeOn then x else { x with codeBase := bits w 35 14 }
  else if n = 0o203 then stickCommand s q (bits w 2 0)
  else if n = 0o400 then sys fun v => { v with sealIndex := bits w 15 0 }
  else if n = 0o401 then (none, sealLivePut s q w)
  else if n = 0o410 then (none, sweepCtlPut s w)
  else if inR n 0o411 0o420 then sys fun v => { v with sweepQ := smSet 0 v.sweepQ (n - 0o411) w }
  else if n = 0o421 then sys fun v => { v with sealVal := bits w 15 0 }
  else if n = 0o430 then (none, laneBasePut s w)
  else if n = 0o440 then (none, setAsidePut s w)
  else if n = 0o441 then sys fun v => { v with hwinOn := bit w 35, hbase := bits w 27 0 }
  else if n = 0o450 then gal fun v => { v with dumpGroups := bits w 20 16, dumpK := bits w 15 0 }
  else if n = 0o451 then gal fun v => { v with dumpBase := w }
  else if n = 0o452 then gal fun v => { v with dumpGeo := w }
  else if n = 0o453 then gal fun v => { v with dumpLane := w &&& 0o177777 }
  else if n = 0o461 then (none, withPower s fun p => { p with keelT := bit w 0 })
  else if inR n 0o470 0o477 then sys fun v => { v with measIn := smSet 0 v.measIn (n - 0o470) w }
  else if n = 0o500 then (none, measCmdPut s w)
  else if n = 0o510 then (none, ethModePut s w)
  else if inR n 0o1000 0o1377 then
    sys fun v => { v with mapBase := smSet 0 v.mapBase (n - 0o1000) (w &&& 0o777777774000) }
  else if n = 0o1400 then seat fun x => { x with pfWalk := bit w 1, kHint := bit w 0 }
  else if n = 0o2400 then seat fun x => sampCtlPut x w
  else if n = 0o2401 then seat fun x => { x with sampLane := BitVec.ofNat 16 w.toNat }
  else if n = 0o2402 then seat fun x => if bits w 23 0 = 0 then x else { x with sampSeed := bits w 23 0 }
  else (none, s)

/-- The traps of R125: SYSWORD, then RIGHTS without SY in PCC, which records PCC's cursor (07 R214 names no such trap). DESIGN
CHOICE, log 116. -/
def sysFail (s : State) (q n : Nat) (write : Bool) (w : Word) : Option Trap :=
  let t := statusOfSeat s q
  if !sysAllowed t n write || (n == 0o164 && write && !xferAllowed t w) then
    some { cause := cSYSWORD, addr := field 0 n }
  else if !holds (capRights (pccGet s q)) rSY then some { cause := cRIGHTS, addr := (pccGet s q).w0 }
  else none

/-- SYSRD (R125, 05 R179). -/
def sysrdBody (q : Nat) (rd : Reg) (n : Nat) (s : State) : Except (Trap × State) Done :=
  match sysFail s q n false 0 with
  | some t => .error (t, s)
  | none =>
    let (w, s) := sysRead s q n
    done (wSet s q rd.toNat w)

/-- SYSWR (R125, R126, 05 R179). -/
def syswrBody (q : Nat) (ra : Reg) (n : Nat) (s : State) : Except (Trap × State) Done :=
  let w := wGet s q ra.toNat
  match sysFail s q n true w with
  | some t => .error (t, s)
  | none =>
    match sysWrite s q n w with
    | (some t, s) => .error (t, s)
    | (none, s) => done s

/-- SYSRD (R179). -/
def execSysrd (q : SeatNo) (rd : Reg) (sw : BitVec 12) (s : State) : Out State :=
  seatRun q (.sysrd q rd sw) anyMode (sysrdBody q.val rd sw.toNat) s

/-- SYSWR (R179). -/
def execSyswr (q : SeatNo) (ra : Reg) (sw : BitVec 12) (s : State) : Out State :=
  seatRun q (.syswr q ra sw) anyMode (syswrBody q.val ra sw.toNat) s

/-- TB_LO_READ: the SYSRD of TB_LO (R127). -/
def execTbLoRead (q : SeatNo) (rd : Reg) (s : State) : Out State :=
  seatRun q (.tbLoRead q rd) anyMode (sysrdBody q.val rd 0o40) s

/-- A row that is the SYSWR of word n with a value that meets a test; the command is another one otherwise, and the state
stays as it is (log 11). -/
def sysRow (q : SeatNo) (i : Instr) (ra : Reg) (n : Nat) (test : State → Word → Bool) (s : State) : Out State :=
  if test s (wGet s q.val ra.toNat) then seatRun q i anyMode (syswrBody q.val ra n) s else .next s

/-- SEAL_LIVE_WRITE (02 R65, R66). -/
def execSealLiveWrite (q : SeatNo) (ra : Reg) (s : State) : Out State :=
  sysRow q (.sealLiveWrite q ra) ra 0o401 (fun _ _ => true) s
/-- REGPASS: a write of 1 to REGPASS (02 R74). -/
def execRegpass (q : SeatNo) (ra : Reg) (s : State) : Out State :=
  sysRow q (.regpass q ra) ra 0o410 (fun _ w => bit w 4) s
/-- SV_XFER_LOAD: a granule to c11 (07 R218). -/
def execSvXferLoad (q : SeatNo) (ra : Reg) (s : State) : Out State :=
  sysRow q (.svXferLoad q ra) ra 0o164 (fun _ w => !bit w 5) s
/-- SV_XFER_STORE: c11 to a granule (07 R218). -/
def execSvXferStore (q : SeatNo) (ra : Reg) (s : State) : Out State :=
  sysRow q (.svXferStore q ra) ra 0o164 (fun _ w => bit w 5) s
/-- BANK_SEL_FETCH: CMD 1 (07 R219). -/
def execBankSelFetch (q : SeatNo) (ra : Reg) (s : State) : Out State :=
  sysRow q (.bankSelFetch q ra) ra 0o165 (fun _ w => bits w 13 12 == 1) s
/-- BANK_SEL_PLACE: CMD 2 (07 R219). -/
def execBankSelPlace (q : SeatNo) (ra : Reg) (s : State) : Out State :=
  sysRow q (.bankSelPlace q ra) ra 0o165 (fun _ w => bits w 13 12 == 2) s
/-- BANK_DATA_WRITE (07 R219). -/
def execBankDataWrite (q : SeatNo) (ra : Reg) (s : State) : Out State :=
  sysRow q (.bankDataWrite q ra) ra 0o166 (fun _ _ => true) s
/-- LOAD_DATA: CMD 1 (06 R210). -/
def execLoadData (q : SeatNo) (ra : Reg) (s : State) : Out State :=
  sysRow q (.loadData q ra) ra 0o203 (fun _ w => bits w 2 0 == 1) s
/-- SAVE_DATA: CMD 2 (06 R210). -/
def execSaveData (q : SeatNo) (ra : Reg) (s : State) : Out State :=
  sysRow q (.saveData q ra) ra 0o203 (fun _ w => bits w 2 0 == 2) s
/-- LOAD_CODE: CMD 3 (06 R210). -/
def execLoadCode (q : SeatNo) (ra : Reg) (s : State) : Out State :=
  sysRow q (.loadCode q ra) ra 0o203 (fun _ w => bits w 2 0 == 3) s
/-- RELEASE: CMD 4 (06 R210). -/
def execRelease (q : SeatNo) (ra : Reg) (s : State) : Out State :=
  sysRow q (.release q ra) ra 0o203 (fun _ w => bits w 2 0 == 4) s
/-- LANE_BASE_WRITE (09 R279). -/
def execLaneBaseWrite (q : SeatNo) (ra : Reg) (s : State) : Out State :=
  sysRow q (.laneBaseWrite q ra) ra 0o430 (fun _ _ => true) s
/-- SETASIDE_SET: a write that sets a bit of EIGHTHS (10 R326). -/
def execSetasideSet (q : SeatNo) (ra : Reg) (s : State) : Out State :=
  sysRow q (.setasideSet q ra) ra 0o440
    (fun s w => (List.range 8).any fun e => (bits w 7 0).testBit e && !s.sys.setAside.testBit e) s
/-- SETASIDE_CLEAR: a write that clears a bit of EIGHTHS (10 R326). -/
def execSetasideClear (q : SeatNo) (ra : Reg) (s : State) : Out State :=
  sysRow q (.setasideClear q ra) ra 0o440
    (fun s w => (List.range 8).any fun e => !(bits w 7 0).testBit e && s.sys.setAside.testBit e) s
/-- PADDLE_REQ (16 R461). -/
def execPaddleReq (q : SeatNo) (ra : Reg) (s : State) : Out State :=
  sysRow q (.paddleReq q ra) ra 0o461 (fun _ _ => true) s
/-- MEAS_EXTEND: a write of MEAS_CMD with EXTEND (18 R507). -/
def execMeasExtend (q : SeatNo) (ra : Reg) (s : State) : Out State :=
  sysRow q (.measExtend q ra) ra 0o500 (fun _ w => bit w 35) s
/-- ETH_MODE_WRITE (19 R534, R535). -/
def execEthModeWrite (q : SeatNo) (ra : Reg) (s : State) : Out State :=
  sysRow q (.ethModeWrite q ra) ra 0o510 (fun _ _ => true) s

/-- UNASSIGNED_OPCODE (R130, R137, R138): a word whose decode fails raises ILLEGAL or ATTACHED; a word that is an
instruction is no such command, and the state stays as it is (log 11). -/
def execUnassignedOpcode (q : SeatNo) (word next : Word) (s : State) : Out State :=
  match decodeSeat q word next with
  | .ok _ => .next s
  | .error cause =>
    let len := if word.extractLsb' 29 7 = 0o030 then 2 else 1
    let ring := inRing s q.val
    let cause := if ring then cILLEGAL else cause
    .next (seatInstr q.val word len true anyMode (fun s => .error (trapHere s q.val cause word, s)) s)

end Sys2Proof.Machine
end

