-- ==== Sys2Proof/Machine/Ethernet.lean ====
section
/-! DEFINITION. The Ethernet ports (09 R305 to R311, R553, 19 R533 to R535): steering of received frames, egress, table
switch, imbalance, links. -/

namespace Sys2Proof.Machine

/-- Octet i of a frame. -/
def octAt (os : List Octet) (i : Nat) : Nat := (os.getD i 0).toNat

/-- The 16-bit field at octet i. -/
def be16 (os : List Octet) (i : Nat) : Nat := octAt os i * 256 + octAt os (i + 1)

/-- n octets from octet i. -/
def slice (os : List Octet) (i n : Nat) : List Octet := (os.drop i).take n

/-- How a port classifies a frame (R305). l3 and l4 are the offsets of the IP header and of what follows it. -/
structure FrameInfo where
  tagged : Bool
  tci    : Nat
  ty     : Nat
  l3     : Nat
  l4     : Nat
  ipv4   : Bool
  ipv6   : Bool
  proto  : Nat
  frag   : Bool
  udp    : Bool
  tcp    : Bool
deriving DecidableEq, Repr

/-- The classification of R305. -/
def classify (os : List Octet) : FrameInfo :=
  let tagged := be16 os 12 == 0x8100
  let ty := if tagged then be16 os 16 else be16 os 12
  let l3 := if tagged then 18 else 14
  let ihl := octAt os l3 % 16
  let v4 := ty == 0x0800 && octAt os l3 / 16 == 4 && decide (5 ≤ ihl) && decide (l3 + 4 * ihl ≤ os.length)
  let v6 := ty == 0x86DD && octAt os l3 / 16 == 6 && decide (l3 + 40 ≤ os.length)
  let proto := if v4 then octAt os (l3 + 9) else octAt os (l3 + 6)
  let frag := if v4 then be16 os (l3 + 6) % 0x4000 != 0 else v6 && proto == 44
  let l4 := if v4 then l3 + 4 * ihl else l3 + 40
  let ports := (v4 || v6) && !frag && decide (l4 + 4 ≤ os.length)
  { tagged := tagged, tci := if tagged then be16 os 14 else 0, ty := ty, l3 := l3, l4 := l4, ipv4 := v4, ipv6 := v6,
    proto := proto, frag := frag, udp := ports && proto == 17, tcp := ports && proto == 6 }

/-- Source and destination address, in that order. -/
def ipAddrs (os : List Octet) (i : FrameInfo) : List Octet × List Octet :=
  if i.ipv4 then (slice os (i.l3 + 12) 4, slice os (i.l3 + 16) 4) else (slice os (i.l3 + 8) 16, slice os (i.l3 + 24) 16)

/-- The flow octets (R305). -/
def flowOctets (os : List Octet) (i : FrameInfo) : List Octet :=
  let a := ipAddrs os i
  let base :=
    if i.udp || i.tcp then a.1 ++ a.2 ++ slice os i.l4 4 ++ [BitVec.ofNat 8 i.proto]
    else if i.ipv4 || i.ipv6 then a.1 ++ a.2 ++ [BitVec.ofNat 8 i.proto]
    else slice os 6 6 ++ beOctets 2 i.ty
  if i.tagged then base ++ beOctets 2 (i.tci % 4096) else base

/-- The bucket: bits 11-0 of SipHash-2-4 under the steering key (R305). -/
def bucketOf (s : State) (os : List Octet) : Nat := (sipHash s.eth.steerKey (flowOctets os (classify os))).toNat % 4096

/-- The ones' complement sum of 16-bit words. -/
def sum16 (os : List Octet) : Nat :=
  let n := ((chunks 2 os).map fun p => (p.headD 0).toNat * 256 + (p.getD 1 0).toNat).foldl (· + ·) 0
  let n := n % 65536 + n / 65536
  n % 65536 + n / 65536

/-- Bit 1 of header word 5: the IPv4 header checksum is correct (R308). -/
def ipSumOk (os : List Octet) (i : FrameInfo) : Bool := i.ipv4 && sum16 (slice os i.l3 (i.l4 - i.l3)) == 65535

/-- Bit 0 of header word 5: a UDP or TCP checksum is present and correct over the whole datagram (R308). -/
def portSumOk (os : List Octet) (i : FrameInfo) : Bool :=
  let a := ipAddrs os i
  let room := if i.ipv4 then be16 os (i.l3 + 2) - (i.l4 - i.l3) else be16 os (i.l3 + 4)
  let n := if i.udp then be16 os (i.l4 + 4) else room
  let pseudo := a.1 ++ a.2 ++ beOctets 4 n ++ beOctets 4 i.proto
  let whole := decide (n ≤ room) && decide (i.l4 + n ≤ os.length) && sum16 (pseudo ++ slice os i.l4 n) == 65535
  if i.udp then decide (8 ≤ n) && be16 os (i.l4 + 6) != 0 && whole else i.tcp && decide (20 ≤ n) && whole

/-- The offset of the UDP or TCP payload; 0 where none was parsed: the header must lie within the frame (R308). -/
def payloadOffset (os : List Octet) (i : FrameInfo) : Nat :=
  let o := if i.udp then i.l4 + 8 else if i.tcp && decide (i.l4 + 13 ≤ os.length) then i.l4 + 4 * (octAt os (i.l4 + 12) / 16) else 0
  if i.tcp && decide (o < i.l4 + 20) then 0 else if o ≤ os.length then o else 0

/-- The ingress message of a frame (R308). -/
def ingressWords (s : State) (p b : Nat) (os : List Octet) : List Word :=
  let i := classify os
  [doubleLo s.time, doubleHi s.time, field 34 p ||| field 22 b ||| field 0 os.length,
   flag 16 i.tagged ||| field 0 i.tci, field 0 (payloadOffset os i),
   flag 5 i.ipv4 ||| flag 4 i.ipv6 ||| flag 3 i.udp ||| flag 2 i.tcp ||| flag 1 (ipSumOk os i)
     ||| flag 0 (portSumOk os i), 0, 0] ++ seqWords os

/-- Where the bucket of a frame sends it (R306, R307). -/
def steerLane (s : State) (b : Nat) (i : FrameInfo) (os : List Octet) : Option Nat :=
  bucketLane s b (if i.udp || i.tcp then some (be16 os (i.l4 + 2)) else none)

/-- A frame of a bucket in the 1 ms window (R311). -/
def countWindow (s : State) (p b : Nat) : State :=
  let w := s.time / 1000000
  modPort s p fun x =>
    let x := if x.window = w then x else { x with window := w, counts := [], raised := [] }
    { x with counts := smSet 0 x.counts b (smGet 0 x.counts b + 1) }

/-- A frame steered to lane l: put, or dropped and counted (R307, R308). A put that the lane unit refuses under R289 after
order 1 has counted its reject already; one that the fence does not let it reserve has not (R298, R551). A frame whose
reservation stands, and whose message is then broken at commit (R552), is no drop. -/
def steerTo (s : State) (p b l : Nat) (os : List Octet) : State :=
  match (classOf s l).filter fun k => clKind s k == 0, laneReach s l 1 with
  | some k, (true, s) =>
    let x := laneSt s l
    let ws := ingressWords s p b os
    let counted := x.state == lsOpen && admitPut s k x ws.length != stOK
    let (st, s) := putLane s l ws
    if st = stOK ∨ (laneSt s l).resv ≠ x.resv then s
    else
      let s := bucketCount s p b
      if counted then s else laneCount s l 3
  | some _, (false, s) => laneCount (bucketCount s p b) l 3
  | none, _ => laneCount (bucketCount s p b) l 3

/-- Is the frame a datagram of the UDP mirror (17 R484)? -/
def mirrorFrame (s : State) (os : List Octet) : Bool :=
  let i := classify os
  let on := entryValue s 0x1105 1 [0] == [1]
  on && i.udp && (ipAddrs os i).2 == mirrorAddress s i.ipv4 && be16 os (i.l4 + 2) == beNat (mirrorPort s)

/-- Does the port work: the module is in operation and the link is up? -/
def portUp (s : State) (p : Nat) : Bool :=
  s.pins.porN && !dark s.power && s.boot.done && (getPort s p).linkUp

/-- The steering table at this instant: a requested switch whose boundary of crew T has come has taken place (R310). -/
def steeringNow (s : State) : State :=
  match s.eth.switchReq with
  | none => s
  | some t =>
    let n := strokeNs (getCox s 0)
    if t / n < s.time / n then
      { s with eth := { s.eth with bucket := s.eth.bucketSb, bucketSb := s.eth.bucket, switchReq := none } }
    else s

/-- A received frame (R305 to R308), steered by the table that is active at its arrival stamp (R310). -/
def receive (s : State) (p : Nat) (os : List Octet) (fcsGood : Bool) : State :=
  let s := unitCount (steeringNow s) p 8 1
  if !fcsGood then unitCount s p 9 1
  else if os.length < 60 then unitCount s p 11 1
  else if 9216 < os.length then unitCount s p 10 1
  else if mirrorFrame s os then s
  else
    let b := bucketOf s os
    let s := countWindow s p b
    match steerLane s b (classify os) os with
    | none => bucketCount s p b
    | some l => steerTo s p b l os

/-- FRAME_RECEIVE (R305 to R308). Mirror traffic is not steered (17 R484): MIRROR_DATAGRAM delivers it. -/
def execFrameReceive (p : PortNo) (octets : List Octet) (fcsGood : Bool) (s : State) : Out State :=
  .next (if portUp s p.val then receive s p.val octets fcsGood else s)

/-- The PTP event message that a frame carries: its offset (19 R533, IEEE 1588: over UDP port 319 or EtherType 0x88F7, message
types 0 to 3). PRESUMED, log 35. -/
def ptpOffset (os : List Octet) : Option Nat :=
  let i := classify os
  let o := if i.udp && be16 os (i.l4 + 2) == 319 then some (i.l4 + 8) else if i.ty = 0x88F7 then some i.l3 else none
  o.filter fun o => decide (octAt os o % 16 ≤ 3) && decide (o + 34 ≤ os.length)

/-- The octets on the wire: padded to 60, and the FCS after them, least significant octet first (R309, IEEE 802.3; log 35). -/
def wireOctets (os : List Octet) : List Octet :=
  let padded := os ++ List.replicate (60 - os.length) 0
  padded ++ (beOctets 4 (crc crc32 padded)).reverse

/-- A frame leaves a port (R309); PTP event messages are stamped (19 R533, 17 R487). -/
def sendOut (s : State) (p : Nat) (os : List Octet) : State :=
  let wire := wireOctets os
  let on := (beNat (entryValue s 0x1206 0 [15])).testBit p
  let s := unitCount s p 12 1
  match ptpOffset os with
  | some o =>
    modPort s p fun x =>
      if on then { x with sent := wire :: x.sent, ptpStamp := s.time, ptpSeq := be16 os (o + 30) }
      else { x with sent := wire :: x.sent }
  | none => modPort s p fun x => { x with sent := wire :: x.sent }

/-- The octets of an egress message; none where a word is gapped or empty (R309, 00 R7). -/
def egressOctets (ws : List Word) : Option (List Octet) :=
  if ws.all fun w => prefixForm w && w != 0 then some (ws.flatMap presentOctets) else none

/-- FRAME_TRANSMIT (R309, R553): the port takes the message at HEAD of the egress lane whose turn it is; a lane out of its turn
keeps its message. A malformed message is refused with a notice. -/
def execFrameTransmit (p : PortNo) (lane : LaneNo) (s : State) : Out State :=
  let l := lane.toNat
  let egress := match classOf s l with
    | some k => clKind s k == 1
    | none => false
  if !portUp s p.val || !egress then .next s
  else match hwTake s p.val l with
  | (none, s) => .next s
  | (some m, s) =>
    match egressOctets m.words with
    | some os =>
      if os.length ≤ 9216 then .next (sendOut s p.val os)
      else .next (refused m l s)
    | none => .next (refused m l s)
where
  refused (m : Msg) (l : Nat) (s : State) : State :=
    unitCount (notice s l { status := stBadDescriptor, sq := some m.sq, len := m.words.length, copied := m.words,
                            who := p.val }) p.val 13 1

/-- STEERING_SWITCH (R310): the copies swap at crew T's next stroke boundary. -/
def execSteeringSwitch (s : State) : Out State := .next (if moduleRuns s then steeringNow s else s)

/-- The imbalance limit of a port (17 R487, 0x4012). -/
def imbalanceLimit (s : State) (p : Nat) : Nat := beNat (entryValue s 0x4012 (p + 1) (beOctets 3 65535))

/-- IMBALANCE_EVENT (R311, 17 R492): one event for a bucket over its limit in the window that runs, with the port, the bucket
and the count, in the event log and on the event lane. -/
def execImbalanceEvent (p : PortNo) (bucket : BitVec 12) (s : State) : Out State :=
  let x := getPort s p.val
  let b := bucket.toNat
  if moduleRuns s ∧ x.window = s.time / 1000000 ∧ imbalanceLimit s p.val < smGet 0 x.counts b ∧ smGet false x.raised b = false then
    let s := modPort s p.val fun x => { x with raised := smSet false x.raised b true }
    let n := smGet 0 x.counts b
    let s := logEntry 6 (unitSource p.val) ((List.range 20).map fun i => Config.imbalanceOctet b n (12 + i))
      (unitCount s p.val 14 1)
    .next (eventMessage s 0 [p.val, b, n])
  else .next s

/-- The speed of a port: 0 and 3 are off (19 R534). -/
def portSpeed (s : State) (p : Nat) : Nat := ethField s.sys.ethMode p % 4

/-- LINK_UP (19 R535). -/
def execLinkUp (p : PortNo) (s : State) : Out State :=
  if moduleRuns s && (portSpeed s p.val == 1 || portSpeed s p.val == 2) then
    .next (modPort s p.val fun x => { x with linkUp := true })
  else .next s

/-- LINK_LOSS (19 R535). -/
def execLinkLoss (p : PortNo) (s : State) : Out State := .next (modPort s p.val fun x => { x with linkUp := false })

end Sys2Proof.Machine
end

