-- ==== Sys2Proof/Machine/LaneEvents.lean ====
section
/-! DEFINITION. Host puts (09 R312), held messages (R292), lane deadlines (R299 to R301), a host read that times out
(10 R341, 19 R537). -/

namespace Sys2Proof.Machine

/-- A little-endian 32-bit field. -/
def le32 (os : List Octet) (i : Nat) : Nat := leNat (slice os i 4)

/-- The n words of a host message, read through the host window in the engines class (R312, 10 R340, 11 R353): the words, or
the status of the result and the state. readable is false when the read ends in an error. A message that does not lie in
the window cannot be read. DESIGN CHOICE, log 82. -/
def hostMessage (s : State) (a n : Nat) (readable : Bool) : Except (Nat × State) (List Word × State) :=
  if n = 0 then .ok ([], s)
  else match hostWindowWord s a with
  | none => .error (stBroken, s)
  | some p =>
    if 0o400000000000 < p + n then .error (stBroken, s)
    else match fenceUnit s { cls := 6, dir := 0, p := p, n := n } 0o203 with
    | .error s => .error (stFence, s)
    | .ok _ => if readable && hostUp s then .ok (hostWords n s p) else .error (stBroken, s)

/-- The put of a host message (R312): the status and the state. A message that cannot be read makes the put broken (R286, 10
R341). -/
def hostPutStatus (s : State) (l n a : Nat) (readable : Bool) : Nat × State :=
  match classOf s l with
  | none => (stBadDescriptor, s)
  | some k =>
    if !clHost s k || !(clKind s k == 0 || clKind s k == 2) then (stBadDescriptor, s)
    else match hostMessage s a n readable with
    | .ok (ws, s) => putLane s l ws
    | .error (st, s) =>
      match putBroken s l (List.replicate n 0) stBroken with
      | (0, s) => (st, s)
      | r => r

/-- The result of a host put, 4 octets through the host window (R312); one that cannot be written is discarded. -/
def hostResult (s : State) (a v : Nat) : State :=
  match hostWindowWord s a with
  | none => ignoreWrite s
  | some p =>
    match unitStore s 6 0o203 p [packWord (beOctets 4 v).reverse] with
    | .ok s => s
    | .error s => s

/-- A put record (R312). -/
def hostPut (s : State) (r : List Octet) (readable : Bool) : State :=
  if r.length ≠ 16 then { s with pins := { s.pins with barIgnored := s.pins.barIgnored + 1 } }
  else
    let l := le32 r 0 % 65536
    let n := le32 r 0 / 65536 % 8192
    let hi := 2 ^ 32 * le32 r 8
    let (st, s) := hostPutStatus s l n (hi + le32 r 4) readable
    hostResult s (hi + le32 r 12) (2 ^ 26 * st + l)

/-- May the host's writes reach the module (19 R539)? -/
def hostReaches (s : State) : Bool := s.pins.porN && !dark s.power && s.pins.pcieUp

/-- HOST_PUT (R312). -/
def execHostPut (record : List Octet) (s : State) : Out State :=
  if hostReaches s && s.boot.done then .next (hostPut s record true) else .next s

/-- A held message has gone: its channel's descriptor is done with, or its seat's sample record is written (15 R444, R449). -/
def heldGone (s : State) (h : Held) : State :=
  match h.channel with
  | some ch => chanCommitted s ch
  | none =>
    if h.unit = 0o200 ∧ h.words.length = 16 then seatCount s (bits (h.words.getD 10 0) 6 0) 161 else s

/-- Offers the held messages of a lane again, in order, until one is refused for credit (R292). -/
def retryHeld (l : Nat) : List Held → State → List Held × State
  | [], s => ([], s)
  | h :: hs, s =>
    if h.lane.toNat = l then
      match putLane s l h.words with
      | (0, s) => retryHeld l hs (heldGone s h)
      | (_, s) => (h :: hs, s)
    else
      let (kept, s) := retryHeld l hs s
      (h :: kept, s)

/-- HELD_MESSAGE_RETRY (R292): what hardware producers hold for the lane is put again. -/
def execHeldMessageRetry (lane : LaneNo) (s : State) : Out State :=
  let l := lane.toNat
  if moduleRuns s && s.lanes.held.any fun h => h.lane == lane then
    let (kept, s) := retryHeld l s.lanes.held { s with lanes := { s.lanes with held := [] } }
    .next { s with lanes := { s.lanes with held := kept ++ s.lanes.held } }
  else .next s

/-- LANE_TIMEOUT (R299 to R301): the settle window of an armed deadline that was not met has closed, whatever STATE. -/
def execLaneTimeout (lane : LaneNo) (s : State) : Out State :=
  let l := lane.toNat
  if moduleRuns s && (classOf s l).isSome && (laneSt s l).armed && decide (laneDeadline s l + 200 ≤ s.time) then
    match reachAll s l [(1, 0), (3, 0), (1, 1), (3, 1)] with
    | (false, s) => .next s
    | (true, s) =>
      let t := setDeadline (setLane s l { laneSt s l with armed := false, tof := true }) l 0
      .next (pendRise s (laneEvent (laneCount t l 2) l false) l)
  else .next s

end Sys2Proof.Machine
end

