-- ==== Sys2Proof/Machine/MemInstr.lean ====
section
/-! DEFINITION. Loads and stores (05 R151, R182), multiple and block transfers (05 R152 to R159), and STC to the fence
block (11 R356). -/

namespace Sys2Proof.Machine

/-- A register that two results of one instruction reach in no stated order holds a free value: a ring-mode load whose
destination is its own updated base (log 13). -/
def ringClash (s : State) (q : Nat) (m : MemOp) (regs : List Nat) : State :=
  if inRing s q && m.updates && m.ca.toNat != 0 && regs.contains m.ca.toNat then
    let (n, s) := drawFree s
    wSet s q m.ca.toNat (Config.openWord n)
  else s

/-- A load of n words into registers (R151): put writes them; the base moves when the access completes. -/
def loadInstr (q : SeatNo) (i : Instr) (m : MemOp) (n align : Nat) (regs : List Nat) (permitted : Status → Bool)
    (put : State → Passed → State) (s : State) : Out State :=
  seatRun q i permitted
    (fun s =>
      let a := memAccess s q.val m n align rRD false
      match accessAll q.val [a] s with
      | .error e => .error e
      | .ok p => .ok { st := ringClash (put (memUpdate p.st q.val m n) p) q.val m regs, acc := true, ea := a.word, pa := p.pa 0 }) s

/-- A data store of words (R151): it clears the tags of the granules written. -/
def storeInstr (q : SeatNo) (i : Instr) (m : MemOp) (n align : Nat) (permitted : Status → Bool)
    (words : State → List Word) (s : State) : Out State :=
  seatRun q i permitted
    (fun s =>
      let a := memAccess s q.val m n align rWR true
      match accessAll q.val [a] s with
      | .error e => .error e
      | .ok p => .ok { st := memUpdate (storeRuns p q.val 0 (words s)) q.val m n, acc := true, ea := a.word, pa := p.pa 0 }) s

/-- The first data of a checked load. -/
def Passed.words (p : Passed) : List Word := p.data.getD 0 []

/-- Word k of a checked load. -/
def Passed.word (p : Passed) (k : Nat) : Word := p.words.getD k 0

/-- LDW (R151). -/
def execLdw (q : SeatNo) (rd : Reg) (m : MemOp) (s : State) : Out State :=
  loadInstr q (.ldw q rd m) m 1 1 [rd.toNat] anyMode (fun s p => wSet s q.val rd.toNat (p.word 0)) s

/-- STW (R151). -/
def execStw (q : SeatNo) (rd : Reg) (m : MemOp) (s : State) : Out State :=
  storeInstr q (.stw q rd m) m 1 1 anyMode (fun s => [wGet s q.val rd.toNat]) s

/-- LDD (R147, R151). -/
def execLdd (q : SeatNo) (rd : Reg) (m : MemOp) (s : State) : Out State :=
  loadInstr q (.ldd q rd m) m 2 2 [rd.toNat, rd.toNat + 1] anyMode
    (fun s p => pairSet s q.val rd.toNat (p.word 0) (p.word 1)) s

/-- STD (R147, R151). At M to a counter double it clears WRAP (15 R441). -/
def execStd (q : SeatNo) (rd : Reg) (m : MemOp) (s : State) : Out State :=
  seatRun q (.std q rd m) anyMode
    (fun s =>
      let a := memAccess s q.val m 2 2 rWR true
      let ws := pairGet s q.val rd.toNat
      match accessAll q.val [a] s with
      | .error e => .error e
      | .ok p =>
        let counter := isSystem (p.pa 0) && decide (counterBase ≤ p.pa 0) && levelOf s q.val == .M
        let s := if counter then counterW1c p.st (p.pa 0 - counterBase) (ws.getD 1 0) else storeRuns p q.val 0 ws
        .ok { st := memUpdate s q.val m 2, acc := true, ea := a.word, pa := p.pa 0 }) s

/-- Does a capability match an armed range of the sweep filter (02 R73)? -/
def sweepHit (s : State) (c : Cap) : Bool :=
  (List.range 4).any fun n =>
    s.sys.arm.testBit n
      && rangeMatch (smGet 0 s.sys.sweepQ (2 * n)).toNat (smGet 0 s.sys.sweepQ (2 * n + 1)).toNat c

/-- What an LDC returns (02 R37, R73): the tag passes only with RC, C and TAGCAP and outside the sweep filter. -/
def loadedCap (s : State) (auth : Cap) (p : Passed) : Cap :=
  let c : Cap := { w0 := p.word 0, w1 := p.word 1, w2 := p.word 2, w3 := p.word 3, tag := true }
  { c with tag := p.tags.getD 0 false && p.tagOk.getD 0 false && holds (capRights auth) rRC && !sweepHit s c }

/-- LDC (R151, 02 R37). -/
def execLdc (q : SeatNo) (rd : Reg) (m : MemOp) (s : State) : Out State :=
  loadInstr q (.ldc q rd m) m 4 4 [] noRing
    (fun s' p => cSet s' q.val rd.toNat (loadedCap s' (memAuth s q.val m) p)) s

/-- Stores a granule at its physical address: an untagged one that covers a fence descriptor installs it (11 R356). -/
def storeGranule (s : State) (q a : Nat) (c : Cap) : State :=
  if isFenceBlock a && decide (a - 0o200000000 < 512) && !c.tag && !inStick (getSeat s q) a then
    fenceInstall s q ((a - 0o200000000) / 4) (capWords c)
  else seatPut s q a (capWords c) true c.tag

/-- The access of an STC (02 R39). -/
def stcAccess (s : State) (q : Nat) (rd : Reg) (m : MemOp) : Access :=
  let c := cGet s q rd.toNat
  { memAccess s q m 4 4 rWR true with tagged := c.tag, local_ := !capGlobal c }

/-- What an STC does after its decode (R151, 02 R37 to R39, 11 R356). -/
def stcBody (q : Nat) (rd : Reg) (m : MemOp) (s : State) : Except (Trap × State) Done :=
  let a := stcAccess s q rd m
  match accessAll q [a] s with
  | .error e => .error e
  | .ok p => .ok { st := memUpdate (storeGranule p.st q (p.pa 0) (cGet s q rd.toNat)) q m 4, acc := true, ea := a.word, pa := p.pa 0 }

/-- STC (R151). -/
def execStc (q : SeatNo) (rd : Reg) (m : MemOp) (s : State) : Out State :=
  seatRun q (.stc q rd m) noRing (stcBody q.val rd m) s

/-- FENCE_DESCRIPTOR_WRITE (11 R356): an STC whose granule is a fence descriptor; the same instruction as STC. -/
def execFenceDescriptorWrite (q : SeatNo) (rd : Reg) (m : MemOp) (s : State) : Out State :=
  seatRun q (.fenceDescriptorWrite q rd m) noRing (stcBody q.val rd m) s

/-- Words stored so far into one granule and not yet performed: a store that covers a whole granule is one action of four
words (02 R40, 10 R322). -/
structure Gather where
  st   : State
  pend : List (Nat × Word)

/-- Performs the pending words of a granule. -/
def gatherFlush (q : Nat) (g : Gather) : State :=
  let ks := (List.range 4).filterMap fun i => g.pend.find? fun e => e.1 % 4 == i
  match ks with
  | [] => g.st
  | e :: _ => seatPut g.st q e.1 (ks.map Prod.snd) false false

/-- Is the access that begins a run one to side-effect space: a page with SE, or a region whose ordering is strict (06 R197, 10
R317)? -/
def strictRun (s : State) (q : Nat) (dir : Nat) (r : Run) : Bool :=
  let x := getSeat s q
  !inStick x r.pa && ((r.e.map fun e => bit e.entry 7).getD false
    || match fenceCheck s (seatReq x.status dir r.pa 1 false) with
      | .ok g => g.order == 2
      | .error _ => false)

/-- Does access i of a checked instruction go to side-effect space? -/
def Passed.strict (p : Passed) (q i dir : Nat) : Bool := (p.runs.getD i []).any (strictRun p.st q dir)

/-- One more stored word; one to side-effect space is performed at once, after every earlier one (06 R197, R205). -/
def gatherPut (q : Nat) (g : Gather) (a : Nat) (w : Word) (strict : Bool) : Gather :=
  if strict then { st := seatPut (gatherFlush q g) q a [w] false false, pend := [] }
  else match g.pend with
  | [] => { g with pend := [(a, w)] }
  | e :: _ =>
    if e.1 / 4 = a / 4 then { g with pend := (a, w) :: g.pend.filter fun y => y.1 != a }
    else { st := gatherFlush q g, pend := [(a, w)] }

/-- SV_PROG with VALID (R157). -/
def progWord (rest : Nat) : Word := flag 35 true ||| field 0 (rest % 2 ^ 35)

/-- The registers a mask selects, ascending (R152). -/
def maskRegs (w : Word) : List Nat := (List.range 32).filter fun r => r != 0 && bit w r

/-- A mask of registers, as R157 records it. -/
def regsMask (rs : List Nat) : Nat := rs.foldl (fun n r => n + 2 ^ r) 0

/-- What is still to do of an LDM or STM: the recorded remaining mask when VALID, else all of it (R159). -/
def maskLeft (s : State) (q : Nat) (all : List Nat) : List Nat :=
  let p := (curBank (getSeat s q)).progress
  if bit p 35 then all.filter fun r => bit p r else all

/-- The loads of an LDM, register by register with its offset from ea (R54, R152); tail is left for later (R158). -/
def ldmLoop (q : Nat) (a : Access) (tail : List Nat) : List (Nat × Nat) → State → Except (Trap × State) State
  | [], s => .ok s
  | (r, k) :: rest, s =>
    match accessAll q [{ a with ea := a.ea + k }] s with
    | .error (t, s) => .error ({ t with prog := progWord (regsMask (r :: rest.map Prod.fst ++ tail)) }, s)
    | .ok p => ldmLoop q a tail rest (wSet p.st q r (p.word 0))

/-- The stores of an STM (R54, R152); tail is left for later (R158). -/
def stmLoop (q : Nat) (a : Access) (tail : List Nat) : List (Nat × Nat) → Gather → Except (Trap × State) State
  | [], g => .ok (gatherFlush q g)
  | (r, k) :: rest, g =>
    match accessAll q [{ a with ea := a.ea + k }] g.st with
    | .error (t, s) =>
      .error ({ t with prog := progWord (regsMask (r :: rest.map Prod.fst ++ tail)) }, gatherFlush q { g with st := s })
    | .ok p => stmLoop q a tail rest (gatherPut q { g with st := p.st } (p.pa 0) (wGet p.st q r) (p.strict q 0 1))

/-- The registers left to do, with their offsets in the whole transfer. -/
def withOffsets (all left : List Nat) : List (Nat × Nat) := left.map fun r => (r, all.idxOf r)

/-- The physical address that a one-word access goes to, as a sample record shows it (15 R449). -/
def firstPa (s : State) (q : Nat) (a : Access) : Nat :=
  match accessAll q [a] s with
  | .ok p => p.pa 0
  | .error _ => 0

/-- An LDM or STM over the registers of its mask: it does the registers that R158 lets it do, then its base moves, or it
stops with the rest recorded. Resumed, it forms its addresses afresh from the registers as they stand: an LDM in modes 3 to
7 whose mask selects its index register ix goes on from the w[ix] that it has loaded. DESIGN CHOICE, log 69. -/
def multiRun (q : Nat) (m : MemOp) (all : List Nat) (a : Access)
    (loop : List Nat → List (Nat × Nat) → State → Except (Trap × State) State) (s : State) : Except (Trap × State) Done :=
  let left := maskLeft s q all
  let (k, s) := wordsMoved s q left.length
  let tail := left.drop k
  match loop tail (withOffsets all (left.take k)) s with
  | .error e => .error e
  | .ok s' =>
    if tail.isEmpty then .ok { st := memUpdate s' q m all.length, ea := a.word, acc := true, pa := firstPa s q a }
    else .ok { st := s', next := .stopped (progWord (regsMask tail)), ea := a.word, acc := true, pa := firstPa s q a }

/-- LDM (R152, R153, R157 to R159). -/
def execLdm (q : SeatNo) (rd : Reg) (m : MemOp) (s : State) : Out State :=
  seatRun q (.ldm q rd m) anyMode
    (fun s =>
      let all := maskRegs (wGet s q.val rd.toNat)
      if all.contains rd.toNat || (inRing s q.val && all.contains m.ca.toNat) then
        .error (trapHere s q.val cILLEGAL (seatWord (.ldm q rd m)), s)
      else
        let a := { memAccess s q.val m all.length 1 rRD false with n := 1 }
        multiRun q.val m all a (ldmLoop q.val a) s) s

/-- STM (R152, R157 to R159). -/
def execStm (q : SeatNo) (rd : Reg) (m : MemOp) (s : State) : Out State :=
  seatRun q (.stm q rd m) anyMode
    (fun s =>
      let all := maskRegs (wGet s q.val rd.toNat)
      let a := { memAccess s q.val m all.length 1 rWR true with n := 1 }
      multiRun q.val m all a (fun tail rs s => stmLoop q.val a tail rs { st := s, pend := [] }) s) s

/-- A one-word access at a capability's cursor plus k (R154). -/
def wordAt (c : Cap) (k : Nat) (need : Nat) (write : Bool) : Access :=
  { cap := c, ea := (capCursor c : Int) + k, n := 1, need := need, write := write }

/-- The two accesses of one word of a MOVW: a load from side-effect space is performed when every store before it has been (06
R197, R205). -/
def movAccess (q : Nat) (as : List Access) (g : Gather) : Gather × Except (Trap × State) Passed :=
  match accessAll q as g.st with
  | .error e => (g, .error e)
  | .ok p =>
    if p.strict q 1 0 && !g.pend.isEmpty then
      let g : Gather := { st := gatherFlush q g, pend := [] }
      (g, accessAll q as g.st)
    else (g, .ok p)

/-- The copy of a MOVW with n words to do now and tail more for later (R158); down is aux = 1 (R154). -/
def movLoop (q : Nat) (cd cs : Cap) (count : Nat) (down : Bool) (tail : Nat) : Nat → Gather → Except (Trap × State) State
  | 0, g => .ok (gatherFlush q g)
  | n + 1, g =>
    let left := n + 1 + tail
    let k := if down then left - 1 else count - left
    match movAccess q [wordAt cd k rWR true, wordAt cs k rRD false] g with
    | (g, .error (t, s)) => .error ({ t with prog := progWord left }, gatherFlush q { g with st := s })
    | (g, .ok p) =>
      let w := match g.pend.find? fun e => e.1 == p.pa 1 with
        | some e => e.2
        | none => (p.data.getD 1 []).getD 0 0
      movLoop q cd cs count down tail n (gatherPut q { g with st := p.st } (p.pa 0) w (p.strict q 0 1))

/-- The fill of a FILLW with n words to do now and tail more for later (R154, R158). -/
def fillLoop (q : Nat) (cd : Cap) (w : Word) (count tail : Nat) : Nat → Gather → Except (Trap × State) State
  | 0, g => .ok (gatherFlush q g)
  | n + 1, g =>
    let left := n + 1 + tail
    match accessAll q [wordAt cd (count - left) rWR true] g.st with
    | .error (t, s) => .error ({ t with prog := progWord left }, gatherFlush q { g with st := s })
    | .ok p => fillLoop q cd w count tail n (gatherPut q { g with st := p.st } (p.pa 0) w (p.strict q 0 1))

/-- How many words a MOVW or FILLW still has to do: the recorded remaining count when VALID (R159). -/
def countLeft (s : State) (q : Nat) (count : Nat) : Nat :=
  let p := (curBank (getSeat s q)).progress
  if bit p 35 then min count (bits p 34 0) else count

/-- A MOVW or FILLW of count words: it does the words that R158 lets it do, or stops with the rest recorded. a is its first
store. -/
def blockRun (q : Nat) (count : Nat) (a : Access) (loop : Nat → Nat → State → Except (Trap × State) State)
    (s : State) : Except (Trap × State) Done :=
  let left := countLeft s q count
  let (k, s) := wordsMoved s q left
  match loop (left - k) k s with
  | .error e => .error e
  | .ok s' => .ok { st := s', acc := k != 0, ea := a.word, pa := firstPa s q a,
                    next := if k = left then .advance else .stopped (progWord (left - k)) }

/-- MOVW (R154 to R159): rd is the destination, ra the source, rb the count, aux the direction. -/
def execMovw (q : SeatNo) (rd ra rb aux : Reg) (s : State) : Out State :=
  seatRun q (.movw q rd ra rb aux) anyMode
    (fun s =>
      let count := (wGet s q.val rb.toNat).toNat % 2 ^ 35
      let cd := blockCap s q.val rd.toNat
      let cs := blockCap s q.val ra.toNat
      blockRun q.val count (wordAt cd 0 rWR true) (fun tail n s => movLoop q.val cd cs count (aux == 1) tail n { st := s, pend := [] }) s) s

/-- FILLW (R154 to R159): rd is the destination, ra the value, rb the count. -/
def execFillw (q : SeatNo) (rd ra rb : Reg) (s : State) : Out State :=
  seatRun q (.fillw q rd ra rb) anyMode
    (fun s =>
      let count := (wGet s q.val rb.toNat).toNat % 2 ^ 35
      let cd := blockCap s q.val rd.toNat
      let w := wGet s q.val ra.toNat
      blockRun q.val count (wordAt cd 0 rWR true) (fun tail n s => fillLoop q.val cd w count tail n { st := s, pend := [] }) s) s

/-- An instruction that uses the wide file (04 R122): WIDE_ON is set when the bank in use owns the file; otherwise WIDE_OFF
and no effect. -/
def wideRun (q : SeatNo) (i : Instr) (body : State → Except (Trap × State) Done) (s : State) : Out State :=
  seatRun q i noRing
    (fun s =>
      let x := getSeat s q.val
      if x.status.wideOn then body s
      else if x.wideOwned && x.wideOwner == x.status.bank then
        body (modSeat s q.val fun x => { x with status := { x.status with wideOn := true } })
      else .error (trapHere s q.val cWIDEOFF 0, s)) s

/-- VLD (R181, R182): 8 words at a multiple of 8. -/
def execVld (q : SeatNo) (rd : Reg) (m : MemOp) (s : State) : Out State :=
  wideRun q (.vld q rd m)
    (fun s =>
      let a := memAccess s q.val m 8 8 rRD false
      match accessAll q.val [a] s with
      | .error e => .error e
      | .ok p => .ok { st := memUpdate (vSet p.st q.val rd.toNat p.words) q.val m 8, acc := true, ea := a.word, pa := p.pa 0 }) s

/-- VST (R181, R182). -/
def execVst (q : SeatNo) (rd : Reg) (m : MemOp) (s : State) : Out State :=
  wideRun q (.vst q rd m)
    (fun s =>
      let a := memAccess s q.val m 8 8 rWR true
      match accessAll q.val [a] s with
      | .error e => .error e
      | .ok p =>
        .ok { st := memUpdate (storeRuns p q.val 0 (vWords s q.val rd.toNat)) q.val m 8, acc := true, ea := a.word, pa := p.pa 0 }) s

end Sys2Proof.Machine
end

