-- ==== Sys2Proof/Machine/SeatEvents.lean ====
section
/-! DEFINITION. What happens to a seat beside its instructions: activation entry (03 R87 to R89), pre-emption (06 R204),
overrun (08 R257), stow and restore (08 R258 to R262), asynchronous traps (07 R223 to R227), register passes (02 R74),
substitution (08 R269 to R271) and sampling (15 R448, R449). An event without its occasion changes nothing (log 11). -/

namespace Sys2Proof.Machine

/-- Do other asynchronous traps come first at the boundary (07 R224)? -/
def earlierTraps (x : Seat) : Bool := !x.pendStow.isEmpty || !x.pendPair.isEmpty

/-- Is the seat in service: its domain on and not in check stop, the module not held in reset or unpowered? -/
def seatServes (s : State) (q : Nat) : Bool :=
  let x := getSeat s q
  s.pins.porN && !dark s.power && x.powered && x.checkStop.isNone

/-- The bank that an activation entry would enter now: the highest bank that asks is POSTED, the seat is idle, no save set holds
the switch (07 R225, 08 R254), and no asynchronous trap comes first (R224). -/
def entryBank (s : State) (q : Nat) : Option Nat :=
  let x := getSeat s q
  if seatServes s q && x.idle && !anyOccupied x && !asyncPending s q then
    (topBank x).filter fun b => (getBank x b).st == .posted
  else none

/-- A gate granule that an activation entry reads, once the fence has admitted the read (03 R88): a seat's own access, or the
lane unit's (06 R208). What it meets in memory happens first (10 R321, R322). -/
def gateRead (s : State) (q : Option Nat) (l a : Nat) : Except (Trap × State) (Cap × State) :=
  let s := viewMeets s q [a]
  if viewPoisoned s q a then .error ({ cause := cPOISON, addr := field 0 l, aux := BitVec.ofNat 36 a }, s)
  else .ok (viewCap s q a, s)

/-- A gate granule whose read the fence refuses fails the entry (03 R88). -/
def gateDenied (l a k : Nat) : Trap := { cause := cFENCE, addr := field 0 l, aux := BitVec.ofNat 36 a, fkind := k }

/-- The read of the code gate, as an access of the lane unit: a refusal marks the lane and is reported (09 R280, R551). -/
def codeGate (s : State) (l : Nat) : Except (Trap × State) (Cap × State) :=
  let r : FenceReq := { cls := 6, dir := 0, p := descAddr s l + 8, n := 4 }
  match fenceCheck s r with
  | .error k => .error (gateDenied l r.p k, notice (faultLane (fenceRecord s r 0o203 k) l) l { status := stFence })
  | .ok _ => gateRead s none l r.p

/-- The read of the data gate, at granule 0 of the stow area (03 R87). The lane unit gives the seat the area's address out of
granule 3 of the descriptor; the seat reads the area itself, at M. An entry that granule 3 is refused to fails as one whose
gate granule is, with the address of granule 3. DEDUCED, log 96. -/
def dataGate (s : State) (q l : Nat) : Except (Trap × State) (Cap × State) :=
  let r : FenceReq := { cls := 6, dir := 0, p := descAddr s l + 12, n := 4 }
  match fenceCheck s r with
  | .error k => .error (gateDenied l r.p k, notice (faultLane (fenceRecord s r 0o203 k) l) l { status := stFence })
  | .ok _ =>
    let s := meetWords s [r.p]
    match fenceCheck s (atMReq 0 (stowRef s l) 4 false) with
    | .error k => .error (gateDenied l (stowRef s l) k, s)
    | .ok _ => gateRead s (some q) l (stowRef s l)

/-- The gate pair of lane l's activation entry on seat q after every check (03 R87, R88). -/
def entryPair (s : State) (q l : Nat) : Except (Trap × State) ((Cap × Cap) × State) :=
  match codeGate s l with
  | .error e => .error e
  | .ok (a, s) =>
    match dataGate s q l with
    | .error e => .error e
    | .ok (b, s) =>
      match gateFail s .U (capSide a) false false a b with
      | some t => .error ({ t with addr := field 0 l, aux := 0 }, s)
      | none => .ok ((a, b), s)

/-- The bank after an activation entry (03 R89). -/
def enteredBank (v : Bank) (l map : Nat) (a b : Cap) : Bank :=
  { v with
    w := smSet 0 [] 1 (field 0 l), c := smSet {} [] 14 (capSetSeal b 0), pcc := capSetSeal a 0,
    ctx := mkCtx (capSeal a) map, xctx := v.xctx &&& ~~~(flag 8 true), ringLink := v.ringLink &&& ~~~(field 12 3),
    progress := 0, st := .running }

/-- An activation entry that passes (03 R89, 04 R123), under the class table of its post (18 R515). -/
def enterBank (s : State) (q b l k : Nat) (ga gb : Cap) : State :=
  let c := classesFor s (getBank (getSeat s q) b).old
  let s := modSeatR s q fun x =>
    let x := dropWide x b
    let ring := clRing c k
    { modBank x b (fun v => enteredBank v l (clMap c k) ga gb) with
        status := { ring := if ring then BitVec.ofNat 2 (capRing ga) else 0, ringMode := ring, wideOn := false,
                    det := clDet c k, bank := b, side := capSide ga, lvl := .U },
        idle := false }
  seatCount s q (16 + b)

/-- An activation entry that fails (03 R88): bank b is FREE again, the message stays on the lane, and the trap is recorded
as one taken on an idle seat, with SV_CAUSE.ASYNC 1: R213's list of asynchronous traps does not name it, but no instruction
raised it (DEDUCED, log 80). A pair-checked activation none of whose seats holds it any more ends without a notice. -/
def entryFails (s : State) (q b : Nat) (t : Trap) : State :=
  let v := getBank (getSeat s q) b
  let l := v.lane.toNat
  let s := takeAsync (freeBank s q b) q t
  if v.role = .none then laneEnded s l
  else if s.seats.any fun e => e.2.banks.any fun k => k.2.st != .free && k.2.role != .none && k.2.lane == v.lane then s
  else endPair s (leafOf q) v.pairBuf 0

/-- ACTIVATION_ENTRY (03 R87 to R89). -/
def execActivationEntry (q : SeatNo) (s : State) : Out State :=
  match entryBank s q.val with
  | none => .next s
  | some b =>
    let v := getBank (getSeat s q.val) b
    let l := v.lane.toNat
    match classOf (classesFor s v.old) l, entryPair s q.val l with
    | some k, .ok ((ga, gb), s) => .next (enterBank s q.val b l k ga gb)
    | _, .error (t, s') => if mHeld s then .next s else .next (entryFails s' q.val b t)
    | none, .ok _ => .next s

/-- PREEMPTION (06 R204, 07 R225, 08 R254): the running bank stops and becomes READY; a READY bank above it runs at once, a
POSTED one waits for its entry. -/
def execPreemption (q : SeatNo) (s : State) : Out State :=
  let x := getSeat s q.val
  if seatServes s q.val && !x.idle && preemptPending x && !anyOccupied x && !asyncPending s q.val
      && (curBank x).st == .running then
    let s := modSeatR s q.val fun x =>
      { modBank (leaveBank x) x.status.bank (fun v => { v with st := .ready }) with idle := true }
    .next (selectBank (seatCount s q.val 30) q.val)
  else .next s

/-- The pair buffers that hold an activation of a lane. -/
def actPairs (s : State) (l : Nat) : List (Nat × Nat) :=
  s.coxes.flatMap fun e => (e.2.pairs.filter fun b => b.2.used && b.2.lane.toNat == l).map fun b => (e.1, b.1)

/-- The accepted posts of a lane's activation that still wait for their bank, with their seats (08 R256). -/
def actPosts (s : State) (l : Nat) : List (Nat × StowJob) :=
  s.seats.flatMap fun e => (e.2.stow.filter fun j =>
    j.stowing && !j.void && !j.stowed && j.role == .none && j.lane.toNat == l).map fun j => (e.1, j)

/-- The post brings no activation any more: its bank is FREE once the stow is done. -/
def voidPost (s : State) (q : Nat) (j : StowJob) : State :=
  modSeat s q fun x => { x with stow := x.stow.map fun y => if y = j then { y with void := true } else y }

/-- A way-enough or overrun on the activation of a lane: it ends with the status on every seat, unless a bank of it is named
by an OCCUPIED M set, when it waits for M (07 R237). -/
def endActivation (s : State) (l st : Nat) : State :=
  let bs := actBanks s l
  if bs.any (mNamed s) then
    bs.foldl (fun s qb => modSeat s qb.1 fun x => modBank x qb.2 fun v => { v with abortHeld := true }) s
  else
    let s := (actPairs s l).foldl (fun s p => endPair s p.1 p.2 st) s
    let s := (actBanks s l).foldl (fun s qb => endLive s qb.1 qb.2 st) s
    let s := (actPosts s l).foldl (fun s e => endPosted (voidPost s e.1 e.2) e.1 e.2 st) s
    match s.lanes.stowed.find? fun e => e.lane.toNat == l with
    | some e => endStowed s e st
    | none => s

/-- The time for which paddle mode has had a stowed activation's seat switched off: it does not count (16 R465). -/
def offTime (s : State) (e : Stowed) : Nat :=
  e.offFor + (if (getSeat s e.seat).powered then 0 else s.time - s.power.offFrom.getD s.time)

/-- Where the activation of a lane stands and when it was posted: the seat and the timebase (08 R257). -/
def actSince (s : State) (l : Nat) : Option (Nat × Nat) :=
  match (actBanks s l).head? with
  | some (q, b) =>
    let v := getBank (getSeat s q) b
    if v.abortHeld then none
    else some (q, if v.st = .restoring then
        ((s.lanes.stowed.find? fun e => e.lane.toNat == l).map fun e => e.since + offTime s e).getD v.since
      else v.since)
  | none =>
    match s.lanes.stowed.find? fun e => e.lane.toNat == l, (actPosts s l).head? with
    | some e, _ => some (e.seat, e.since + offTime s e)
    | none, some (q, j) => some (q, j.since)
    | none, none => (actPairs s l).head?.map fun p => ((getPair s p.1 p.2).seatA, (getPair s p.1 p.2).since)

/-- ACTIVATION_OVERRUN (08 R257, 18 R515): an activation past its class's MAXACT ends ABORTED. -/
def execActivationOverrun (lane : LaneNo) (s : State) : Out State :=
  let l := lane.toNat
  let c := classesFor s ((oldLanes s).contains l)
  match classOf c l, actSince s l with
  | some k, some (q, t) =>
    if moduleRuns s && decide (t + clMaxact c k < s.time) then
      .next (logEvent 7 q (coxCount (endActivation s l stAborted) (leafOf q) 10))
    else .next s
  | _, _ => .next s

/-- RESIDENCE_TIMEOUT (07 R226): the timer of a held pre-emption has reached LIMIT. -/
def execResidenceTimeout (q : SeatNo) (s : State) : Out State :=
  let x := getSeat s q.val
  if asyncReady s q.val && !earlierTraps x && residDue s.time x then .next (takeAsync (modSeat s q.val fun x => { x with residFired := true }) q.val { cause := 0, addr := 1 })
  else .next s

/-- A post whose stow failed is refused (08 R262). A pair-checked one is withdrawn from its other seat; the referee's is
repeated (R267). -/
def refuseStowPost (s : State) (q : Nat) (j : StowJob) : State :=
  let c := leafOf q
  if j.void then s
  else match j.role with
  | .none => pushHead s j.lane.toNat j.stowed
  | .referee => setPair s c j.buf { getPair s c j.buf with refOn := false }
  | _ =>
    let s := endPair s c j.buf 0
    if laneQueued s j.lane.toNat then pushHead (unready s j.lane.toNat) j.lane.toNat false
    else pushHead s j.lane.toNat false

/-- STOW_COMPLETE (08 R256, R258 to R262): the bank's state is in the stow area and the post that needed the bank goes on;
or the stow has faulted. -/
def execStowComplete (q : SeatNo) (s : State) : Out State :=
  let x := getSeat s q.val
  match x.stow with
  | [] => .next s
  | j :: _ =>
    if !j.stowing || anyOccupied x || !seatServes s q.val then .next s
    else
      let v := getBank x j.bank
      if v.st ≠ .stowing then .next (modSeatR s q.val fun x => dropJob x j.bank)
      else match laneReach s v.lane.toNat 3 with
      | (false, s) => .next (stowFails s v (descAddr s v.lane.toNat + 12) j)
      | (true, s) =>
        match stowBank s q.val j.bank with
        | .ok s =>
          let s := { s with lanes := { s.lanes with stowed := s.lanes.stowed ++ [stowedOf v q.val j.bank] } }
          .next (lateEvent (postAfterStow (seatCount s q.val 31) q.val j) q.val j.bank v false)
        | .error p => .next (stowFails s v p j)
where
  stowFails (s : State) (v : Bank) (p : Nat) (j : StowJob) : State :=
    let s := modSeatR s q.val fun x =>
      { dropJob (modBank x j.bank fun v => { v with st := .blocked }) j.bank with
          pendStow := x.pendStow ++ [(v.lane, BitVec.ofNat 36 p)] }
    lateEvent (refuseStowPost s q.val j) q.val j.bank v true

/-- The LTAKE at which a restored bank resumes completes ABORTED when the awaited lane was closed or aborted while it waited (05
R175). -/
def restoredWait (s : State) (q b : Nat) (aborted : Bool) : State :=
  modSeat s q fun x => modBank x b fun v => { v with abortTake := aborted }

/-- RESTORE_COMPLETE (08 R256, R261, R262). A restore whose stowed activation has ended leaves its bank FREE. -/
def execRestoreComplete (q : SeatNo) (s : State) : Out State :=
  let x := getSeat s q.val
  match x.stow with
  | [] => .next s
  | j :: _ =>
    if j.stowing || anyOccupied x || !seatServes s q.val then .next s
    else
      let s := modSeatR s q.val fun x => dropJob x j.bank
      if (getBank x j.bank).st ≠ .restoring then .next s
      else match s.lanes.stowed.find? fun e => e.lane == j.lane with
      | none => .next (laneEnded (freeBank s q.val j.bank) j.lane.toNat)
      | some e =>
        match laneReach s j.lane.toNat 3 with
        | (false, s) => .next (restoreFails s (descAddr s j.lane.toNat + 12) j e)
        | (true, s) =>
          let s := stowMeets s q.val j.lane.toNat
          match restoreBank s q.val j.bank j.lane.toNat (e.since + e.offFor) e.lastMsg e.old with
          | .ok s =>
            let kept := s.lanes.stowed.filter fun y => y.lane != j.lane
            let s := restoredWait { s with lanes := { s.lanes with stowed := kept } } q.val j.bank e.aborted
            .next (selectBank (seatCount s q.val 31) q.val)
          | .error p => .next (restoreFails s p j e)
where
  restoreFails (s : State) (p : Nat) (j : StowJob) (e : Stowed) : State :=
    let s := modSeat s q.val fun x => { x with pendStow := x.pendStow ++ [(j.lane, BitVec.ofNat 36 p)] }
    endStowed (freeBank s q.val j.bank) e stBroken

/-- STOW_DELIVERY (07 R223, R227, 08 R262). -/
def execStowDelivery (q : SeatNo) (s : State) : Out State :=
  match (getSeat s q.val).pendStow with
  | (l, p) :: ps =>
    if asyncReady s q.val then
      .next (takeAsync (modSeat s q.val fun x => { x with pendStow := ps }) q.val
        { cause := cSTOW, addr := field 0 l.toNat, aux := p })
    else .next s
  | [] => .next s

/-- PAIR_MISMATCH_DELIVERY (07 R227, 08 R268). -/
def execPairMismatchDelivery (q : SeatNo) (s : State) : Out State :=
  let x := getSeat s q.val
  match x.pendPair with
  | l :: ls =>
    if asyncReady s q.val && x.pendStow.isEmpty then
      .next (takeAsync (modSeat s q.val fun x => { x with pendPair := ls }) q.val
        { cause := cPAIRMISMATCH, addr := field 0 l.toNat })
    else .next s
  | [] => .next s

/-- PAIR_WAIT_EXPIRY (08 R265, R267): the pair wait has elapsed with one side not ended. -/
def execPairWaitExpiry (c : LeafNo) (buf : Fin 8) (s : State) : Out State :=
  let h := 3 + c.val
  let p := getPair s h buf.val
  match p.waitFrom with
  | some t =>
    if moduleRuns s && p.used && !p.toRef && !(p.doneA && p.doneB) && t + p.wait ≤ s.time then .next (toReferee s h buf.val)
    else .next s
  | none => .next s

/-- Does a register pass clear the value's tag (02 R73, R74)? -/
def passHit (s : State) (c : Cap) : Bool :=
  c.tag && (sweepHit s c || (s.sys.sealMode && capSeal c == s.sys.sealVal))

/-- The value after a register pass. -/
def passCap (s : State) (c : Cap) : Cap := if passHit s c then { c with tag := false } else c

/-- A table of capabilities after a register pass. -/
def passCaps (s : State) (m : SMap Cap) : SMap Cap := (m.map fun e => (e.1, passCap s e.2)).filter fun e => e.2 != {}

/-- A bank after a register pass. -/
def passBank (s : State) (b : Bank) : Bank := { b with c := passCaps s b.c, pcc := passCap s b.pcc }

/-- A save set after a register pass: SV_PCC, and SV_C13 or MV_ATTEMPT. -/
def passSet (s : State) (v : SaveSet) : SaveSet := { v with pcc := passCap s v.pcc, granB := passCap s v.granB }

/-- A seat after a register pass. -/
def passSeat (s : State) (x : Seat) : Seat :=
  { x with banks := (x.banks.map fun e => (e.1, passBank s e.2)).filter fun e => e.2 != {},
           svStroke := passSet s x.svStroke, svBow := passSet s x.svBow, svM := passSet s x.svM }

/-- The granule i of a list of words. -/
def granuleOf (ws : List Word) (i : Nat) (t : Bool) : Cap :=
  { w0 := ws.getD (4 * i) 0, w1 := ws.getD (4 * i + 1) 0, w2 := ws.getD (4 * i + 2) 0, w3 := ws.getD (4 * i + 3) 0, tag := t }

/-- A held output after a register pass. -/
def passOut (s : State) (o : PairOut) : PairOut :=
  { o with tags := (List.range o.tags.length).map fun i => (passCap s (granuleOf o.words i (o.tags.getD i false))).tag }

/-- A pair buffer after a register pass. -/
def passPair (s : State) (p : PairBuf) : PairBuf :=
  pairMap (passOut s) p

/-- Is the crew's register pass due: a write of REGPASS, and a stroke boundary of the crew since (02 R74)? -/
def passReady (s : State) (h : Nat) : Bool :=
  match (getCox s h).passDue with
  | some t => decide (t / strokeNs (getCox s h) < s.time / strokeNs (getCox s h))
  | none => false

/-- REGISTER_PASS (02 R74): the active seats of one leaf crew, its pair buffers and the trap vectors, after the crew's next
stroke boundary. REGDONE is 1 once no crew's pass is due. -/
def execRegisterPass (c : LeafNo) (s : State) : Out State :=
  let h := 3 + c.val
  if !passReady s h then .next s
  else
    let s0 := s
    let s := (crewSeats h).foldl (fun s q => if seatServes s q then modSeat s q (passSeat s0) else s) s
    let s := modCox s h fun x => { x with passDue := none, pairs := x.pairs.map fun e => (e.1, passPair s0 e.2) }
    let left := (List.range 8).any fun i => (getCox s (3 + i)).passDue.isSome
    .next { s with sys := { s.sys with vectors := passCaps s0 s.sys.vectors, regDone := !left } }

/-- The logical position that a leaf cox maps to a seat (08 R269). -/
def positionOf (s : State) (c q : Nat) : Option Nat := (List.range 8).find? fun p => mapSeat s c p == q

/-- Is the seat an active one, or a spare that its crew's map names (01 R15)? -/
def seatBelongs (s : State) (q : Nat) : Bool := decide (q % 9 < 8) || (positionOf s (leafOf q) q).isSome

/-- Loads position p of the map. The map's unlisted position p is seat Cc.p. -/
def setMap (s : State) (c p q : Nat) : State :=
  modCox s c fun k => { k with map := if q = 9 * (c - 3) + p then smErase k.map p else smInsert (smErase k.map p) p q }

/-- The seats that fill the positions of set 8, in ascending physical order (08 R270). -/
def survivors (s : State) (c : Nat) : List Nat :=
  (crewSeats c).filter fun r => (getSeat s r).checkStop.isNone && !(getSeat s r).gone && (r % 9 != 8 || (positionOf s c r).isSome)

/-- One substitution of a failed seat (08 R270, R271): it ends the check stop, and the seat's domain switches off, until a
module reset (07 R234, R235). -/
def substitute (c : Nat) (s : State) (q : Nat) : State :=
  let s := coxCount s c 14
  let s := match positionOf s c q with
    | none => s
    | some p =>
      if (getCox s c).spent then
        let rs := survivors s c
        let s := (List.range 8).foldl (fun s p => setMap s c p (rs.getD p 72)) s
        modCox s c fun k => { k with set := 8 }
      else modCox (setMap s c p (9 * (c - 3) + 8)) c fun k => { k with set := p, spent := true }
  modSeat (settleSeat s q) q fun x => { x with powered := false, checkStop := none, gone := true }

/-- The crew no longer holds the CHECKSTOP trigger, which clears once no crew holds it (16 R460). -/
def clearTrig (s : State) (h : Nat) : State :=
  if (getCox s h).trig then
    let s := modCox s h fun k => { k with trig := false }
    withPower s fun p => { p with checkstopT := s.coxes.any fun e => e.2.trig }
  else s

/-- APPLY_SUBSTITUTION (08 R271): at the crew's stroke boundary the leaf cox applies the set of every failed seat whose
substitution is pending, which clears the crew's CHECKSTOP trigger (16 R460), in a crew that paddle mode has stopped too. -/
def execApplySubstitution (c : LeafNo) (s : State) : Out State :=
  let h := 3 + c.val
  let qs := (getCox s h).pendSub
  if !s.pins.porN || dark s.power || !atBoundary s h then .next s else
  .next (clearTrig (qs.foldl (substitute h) (modCox s h fun k => { k with pendSub := [] })) h)

/-- SPARE_POWER_ON (08 R271): the spare's domain is up, once a failed seat calls for it. Keel's periodic health test
(01 R15) switches no domain on here: the rules give it no register and no command. DESIGN CHOICE, log 103. -/
def execSparePowerOn (c : LeafNo) (s : State) : Out State :=
  let h := 3 + c.val
  let q := 9 * c.val + 8
  let k := getCox s h
  let wanted := (positionOf s h q).isSome || (!k.spent && k.pendSub != [])
  let x := getSeat s q
  let kept := !s.power.paddle || s.power.crew == h
  if s.pins.porN && !dark s.power && wanted && kept && !x.powered && x.checkStop.isNone && !x.gone then
    .next (coxWake (modSeat s q fun x => { x with powered := true, idle := true }) h)
  else .next s

/-- The 24-bit LFSR of 15 R448, x^24 + x^23 + x^22 + x^17 + 1, n steps on. -/
def lfsrSteps : Nat → Nat → Nat
  | 0, v => v
  | n + 1, v =>
    let b := ((v / 2 ^ 23) + (v / 2 ^ 22) + (v / 2 ^ 21) + (v / 2 ^ 16)) % 2
    lfsrSteps n ((2 * v + b) % 2 ^ 24)

/-- SAMPLE_TAG (15 R448): the count expires, the instruction being decoded is tagged, and the count is loaded again. -/
def execSampleTag (q : SeatNo) (s : State) : Out State :=
  let x := getSeat s q.val
  if seatServes s q.val && sampleOn x && !x.sampTag && x.sampCount ≤ 1 then
    let v := lfsrSteps 24 x.sampSeed
    let s := modSeat s q.val fun x =>
      { x with sampTag := true, sampSeed := v, sampCount := 2 ^ (x.sampK - 1) + v % 2 ^ x.sampK }
    .next (seatCount s q.val 160)
  else .next s

/-- Has the word a major that a prediction is made for (06 R190): B, J, JAL, RET, CALLG, CINVOKE? -/
def predictedWord (w : Word) : Bool := [0o077, 0o100, 0o101, 0o102, 0o104, 0o114].contains (bits w 35 29)

/-- The 16 words of a sample record (15 R449). What only the pipeline and the caches know is a free value (log 8): of a case or
bulk word, the cache or memory it came from, of which the set-aside cache is bulk's alone (10 R324); of an instruction that is
predicted, whether wrongly. -/
def sampleWords (q n : Nat) (y : Sample) : List Word :=
  let g := fun i w => Config.sampleFigure n i % 2 ^ w
  let source := match y.source with
    | 3 => [1, 2, 3].getD (g 1 18 % 3) 3
    | 5 => [1, 2, 4, 5].getD (g 1 18 % 4) 5
    | v => v
  [y.addr, y.word, y.ctxSt,
   flag 35 y.trapped ||| field 27 y.cause ||| field 26 (if predictedWord y.word then g 0 1 else 0) ||| flag 25 y.taken
     ||| field 22 source ||| flag 21 y.miss ||| flag 20 y.walk ||| field 0 y.lane.toNat,
   y.ea, y.pa, field 18 (g 4 18) ||| field 0 (g 5 18), field 18 (g 6 18) ||| field 0 (g 7 18),
   doubleLo y.stamp, doubleHi y.stamp, field 7 y.bank ||| field 0 q, 0, 0, 0, 0, 0]

/-- SAMPLE_RECORD (15 R449, R450): the galley puts the oldest record on SAMP_LANE, where that lane is of the kind that the
galley may produce on (09 R275); a record refused for credit is held. -/
def execSampleRecord (q : SeatNo) (s : State) : Out State :=
  let x := getSeat s q.val
  match x.samples with
  | [] => .next s
  | y :: ys =>
    if !galleyRuns s then .next s
    else
      let (n, s) := drawFree (modSeat s q.val fun x => { x with samples := ys })
      if (classOf s x.sampLane.toNat).map (clKind s) = some 5 then
        match putOrHold s 0o200 none none x.sampLane.toNat (sampleWords q.val n y) with
        | (0, s) => .next (seatCount s q.val 161)
        | (_, s) => .next s
      else .next s

end Sys2Proof.Machine
end

