-- ==== Sys2Proof/Machine/Cox.lean ====
section
/-! DEFINITION. The coxes: their instructions (08 R240 to R243), strokes (R244 to R246), picks, posts, relays and the
return of picks (R248 to R255, R264, R265). -/

namespace Sys2Proof.Machine

/-- Do the cox's stages run: the module is booted and powered, and paddle mode has not stopped the crew (16 R464)? -/
def coxRuns (s : State) (x : Nat) : Bool :=
  s.pins.porN && !dark s.power && s.boot.done && (!s.power.paddle || s.power.crew == x)

/-- Does the cox execute an instruction now: WAITS and IDLE hold stage X (R240)? -/
def coxActs (s : State) (x : Nat) : Bool :=
  coxRuns s x && (getCox s x).waiting.isNone && !(getCox s x).idling

/-- Register r; h0 reads zero (R238). -/
def hGet (c : Cox) (r : Nat) : Half := if r = 0 then 0 else smGet 0 c.h r

/-- The cox with h[r] written; h0 ignores writes (R238). -/
def hSet (c : Cox) (r : Nat) (v : Half) : Cox := if r = 0 then c else { c with h := smSet 0 c.h r v }

/-- What an instruction in stage X does: the machine, the write that the next instruction sees, the delayed writes, and for
a branch its target, if taken (R240). -/
structure CoxDone where
  st      : State
  write   : Option (Nat × Half) := none
  delayed : List (Nat × Half) := []
  branch  : Option (Option Nat) := none

/-- Writes a list of registers in order. -/
def hSets (c : Cox) (ws : List (Nat × Half)) : Cox := ws.foldl (fun c w => hSet c w.1 w.2) c

/-- OR h0, h0, h0 in place of an instruction that the crew's cox may not hold; counted (R241). -/
def coxMisuse (s : State) (x : Nat) : CoxDone := { st := coxCount s x 9 }

/-- Does an instruction that reads these registers read a delayed result at distance one (R241)? h0 is no result. -/
def readsEarly (c : Cox) (reads : List Reg) : Bool := reads.any fun r => r != 0 && c.delayed.any fun d => d.1 == r.toNat

/-- One instruction of cox x, which reads the given registers (R240, R241): one that reads a delayed result at distance one
executes as OR h0, h0, h0; the delayed writes of the instruction before stand over its own; a branch moves the program
counter after its delay slot, and one in a delay slot is not taken and is counted. -/
def coxInstr (x : Nat) (reads : List Reg) (body : State → CoxDone) (s : State) : State :=
  if !coxActs s x then s
  else
    let c := getCox s x
    let r := if readsEarly c reads then coxMisuse s x else body s
    let s := if c.slot && r.branch.isSome then coxCount r.st x 8 else r.st
    modCox s x fun k =>
      let k := hSets (hSets k r.write.toList) c.delayed
      { k with
        delayed := r.delayed, pc := c.branch.getD ((c.pc + 1) % 8192),
        branch := if c.slot then none else r.branch.join, slot := r.branch.isSome && !c.slot,
        posted := k.posted.filterMap fun p =>
          if c.posted.contains p then (if p.2.2.2 ≤ 1 then none else some (p.1, p.2.1, p.2.2.1, p.2.2.2 - 1)) else some p }

/-- The outcome of a cox instruction. -/
def coxRun (x : CoxNo) (reads : List Reg) (body : State → CoxDone) (s : State) : Out State :=
  .next (coxInstr x.val reads body s)

/-- What a cox does with a word of no assigned opcode (R241): OR h0, h0, h0, counted. No row of the table is such a word; the
effect of any word of a cox's instruction store is runCoxWord. -/
def execCoxUnassigned (x : CoxNo) (s : State) : Out State := coxRun x [] (fun s => coxMisuse s x.val) s

/-- h[rd] := f of two registers. -/
def coxOp2 (x : CoxNo) (rd ra rb : Reg) (f : Half → Half → Half) (s : State) : Out State :=
  coxRun x [ra, rb]
    (fun s =>
      let c := getCox s x.val
      { st := s, write := some (rd.toNat, f (hGet c ra.toNat) (hGet c rb.toNat)) }) s

/-- h[rd] := f of a register and the immediate. -/
def coxOpI (x : CoxNo) (rd ra : Reg) (imm : BitVec 18) (f : Half → BitVec 18 → Half) (s : State) : Out State :=
  coxRun x [ra] (fun s => { st := s, write := some (rd.toNat, f (hGet (getCox s x.val) ra.toNat) imm) }) s

/-- A branch that is taken when a test holds. -/
def coxBranch (x : CoxNo) (target : BitVec 13) (reads : List Reg) (test : Cox → Bool) (s : State) : Out State :=
  coxRun x reads
    (fun s => { st := s, branch := some (if test (getCox s x.val) then some target.toNat else none) }) s

/-- ADD (R243). -/
def execCoxAdd (x : CoxNo) (rd ra rb : Reg) (s : State) : Out State := coxOp2 x rd ra rb (fun a b => a + b) s
/-- SUB (R243). -/
def execCoxSub (x : CoxNo) (rd ra rb : Reg) (s : State) : Out State := coxOp2 x rd ra rb (fun a b => a - b) s
/-- AND (R243). -/
def execCoxAnd (x : CoxNo) (rd ra rb : Reg) (s : State) : Out State := coxOp2 x rd ra rb (fun a b => a &&& b) s
/-- OR (R243). -/
def execCoxOr (x : CoxNo) (rd ra rb : Reg) (s : State) : Out State := coxOp2 x rd ra rb (fun a b => a ||| b) s
/-- XOR (R243). -/
def execCoxXor (x : CoxNo) (rd ra rb : Reg) (s : State) : Out State := coxOp2 x rd ra rb (fun a b => a ^^^ b) s

/-- SHL (R243): by imm bits 4-0; 18 or more gives 0. -/
def execShl (x : CoxNo) (rd ra : Reg) (imm : BitVec 18) (s : State) : Out State :=
  coxOpI x rd ra imm (fun a i => a <<< (i.toNat % 32)) s
/-- SHR (R243). -/
def execShr (x : CoxNo) (rd ra : Reg) (imm : BitVec 18) (s : State) : Out State :=
  coxOpI x rd ra imm (fun a i => a >>> (i.toNat % 32)) s
/-- ADDI (R243). -/
def execCoxAddi (x : CoxNo) (rd ra : Reg) (imm : BitVec 18) (s : State) : Out State :=
  coxOpI x rd ra imm (fun a i => a + i) s

/-- The data store address of LD and ST (R243). -/
def coxAddr (c : Cox) (ra : Reg) (imm : BitVec 18) : Nat := (hGet c ra.toNat + imm).toNat % 4096

/-- LD (R243), a delayed writer. -/
def execLd (x : CoxNo) (rd ra : Reg) (imm : BitVec 18) (s : State) : Out State :=
  coxRun x [ra]
    (fun s =>
      let c := getCox s x.val
      { st := s, delayed := [(rd.toNat, smGet 0 c.data (coxAddr c ra imm))] }) s

/-- ST (R243). -/
def execSt (x : CoxNo) (rd ra : Reg) (imm : BitVec 18) (s : State) : Out State :=
  coxRun x [ra, rd]
    (fun s => { st := modCox s x.val fun c => { c with data := smSet 0 c.data (coxAddr c ra imm) (hGet c rd.toNat) } }) s

/-- BEQ (R243). -/
def execBeq (x : CoxNo) (ra rb : Reg) (target : BitVec 13) (s : State) : Out State :=
  coxBranch x target [ra, rb] (fun c => hGet c ra.toNat == hGet c rb.toNat) s
/-- BNE (R243). -/
def execBne (x : CoxNo) (ra rb : Reg) (target : BitVec 13) (s : State) : Out State :=
  coxBranch x target [ra, rb] (fun c => hGet c ra.toNat != hGet c rb.toNat) s
/-- BLTU (R243). -/
def execBltu (x : CoxNo) (ra rb : Reg) (target : BitVec 13) (s : State) : Out State :=
  coxBranch x target [ra, rb] (fun c => (hGet c ra.toNat).ult (hGet c rb.toNat)) s
/-- JMP (R243). -/
def execJmp (x : CoxNo) (target : BitVec 13) (s : State) : Out State := coxBranch x target [] (fun _ => true) s
/-- BNXT (R243, R246). -/
def execBnxt (x : CoxNo) (target : BitVec 13) (s : State) : Out State := coxBranch x target [] (fun c => c.bflag) s

/-- WAITS (R243, R246): stage X is held until the next boundary. -/
def execWaits (x : CoxNo) (rd : Reg) (s : State) : Out State :=
  coxRun x [] (fun s => { st := modCox s x.val fun c => { c with waiting := some rd.toNat } }) s

/-- IDLE (R243): stage X is held until something happens. -/
def execIdle (x : CoxNo) (s : State) : Out State :=
  coxRun x [] (fun s => { st := modCox s x.val fun c => { c with idling := true } }) s

/-- The number of the stroke that runs (R244). -/
def strokeNo (s : State) (c : Cox) : Nat := s.time / strokeNs c

/-- The stroke index (R244). -/
def strokeIndex (s : State) (c : Cox) : Nat := strokeNo s c % c.l

/-- Is the degraded row set selected (R270)? -/
def degraded (c : Cox) : Bool := c.set == 8

/-- STRK (R243). -/
def execStrk (x : CoxNo) (rd : Reg) (s : State) : Out State :=
  coxRun x []
    (fun s =>
      let c := getCox s x.val
      { st := s, write := some (rd.toNat,
          BitVec.ofNat 18 (strokeIndex s c % 4096 + (if degraded c then 4096 else 0))) }) s

/-- PEND (R243). -/
def execPend (x : CoxNo) (rd ra : Reg) (s : State) : Out State :=
  coxRun x [ra]
    (fun s =>
      let m := (hGet (getCox s x.val) ra.toNat).toNat % 64
      let v := (List.range 16).foldl (fun n i => if pendBit s x.val (16 * m + i) then n + 2 ^ i else n) 0
      { st := s, delayed := [(rd.toNat, BitVec.ofNat 18 v)] }) s

/-- A pick word (R243). -/
def pickWord (lane : LaneNo) (stowed : Bool) : Half :=
  BitVec.ofNat 18 (2 ^ 17 + (if stowed then 2 ^ 16 else 0) + lane.toNat)

/-- PICK (R243, R250): the head of a ready queue; an empty one gives 0 and is counted. -/
def execPick (x : CoxNo) (rd ra : Reg) (s : State) : Out State :=
  coxRun x [ra]
    (fun s =>
      let i := (hGet (getCox s x.val) ra.toNat).toNat % 1024
      match readyGet s x.val i with
      | [] => { st := coxCount s x.val 6, delayed := [(rd.toNat, 0)] }
      | e :: es =>
        let s := modCox (readySet s x.val i es) x.val fun c =>
          { c with picks := c.picks ++ [{ lane := e.1, stowed := e.2, home := x.val, pend := i, at_ := s.time }] }
        { st := s, delayed := [(rd.toNat, pickWord e.1 e.2)] }) s

/-- A seat as SEATST sees it: a post of the last three instructions is not reflected yet, in its bank or its stow engine
(R240). -/
def seatstView (c : Cox) (q : Nat) (x : Seat) : Seat :=
  c.posted.foldl (fun x p =>
    if p.1 = q then
      { modBank x p.2.1 fun v => { v with st := p.2.2.1 } with stow := x.stow.filter fun j => j.bank != p.2.1 }
    else x) x

/-- The seat-state word of a logical position (R243). -/
def seatstWord (s : State) (x p : Nat) : Half :=
  let q := mapSeat s x p
  let y := seatstView (getCox s x) q (getSeat s q)
  if 72 ≤ q || y.checkStop.isSome || !y.powered then BitVec.ofNat 18 (2 ^ 17)
  else
    let busy := fun b => match (getBank y b).st with | .free | .blocked => false | _ => true
    let n := (List.range 8).foldl (fun n b =>
      n + (if busy b then 2 ^ (8 + b) else 0) + (if postable y b then 2 ^ b else 0)) 0
    BitVec.ofNat 18 (n + if anyOccupied y then 2 ^ 16 else 0)

/-- SEATST (R243). In a parent cox no position maps to a seat. -/
def execSeatst (x : CoxNo) (rd ra : Reg) (s : State) : Out State :=
  coxRun x [ra]
    (fun s =>
      let p := (hGet (getCox s x.val) ra.toNat).toNat % 8
      let v := if x.val < 3 then BitVec.ofNat 18 (2 ^ 17) else seatstWord s x.val p
      { st := s, delayed := [(rd.toNat, v)] }) s

/-- The pick that a pick word names, among those the cox holds. -/
def heldPick (c : Cox) (w : Half) : Option Pick := c.picks.find? fun p => pickWord p.lane p.stowed == w

/-- The cox no longer holds the pick. -/
def dropPick (s : State) (x : Nat) (p : Pick) : State := modCox s x fun c => { c with picks := c.picks.erase p }

/-- A pick goes back to the head of its queue, where its lane still belongs there (R248 to R250). Its pend bit does not rise by
that. -/
def returnPick (s : State) (x : Nat) (p : Pick) : State := returnHead (dropPick s x p) p.home p.pend (p.lane, p.stowed)

/-- A refused post or relay (R250, R255): its return ends the IDLE of the queue's cox (R243). A word that names no pick the cox
holds posts nothing. -/
def refusePost (s : State) (x : Nat) (p : Option Pick) : State :=
  let s := coxCount s x 3
  match p with
  | some p => coxWake (returnPick s x p) p.home
  | none => s

/-- Can a logical position serve: it maps to a powered seat that is not in check stop (R272)? -/
def positionUp (s : State) (x pos : Nat) : Bool :=
  let q := mapSeat s x pos
  decide (q < 72) && (getSeat s q).powered && (getSeat s q).checkStop.isNone

/-- The seat of a logical position. A relayed pick, one of another crew's queue, is served at the next position upward,
modulo 8, that can serve (R272). DEDUCED, log 63. -/
def servingSeat (s : State) (x : Nat) (p : Pick) (pos : Nat) : Nat :=
  if p.home = x then mapSeat s x pos
  else mapSeat s x ((((List.range 8).map fun d => (pos + d) % 8).find? (positionUp s x)).getD pos)

/-- The physical seat that a post goes to (R252, R255, R272): that of the stow area, of the seat table for a class with PIN,
or of the position; 72 is no seat. A spare that no substitution names receives none (01 R15). -/
def postTarget (s : State) (x k : Nat) (p : Pick) (pos : Nat) : Nat :=
  if p.stowed then (((s.lanes.stowed.find? fun e => e.lane == p.lane).map Stowed.seat).getD 72)
  else if clPin s k then
    (((List.range 72).find? fun q => doorbellLane s q == some p.lane.toNat).filter (seatBelongs s)).getD 72
  else servingSeat s x p pos

/-- A post is accepted (R255, R256): SEATST reflects it from the fourth instruction after (R240). -/
def postTo (s : State) (x q prio : Nat) (p : Pick) (role : PairRole) (partner buf : Nat) : State :=
  let before := (getBank (getSeat s q) prio).st
  let s := acceptPost s q prio p.lane p.stowed role partner buf false
  modCox s x fun c => { c with posted := c.posted ++ [(q, prio, before, 3)] }

/-- POST (R243, R251 to R256). -/
def postDone (s : State) (x : Nat) (rd ra rb : Reg) : State :=
  let c := getCox s x
  let prio := (hGet c rb.toNat).toNat % 8
  match heldPick c (hGet c ra.toNat) with
  | none => refusePost s x none
  | some p =>
    match classOf s p.lane.toNat with
    | none => refusePost s x (some p)
    | some k =>
      let q := postTarget s x k p ((hGet c rd.toNat).toNat % 8)
      if 72 ≤ q || clPair s k || !postable (getSeat s q) prio then refusePost s x (some p)
      else coxCount (postTo (dropPick s x p) x q prio p .none 0 0) x 2

/-- POST (R243); no seat is posted by the top cox or a half cox (R241). -/
def execPost (x : CoxNo) (rd ra rb : Reg) (s : State) : Out State :=
  coxRun x [rd, ra, rb] (fun s => if x.val < 3 then coxMisuse s x.val else { st := postDone s x.val rd ra rb }) s

/-- A pair triple word of the set the cox applies (R265). -/
def tripleWord (c : Cox) (t : Nat) : Word := smGet 0 c.triples (16 * c.set + t)

/-- POSTP (R243, R264, R265): refused under an unusable triple, without a free buffer, or unless both seats accept. A stowed
activation is never pair-checked. A class without the pair flag is taken as one with it, and the referee's position is
resolved to its seat here, once: a later substitution does not move it. DESIGN CHOICE, log 98. -/
def pairPostDone (s : State) (x : Nat) (rd ra rb : Reg) : State :=
  let c := getCox s x
  let prio := (hGet c rb.toNat).toNat % 8
  match heldPick c (hGet c ra.toNat) with
  | none => refusePost s x none
  | some p =>
    let w := tripleWord c ((hGet c rd.toNat).toNat % 16)
    let a := mapSeat s x (bits w 2 0)
    let b := mapSeat s x (bits w 5 3)
    let r := mapSeat s x (bits w 8 6)
    match classOf s p.lane.toNat, (List.range 8).find? fun i => !(getPair s x i).used with
    | some k, some i =>
      if p.stowed || 72 ≤ a || 72 ≤ b || 72 ≤ r || !postable (getSeat s a) prio || !postable (getSeat s b) prio then
        refusePost s x (some p)
      else
        let wait := if bits w 35 18 = 0 then clMaxact s k else 100 * bits w 35 18
        let s := setPair (dropPick s x p) x i
          { used := true, lane := p.lane, prio := prio, seatA := a, seatB := b, ref := r, wait := wait, since := s.time }
        let s := postTo s x a prio p .seatA b i
        coxCount (postTo s x b prio p .seatB a i) x 2
    | _, _ => refusePost s x (some p)

/-- POSTP (R243, R264); not in the top cox or a half cox (R241). -/
def execPostp (x : CoxNo) (rd ra rb : Reg) (s : State) : Out State :=
  coxRun x [rd, ra, rb] (fun s => if x.val < 3 then coxMisuse s x.val else { st := pairPostDone s x.val rd ra rb }) s

/-- Member m of a parent crew (01 R14). -/
def memberOf (x m : Nat) : Option Nat :=
  if x = 0 then (if m < 2 then some (1 + m) else none)
  else if x ≤ 2 ∧ m < 4 then some (3 + 4 * (x - 1) + m) else none

/-- RELAY (R243, R250): a relay queue holds 64. -/
def relayDone (s : State) (x : Nat) (rd ra rb : Reg) : State :=
  let c := getCox s x
  match heldPick c (hGet c ra.toNat), memberOf x ((hGet c rd.toNat).toNat % 8) with
  | none, _ => refusePost s x none
  | some p, none => refusePost s x (some p)
  | some p, some m =>
    if 64 ≤ (getCox s m).relays.length then refusePost s x (some p)
    else
      let tag := hGet c rb.toNat &&& 0o3777
      let s := modCox (dropPick s x p) m fun k => { k with relays := k.relays ++ [(pickWord p.lane p.stowed, tag)] }
      coxWake (coxCount (coxCount s x 4) m 5) m

/-- RELAY (R243); not in a leaf cox (R241). -/
def execRelay (x : CoxNo) (rd ra rb : Reg) (s : State) : Out State :=
  coxRun x [rd, ra, rb] (fun s => if 3 ≤ x.val then coxMisuse s x.val else { st := relayDone s x.val rd ra rb }) s

/-- The lane of a relayed pick word. -/
def relayLane (w : Half) : LaneNo := BitVec.ofNat 16 w.toNat

/-- TAKER (R243); not in the top cox (R241). With no relay the pick word is 0, and the tag is a free value (log 5). An odd
rd, of which the rule says nothing, takes the pick word in h[rd] and the tag in the register after it, h0 after h31. DESIGN
CHOICE, log 97. -/
def execTaker (x : CoxNo) (rd : Reg) (s : State) : Out State :=
  coxRun x []
    (fun s =>
      if x.val = 0 then coxMisuse s x.val
      else match (getCox s x.val).relays with
      | [] =>
        let (n, s) := drawFree s
        { st := s, delayed := [(rd.toNat, 0), ((rd.toNat + 1) % 32, half0 (Config.openWord n))] }
      | r :: rs =>
        let l := relayLane r.1
        let at_ := s.time
        let k := classOf s l.toNat
        let p : Pick := { lane := l, stowed := r.1.toNat / 2 ^ 16 % 2 == 1, home := (k.map (clHome s)).getD 0,
                          pend := (k.map (clPend s)).getD 0, at_ := at_ }
        { st := modCox s x.val fun c => { c with relays := rs, picks := c.picks ++ [p] },
          delayed := [(rd.toNat, r.1), ((rd.toNat + 1) % 32, r.2)] }) s

/-- CNT (R243): one more in event counter imm, 0 to 47. The rule gives no effect of a higher imm: nothing is counted.
DESIGN CHOICE, log 97. -/
def execCnt (x : CoxNo) (imm : BitVec 18) (s : State) : Out State :=
  coxRun x [] (fun s => { st := if imm.toNat ≤ 47 then coxCount s x.val imm.toNat else s }) s

/-- PICK_RETURN (R250): a pick unused for 16 cox cycles, 14 ns in whole ns, returns and is counted. -/
def execPickReturn (x : CoxNo) (lane : LaneNo) (s : State) : Out State :=
  match (getCox s x.val).picks.find? fun p => p.lane == lane with
  | some p =>
    if moduleRuns s && decide (p.at_ + 14 ≤ s.time) then .next (coxCount (returnPick s x.val p) x.val 7) else .next s
  | none => .next s

/-- The row address of the stroke that begins (R245, R273). No rule says where in the course store the paddle course lies: it has
4,096 entries of its own. DESIGN CHOICE, log 118. -/
def rowAddress (s : State) (c : Cox) : Half :=
  let w := smGet 0 (if c.paddleSrc then c.paddleCourse else c.course) (strokeIndex s c)
  (if degraded c then half0 w else half1 w) &&& 0o7777

/-- The admission counts of a crew's classes return to zero at its boundary; HOME 15 counts with T (09 R290). -/
def clearAdmissions (s : State) (x : Nat) : State :=
  { s with lanes := { s.lanes with admitted := s.lanes.admitted.filter fun e =>
      !(clHome s e.1 == x || (x == 0 && clHome s e.1 == 15)) } }

/-- What a boundary does to the cox (R243, R246): WAITS completes with the row's address, or the stroke is missed. -/
def boundaryCox (s : State) (x : Nat) : State :=
  let c := getCox s x
  let s := coxCount s x 0
  match c.waiting with
  | some rd =>
    modCox s x fun k => { k with waiting := none, bflag := false, delayed := [(rd, rowAddress s c)] }
  | none => modCox (coxCount s x 1) x fun k => { k with bflag := true, idling := false }

/-- STROKE_BOUNDARY (R244 to R246, R267, 09 R290): once at each multiple of the stroke length. A stopped cox only has its
classes' admission counts cleared (16 R464). -/
def execStrokeBoundary (x : CoxNo) (s : State) : Out State :=
  let c := getCox s x.val
  let k := strokeNo s c
  if !s.pins.porN || dark s.power || !s.boot.done || s.time % strokeNs c ≠ 0 || c.lastStroke == some k then .next s
  else
    let s := modCox (clearAdmissions s x.val) x.val fun c => { c with lastStroke := some k }
    let s := if coxRuns s x.val then boundaryCox s x.val else s
    .next ((List.range 8).foldl (fun s i => postReferee s x.val i) s)

end Sys2Proof.Machine
end

