-- ==== Sys2Proof/Machine/Galley.lean ====
section
/-! DEFINITION. The galley and the scan engine (13): descriptor fetch and its checks, the bursts of a transfer, completion,
pause and way-enough. One data command is one burst at the destination, or one gathered element. -/

namespace Sys2Proof.Machine

/-- The galley's unit code, and the scan engine's (11 R362). -/
def uGalley : Nat := 0o200
def uScan : Nat := 0o201

/-- Is a way-enough on the channel waiting (R414: no new load, fetch or burst from its acceptance)? -/
def wayOnChannel (s : State) (ch : Nat) : Bool :=
  s.irrix.way.any fun w => !w.acted && ((w.kind == 4 && w.number == ch) || w.kind == 7)

/-- Word i of a fetched descriptor. -/
def Xfer.w (x : Xfer) (i : Nat) : Word := x.words.getD i 0
def xLen (x : Xfer) : Nat := bits (x.w 12) 29 0
def xOp (x : Xfer) : Nat := bits (x.w 13) 35 33
def xIndex (x : Xfer) : Bool := bit (x.w 13) 32
def xStat (x : Xfer) : Bool := bit (x.w 13) 31
def xOct (x : Xfer) : Nat := bits (x.w 13) 30 29
def xOffset (x : Xfer) : Nat := bits (x.w 13) 28 27
def xPalg (x : Xfer) : Nat := bits (x.w 13) 26 24
def xFold (x : Xfer) : Nat := bits (x.w 13) 23 22
def xEsize (x : Xfer) : Nat := bits (x.w 13) 21 14 + 1
def xStoff (x : Xfer) : Nat := bits (x.w 13) 13 0

/-- The words of the source span (R406, R407). -/
def xSrcN (x : Xfer) : Nat :=
  if xOct x = 1 then (xOffset x + xLen x + 3) / 4 else if xOct x = 2 then (xLen x + 3) / 4 else xLen x

/-- The words of the destination span (R406 to R408). -/
def xDstN (x : Xfer) : Nat :=
  if xIndex x then xLen x * xEsize x
  else if xOct x = 1 then (xLen x + 3) / 4 else if xOct x = 2 then (xOffset x + xLen x + 3) / 4 else xLen x

/-- The algorithm of a descriptor's check value (R416, R418). -/
def xAlg (x : Xfer) : CrcAlg :=
  let p := fun i => x.profile.getD i 0
  if xPalg x = 1 then crc32 else if xPalg x = 2 then crc32c else if xPalg x = 3 then crc16
  else ⟨bits (p 3) 4 0 + 1, bits (p 0) 31 0, bits (p 1) 31 0, bit (p 0) 35, bit (p 0) 34, bits (p 2) 31 0⟩

/-- The fold octets (R417). -/
def foldOctets (x : Xfer) : List Octet :=
  if xFold x = 1 then beOctets 2 (bits (x.w 15) 33 18) ++ beOctets 3 (bits (x.w 15) 17 0)
  else if xFold x = 2 then beOctets 5 (capCursor x.srcCap) else []

/-- The octets a proofing unit takes from data words (R417). -/
def proofOctets (x : Xfer) (ws : List Word) : List Octet :=
  if xOct x = 0 then ws.flatMap wordOctets else ws.flatMap presentOctets

/-- Data into the check value. -/
def xCheck (x : Xfer) (os : List Octet) : Xfer :=
  if xPalg x = 0 then x else { x with crc := crcUpdate (xAlg x) x.crc os }

/-- Options a descriptor without INDEX must leave zero (R408). -/
def xPlain (x : Xfer) : Bool := !xIndex x && xEsize x == 1 && xStoff x == 0 && !xStat x

/-- Do the source and destination spans of a COPY overlap in the capability addresses (R403)? -/
def xOverlap (x : Xfer) : Bool :=
  decide (capCursor x.srcCap < capCursor x.dstCap + xDstN x) && decide (capCursor x.dstCap < capCursor x.srcCap + xSrcN x)

/-- Does the descriptor fail order 1 of R403? -/
def xFormBad (c : Chan) (x : Xfer) : Bool :=
  let res := bits (x.w 12) 35 30 != 0 || bit (x.w 14) 34 || bits (x.w 14) 23 0 != 0 || bits (x.w 15) 35 34 != 0
  res || xLen x == 0 || xFold x == 3 ||
  match xOp x with
  | 0 =>
    if xIndex x then decide (4096 < xLen x) || xOct x == 1 || xOct x == 2
    else !xPlain x || xOverlap x
  | 1 => !xPlain x || x.dstCap.tag || x.idxCap.tag || xPalg x == 0 || xOct x == 1 || xOct x == 2
  | 2 => !xPlain x || x.srcCap.tag || x.idxCap.tag || xPalg x != 0 || xOct x != 0
  | 3 =>
    !xPlain x || !c.priv || x.srcCap.tag || xPalg x != 0 || xOct x != 0 || capCursor x.dstCap % 4 != 0
      || xLen x % 4 != 0 || bits (x.w 10) 35 16 != 0 || bits (x.w 11) 35 1 != 0
  | _ => true

/-- A span that a descriptor names: the capability, its first word and length, the rights it needs, the direction. -/
structure XSpan where
  cap   : Cap
  ea    : Nat
  n     : Nat
  need  : Nat
  write : Bool

/-- The spans checked at the fetch, in the order of R403 (R406 to R408, R420). -/
def xSpans (x : Xfer) : List XSpan :=
  let dst := fun need write => ⟨x.dstCap, capCursor x.dstCap, xDstN x, need, write⟩
  let src := ⟨x.srcCap, capCursor x.srcCap, xSrcN x, rRD, false⟩
  match xOp x with
  | 0 =>
    if xIndex x then
      let need := if xStat x then rRD + rWR else rRD
      let i := capCursor x.idxCap
      [dst rWR true, ⟨x.idxCap, i, xLen x, need, false⟩] ++
        if xStat x then [⟨x.idxCap, i + xStoff x, xLen x, need, true⟩] else []
    else [src, dst rWR true]
  | 1 => [src]
  | 2 => [dst rWR true]
  | _ => [dst (rRD + rWR) false]

/-- The failing step among ks for a span, as a seat at M for a PRIV channel, else as one at S on the channel's side
(R403, R404). -/
def spanStep (c : Chan) (p : XSpan) (ks : List Nat) : Option Nat :=
  (stepsFail (if c.priv then .M else .S) (decide (128 ≤ c.mapid))
    [{ cap := p.cap, ea := (p.ea : Int), n := p.n, need := p.need, write := p.write }] ks).map Trap.step

/-- Order 2 of R403: with INDEX the source is checked element by element, so only steps 1 to 4 are taken on SRC. -/
def xCapStep (c : Chan) (x : Xfer) : Option Nat :=
  let first := if xOp x = 0 ∧ xIndex x then spanStep c ⟨x.srcCap, capBase x.srcCap, 1, rRD, false⟩ [1, 2, 3, 4] else none
  match first with
  | some k => some k
  | none => (xSpans x).findSome? fun p => spanStep c p [1, 2, 3, 4, 5, 6]

/-- The physical page of a virtual page under the channel's map (10 R345, R346). -/
def xPage (s : State) (c : Chan) (store : Bool) (v : Nat) : Option Nat :=
  match walk s none c.mapid (4096 * v) none with
  | .error _ => none
  | .ok w =>
    if store && !(w.lvl == 2 && bit w.entry 10) then none
    else some (bits w.entry 35 12 + if w.lvl = 1 then v % 4096 else 0)

/-- The virtual pages of a span. -/
def pagesOf (p : XSpan) : List Nat :=
  let a := p.ea / 4096
  (List.range ((p.ea + p.n - 1) / 4096 + 1 - a)).map (a + ·)

/-- The pages of a span. -/
def spanPages (s : State) (c : Chan) (p : XSpan) : Option (List (Nat × Nat)) :=
  (pagesOf p).mapM fun v => (xPage s c p.write v).map fun g => (v, g)

/-- What the table reads of the spans' walks meet in memory (10 R321, R322, R334). -/
def xWalksMeet (s : State) (c : Chan) (ps : List XSpan) : State :=
  if c.priv then s else (ps.flatMap pagesOf).foldl (fun s v => walkMeets s none c.mapid (4096 * v) none) s

/-- Order 3 of R403: the translations the descriptor uses (R405); a PRIV channel translates nothing (R404). -/
def xPages (s : State) (c : Chan) (x : Xfer) : Option (List (Nat × Nat)) :=
  if c.priv then some [] else ((xSpans x).mapM (spanPages s c)).map List.flatten

/-- The span that R407 wants in the host window: the source of OCTMODE 1, the destination of OCTMODE 2. -/
def hostSpan (x : Xfer) : Option XSpan :=
  if xOct x = 1 then some ⟨x.srcCap, capCursor x.srcCap, xSrcN x, rRD, false⟩
  else if xOct x = 2 then some ⟨x.dstCap, capCursor x.dstCap, xDstN x, rWR, true⟩ else none

/-- Does a part of that span lie outside the host window (R407)? A page that has no translation is left to order 3 of
R403. DEDUCED, log 85. -/
def hostSpanBad (s : State) (c : Chan) (x : Xfer) : Bool :=
  match hostSpan x with
  | none => false
  | some p =>
    if c.priv then !isHost p.ea || !isHost (p.ea + p.n - 1)
    else (pagesOf p).any fun v => match xPage s c p.write v with
      | some g => !isHost (4096 * g)
      | none => false

/-- The physical word of a capability address. -/
def xPhys (c : Chan) (pages : List (Nat × Nat)) (v : Nat) : Nat :=
  if c.priv then v else ((pages.find? fun e => e.1 == v / 4096).map fun e => 4096 * e.2).getD 0 + v % 4096

/-- How many of the n words from v follow each other physically. -/
def contig (f : Nat → Nat) (v n : Nat) : Nat := ((List.range n).takeWhile fun i => f (v + i) == f v + i).length

/-- The physical runs of a span, each at most a page or as many pages as follow each other. -/
def spanRuns (f : Nat → Nat) : Nat → Nat → Nat → List (Nat × Nat)
  | 0, _, _ => []
  | fuel + 1, v, n =>
    if n = 0 then []
    else
      let k := min n (4096 - v % 4096)
      match spanRuns f fuel (v + k) (n - k) with
      | (p, m) :: rs => if f v + k = p then (f v, k + m) :: rs else (f v, k) :: (p, m) :: rs
      | [] => [(f v, k)]

/-- Order 4 of R403: the fence admits every span to the galley. -/
def xFence (s : State) (u : Nat) (f : Nat → Nat) : List XSpan → Except State Unit
  | [] => .ok ()
  | p :: ps =>
    match (spanRuns f (p.n / 4096 + 2) p.ea p.n).findSome? fun r =>
        match fenceUnit s { cls := 3, dir := if p.write then 1 else 0, p := r.1, n := r.2 } u with
        | .error s => some s
        | .ok _ => none with
    | some s => .error s
    | none => xFence s u f ps

/-- The transfer ends with a status and step; word 3 names what was not moved, or the element (R409, R411). -/
def xEnd (x : Xfer) (at_ st step : Nat) : Xfer :=
  { x with ended := true, status := if x.status = 0 then st else x.status, step := if x.status = 0 then step else x.step,
           fvalid := x.fvalid || st != 0, ffirst := if x.fvalid then x.ffirst else if st = 0 then 0 else at_ }

/-- The channel words that describe a transfer (R399). With INDEX, SRC keeps the capability's cursor. -/
def chanSees (c : Chan) (x : Xfer) : Chan :=
  let src := capCursor x.srcCap
  let dst := capCursor x.dstCap
  let so := if xIndex x then 0 else if xOct x = 1 then (xOffset x + x.moved) / 4 else if xOct x = 2 then x.moved / 4 else x.moved
  let dd := if xIndex x then c.eidx * xEsize x else if xOct x = 1 then x.moved / 4
    else if xOct x = 2 then (xOffset x + x.moved) / 4 else x.moved
  let rem := if xIndex x then (xLen x - c.eidx) * xEsize x else x.total - x.moved
  { c with xfer := some x, src := if xOp x ≤ 1 then BitVec.ofNat 36 (src + so) else 0,
           dst := if xOp x = 1 then 0 else BitVec.ofNat 36 (dst + dd), rem := rem }

/-- The ring address of the descriptor at HEAD (R400). -/
def chanEntry (c : Chan) : Nat := c.rbase.toNat + 16 * (c.head % 2 ^ c.rlog)

/-- The lane of CH_CLANE. -/
def chanLane (c : Chan) : Nat := bits c.clane 15 0

/-- May the galley put on the lane: kind 5, and for events an event lane (R409, 09 R275)? -/
def chanLaneOk (s : State) (c : Chan) (event : Bool) : Bool :=
  match classOf s (chanLane c) with
  | some k => clKind s k == 5 || (event && clKind s k == 6)
  | none => false

/-- A completion record (R409). -/
def recordWords (s : State) (ch : Nat) (c : Chan) (x : Xfer) (op : Nat) : List Word :=
  let sweep := op == 3
  [field 30 x.status ||| field 26 x.step ||| field 0 ch, field 33 op ||| field 0 c.head,
   field 0 ((if sweep then x.moved / 4 - x.skipped - x.unwritten else x.moved) % 2 ^ 30),
   flag 35 x.fvalid ||| field 0 (if x.fvalid then x.ffirst % 2 ^ 30 else 0), field 0 (x.failed % 2 ^ 30),
   field 0 (if sweep then x.skipped % 2 ^ 32 else if xPalg x = 0 then 0 else crcFinish (xAlg x) x.crc % 2 ^ 32),
   doubleLo s.time, doubleHi s.time]

/-- The ring read failed: FAULTED, the event, the record with OP 0 (R412). -/
def chanFault (s : State) (ch st : Nat) : State :=
  let c := { getChan s ch with state := 6 }
  let s := logEvent 4 (unitSource uGalley) (unitCount (setChan s ch c) uGalley 11 1)
  let x : Xfer := { words := [], srcCap := {}, dstCap := {}, idxCap := {}, pages := [], profile := [], status := st }
  if chanLaneOk s c c.cmode then (putOrHold s uGalley none none (chanLane c) (recordWords s ch c x 0)).2 else s

/-- A fetched descriptor before its checks. -/
def xferOf (s : State) (ws : List Word) (tags : List Bool) : Xfer :=
  let cap := fun i : Nat => ({ w0 := ws.getD (4 * i) 0, w1 := ws.getD (4 * i + 1) 0, w2 := ws.getD (4 * i + 2) 0,
                               w3 := ws.getD (4 * i + 3) 0, tag := tags.getD i false } : Cap)
  let sweep := bits (ws.getD 13 0) 35 33 == 3
  let p := bits (ws.getD 13 0) 26 24
  let x : Xfer := {
    words := ws, srcCap := cap 0, dstCap := cap 1, idxCap := if sweep then {} else cap 2, pages := [],
    profile := if 4 ≤ p then smGetList 0 s.galley.profiles (4 * (p - 4)) 4 else [] }
  { x with total := xLen x, crc := (xAlg x).init % 2 ^ (xAlg x).width }

/-- The unit that makes the transfer's accesses: load and store engines carry every copy, and the scan engine reads or writes
memory without a second operand (13, introduction). -/
def xUnit (x : Xfer) : Nat := if xOp x = 0 then uGalley else uScan

/-- The checks of R403 on a fetched descriptor, in their order; R407's on the host window is one of order 1. -/
def xChecked (s : State) (c : Chan) (x : Xfer) : Xfer × State :=
  if xFormBad c x then (xEnd x 0 stBadDescriptor 0, s)
  else
    let s := xWalksMeet s c (hostSpan x).toList
    if hostSpanBad s c x then (xEnd x 0 stBadDescriptor 0, s)
    else match xCapStep c x with
    | some k => (xEnd x 0 stCapability k, s)
    | none =>
      let s := xWalksMeet s c (xSpans x)
      match xPages s c x with
      | none => (xEnd x 0 stCapability 7, s)
      | some pages =>
        match xFence s (xUnit x) (xPhys c pages) (xSpans x) with
        | .error s => (xEnd x 0 stFence 8, unitCount s uGalley 10 1)
        | .ok _ => ({ xCheck x (foldOctets x) with pages := pages }, s)

/-- The proofing units in use (R417). -/
def proofsUsed (s : State) : Nat :=
  (s.galley.chans.filter fun e => match e.2.xfer with
    | some x => x.proof && !x.ended
    | none => false).length

/-- Has the descriptor its proofing unit, or needs it none, or is one of the 8 free (R417)? -/
def proofFree (s : State) (x : Xfer) : Bool := xPalg x == 0 || x.proof || decide (proofsUsed s < 8)

/-- Is a descriptor of the channel to be fetched now (R400)? -/
def fetchReady (s : State) (ch : Nat) (c : Chan) : Bool :=
  galleyRuns s && c.enable && c.state == 0 && !c.pause && c.head != c.tail && c.xfer.isNone && !wayOnChannel s ch

/-- Does the channel's transfer run on: not ended, not under way-enough, its proofing unit at hand? -/
def moveReady (s : State) (ch : Nat) (c : Chan) (x : Xfer) : Bool :=
  galleyRuns s && c.state == 2 && !c.pause && !x.ended && !wayOnChannel s ch && proofFree s x

/-- Has the channel work ready? -/
def chanReady (s : State) (ch : Nat) (c : Chan) : Bool :=
  fetchReady s ch c || match c.xfer with
    | some x => moveReady s ch c x
    | none => false

/-- Is the channel the one that the galley serves next (R396): no channel of a higher PRIO has work ready, and in the round of
equal PRIO none stands between the one served last and it? -/
def chanNext (s : State) (ch : Nat) : Bool :=
  let p := (getChan s ch).prio
  let last := smGet 1023 s.galley.served p
  let turn := fun a => (1024 + a - last - 1) % 1024
  s.galley.chans.all fun e => e.1 == ch || !chanReady s e.1 e.2 || decide (e.2.prio < p)
    || (e.2.prio == p && decide (turn ch ≤ turn e.1))

/-- The galley has served the channel. -/
def chanServed (s : State) (ch : Nat) : State :=
  { s with galley := { s.galley with served := smSet 1023 s.galley.served (getChan s ch).prio ch } }

/-- DESCRIPTOR_FETCH (R396, R400, R403, R412). Tags of the ring count only in a region with TAGCAP (R401). -/
def execDescriptorFetch (chn : ChannelNo) (s : State) : Out State :=
  let ch := chn.val
  let c := getChan s ch
  if fetchReady s ch c && chanNext s ch then
    let s := unitCount (chanServed s ch) uGalley 0 1
    let a := chanEntry c
    match fenceUnit s { cls := 3, dir := 0, p := a, n := 16 } uGalley with
    | .error s => .next (chanFault (unitCount s uGalley 10 1) ch stFence)
    | .ok g =>
      let s := meetSpan s a 16
      if (poisonIn s.mem a 16).isSome then .next (chanFault s ch stPoison)
      else
        let ws := memWords s.mem a 16
        let tags := (List.range 4).map fun i => g.tagcap && memTag s.mem (a + 4 * i)
        let (x, s) := xChecked s c (xferOf s ws tags)
        .next (setChan s ch (chanSees { c with state := 2, eidx := 0, part := 0 } x))
  else .next s

/-- The words to the end of the burst block at a physical word: a stripe of bulk, else a 64-word block (R406). -/
def burstRoom (p : Nat) : Nat :=
  if isBulk p then (stripeSpan p).1 + (stripeSpan p).2 - p else 64 - p % 64

/-- The length of the burst at v, of at most n words. -/
def burstLen (f : Nat → Nat) (v n : Nat) : Nat := contig f v (min n (burstRoom (f v)))

/-- How many of the n words from v at most m bursts load. -/
def loadReach (f : Nat → Nat) : Nat → Nat → Nat → Nat
  | 0, _, _ => 0
  | m + 1, v, n =>
    if n = 0 then 0
    else
      let k := burstLen f v n
      k + loadReach f m (v + k) (n - k)

/-- The bursts that a channel may hold in the buffer at once (R396, R398): a store takes the words of no more loads. -/
def chanBursts (c : Chan) : Nat := max 1 c.buflim

/-- Loads n words from v by bursts, each checked at the fence (11 R365): the words, and the status of a burst that failed. -/
def loadBursts (u : Nat) (f : Nat → Nat) : Nat → State → Nat → Nat → List Word × Option Nat × State
  | 0, s, _, _ => ([], none, s)
  | fuel + 1, s, v, n =>
    if n = 0 then ([], none, s)
    else
      let k := burstLen f v n
      match unitFetch s 3 u (f v) k with
      | .error (st, s) => ([], some st, if st = stFence then unitCount s uGalley 10 1 else s)
      | .ok (ws, s) =>
        let (rest, e, s) := loadBursts u f fuel s (v + k) (n - k)
        (ws ++ rest, e, s)

/-- One burst of words at a physical address: a burst that covers a stripe is a 40-word write (R406). -/
def burstWrite (s : State) (a : Nat) (ws : List Word) : State :=
  if isSystem a || isHost a then physWrite s ⟨3, false⟩ a ws else putBurst s a ws

/-- Stores words from v by bursts, each checked at the fence: whether all were admitted, and how many words went out. -/
def storeBursts (u : Nat) (f : Nat → Nat) : Nat → State → Nat → List Word → (Bool × Nat) × State
  | 0, s, _, _ => ((true, 0), s)
  | fuel + 1, s, v, ws =>
    if ws.isEmpty then ((true, 0), s)
    else
      let k := burstLen f v ws.length
      match fenceUnit s { cls := 3, dir := 1, p := f v, n := k } u with
      | .error s => ((false, 0), unitCount s uGalley 10 1)
      | .ok _ =>
        let ((ok, m), s) := storeBursts u f fuel (burstWrite s (f v) (ws.take k)) (v + k) (ws.drop k)
        ((ok, m + k), s)

/-- The step that goes with a status met after the fetch (R411). -/
def lateStep (st : Nat) : Nat := if st = stFence then 8 else 0

/-- The first word that OCTMODE 3 refuses: gapped, empty, or short before the last (R407). -/
def badPacked (x : Xfer) (ws : List Word) (left : Nat) : Option Nat :=
  if xOct x ≠ 3 then none
  else (List.range ws.length).find? fun i =>
    let w := ws.getD i 0
    !prefixForm w || w == 0 || (presentOctets w).length != 4 && i + 1 != left

/-- What a burst's data comes to: the words that pass, and the status that ends the descriptor after them. -/
def burstData (x : Xfer) (ws : List Word) (e : Option Nat) (left : Nat) : List Word × Option Nat :=
  match badPacked x ws left with
  | some i => (ws.take i, some stBadDescriptor)
  | none => (ws, e)

/-- After a burst: moved has risen by n; the descriptor ends at a failure or when everything has moved. -/
def xMoved (x : Xfer) (n : Nat) (e : Option Nat) : Xfer :=
  let x := { x with moved := x.moved + n }
  match e with
  | some st => xEnd x x.moved st (lateStep st)
  | none => if x.moved = x.total then xEnd x 0 0 0 else x

/-- How many words one burst of a COPY in OCTMODE 0 or 3 moves (R406, R407): what the channel's buffer bursts hold (R396). -/
def copyReach (c : Chan) (x : Xfer) : Nat :=
  let f := xPhys c x.pages
  loadReach f (chanBursts c) (capCursor x.srcCap + x.moved) (burstLen f (capCursor x.dstCap + x.moved) (x.total - x.moved))

/-- A burst of a COPY in OCTMODE 0 or 3 (R406, R407). -/
def copyWords (s : State) (c : Chan) (x : Xfer) : Xfer × State :=
  let f := xPhys c x.pages
  let d := capCursor x.dstCap + x.moved
  let n := copyReach c x
  let (ws, e, s) := loadBursts uGalley f n s (capCursor x.srcCap + x.moved) n
  let (ws, e) := burstData x ws e (x.total - x.moved)
  let ((ok, _), s) := storeBursts uGalley f ws.length s d ws
  if ok then (xMoved (xCheck x (proofOctets x ws)) ws.length e, unitCount s uGalley 9 ws.length)
  else (xMoved x 0 (some stFence), s)

/-- Octet slots as words; an absent slot is 0. -/
def packSlots (os : List (Option Octet)) : List Word :=
  (chunks 4 os).map fun c => (List.range c.length).foldl (fun w k =>
    match c.getD k none with
    | some o => w ||| field (9 * k) (256 + o.toNat)
    | none => w) 0

/-- The first word of a packed sequence that OCTMODE 2 refuses; first is the index of ws's first word (R407). -/
def badSequence (x : Xfer) (first : Nat) (ws : List Word) : Option Nat :=
  if xOct x ≠ 2 then none
  else (List.range ws.length).find? fun i =>
    let w := ws.getD i 0
    !prefixForm w || w == 0 || decide ((presentOctets w).length < min 4 (x.total - 4 * (first + i)))

/-- How many of n octets from octet so of the source, to octet dd of the destination, the channel's buffer bursts bring
(R396): to the end of a destination word. A source word that straddles two steps was loaded with the step before. v is the
source's first word. DEDUCED, log 20. -/
def octetReach (c : Chan) (f : Nat → Nat) (v so dd n : Nat) : Nat :=
  let words := (so + n - 1) / 4 + 1 - so / 4
  let first := if so % 4 = 0 then 0 else 1
  let m := first + loadReach f (chanBursts c) (v + so / 4 + first) (words - first)
  let got := 4 * m - so % 4
  if n ≤ got then n else got - (dd + got) % 4

/-- The octet of the source, and of the destination, that a COPY in OCTMODE 1 or 2 moves next, from the start of the first word
of each (R407). -/
def octetFrom (x : Xfer) : Nat := (if xOct x = 1 then xOffset x else 0) + x.moved
def octetTo (x : Xfer) : Nat := (if xOct x = 2 then xOffset x else 0) + x.moved

/-- How many octets one burst of a COPY in OCTMODE 1 or 2 moves (R407), and the source words that hold them. -/
def copyOctetReach (c : Chan) (x : Xfer) : Nat × Nat :=
  let f := xPhys c x.pages
  let dd := octetTo x
  let room := burstLen f (capCursor x.dstCap + dd / 4) (xDstN x - dd / 4)
  let n := octetReach c f (capCursor x.srcCap) (octetFrom x) dd (min (x.total - x.moved) (4 * room - dd % 4))
  (n, (octetFrom x + n - 1) / 4 + 1 - octetFrom x / 4)

/-- A burst of a COPY in OCTMODE 1 or 2 (R407). -/
def copyOctets (s : State) (c : Chan) (x : Xfer) : Xfer × State :=
  let f := xPhys c x.pages
  let so := octetFrom x
  let dd := octetTo x
  let d := capCursor x.dstCap + dd / 4
  let (n, words) := copyOctetReach c x
  let (ws, e, s) := loadBursts uGalley f words s (capCursor x.srcCap + so / 4) words
  let (ws, e) := match badSequence x (so / 4) ws with
    | some i => (ws.take i, some stBadDescriptor)
    | none => (ws, e)
  let os := ((ws.flatMap presentOctets).drop (so % 4)).take n
  let out := packSlots (List.replicate (if os.isEmpty then 0 else dd % 4) none ++ os.map some)
  let ((ok, _), s) := storeBursts uGalley f out.length s d out
  if ok then (xMoved (xCheck x os) os.length e, unitCount s uGalley 9 out.length)
  else (xMoved x 0 (some stFence), s)

/-- Where a gathered element's source lies: its index word is read, and the span checked, translated and passed to the fence
(R408). The first word and the pages, or the element's status and step. -/
def elementSpan (s : State) (c : Chan) (x : Xfer) : Except (Nat × Nat × State) (Nat × List (Nat × Nat) × State) :=
  let f := xPhys c x.pages
  match loadBursts uGalley f 1 s (capCursor x.idxCap + c.eidx) 1 with
  | (_, some st, s) => .error (st, lateStep st, s)
  | (ix, none, s) =>
    let a := capBase x.srcCap + (ix.getD 0 0).toNat
    let p : XSpan := ⟨x.srcCap, a, xEsize x, rRD, false⟩
    match spanStep c p [6] with
    | some k => .error (stCapability, k, s)
    | none =>
      let s := xWalksMeet s c [p]
      match if c.priv then some [] else spanPages s c p with
      | none => .error (stCapability, 7, s)
      | some pages =>
        match xFence s uGalley (xPhys c pages) [p] with
        | .error s => .error (stFence, 8, unitCount s uGalley 10 1)
        | .ok _ => .ok (a, pages, s)

/-- What a gathered element's source gives: its words, its first word and its pages, or its status and step (R408). -/
def elementSource (s : State) (c : Chan) (x : Xfer) :
    Except (Nat × Nat × State) (List Word × Nat × List (Nat × Nat) × State) :=
  match elementSpan s c x with
  | .error e => .error e
  | .ok (a, pages, s) =>
    match loadBursts uGalley (xPhys c pages) (xEsize x) s a (xEsize x) with
    | (_, some st, s) => .error (st, lateStep st, s)
    | (ws, none, s) => .ok (ws, a, pages, s)

/-- The status word of an element (R408). -/
def putStat (s : State) (c : Chan) (x : Xfer) (st step : Nat) : Bool × State :=
  if xStat x then
    match storeBursts uGalley (xPhys c x.pages) 1 s (capCursor x.idxCap + xStoff x + c.eidx) [field 30 st ||| field 0 step] with
    | ((ok, _), s) => (ok, s)
  else (true, s)

/-- After an element: the next one, or the end (R408, R409). -/
def elementDone (c : Chan) (x : Xfer) (ok : Bool) : Xfer × Chan :=
  let x := if ok then x else xEnd x c.eidx stFence 8
  let c := { c with eidx := c.eidx + 1 }
  (if x.ended || c.eidx == xLen x then xEnd x 0 0 0 else x, c)

/-- Words of a gathered element go out: those stored, and the status and step that end the descriptor, if any (R407, R411). -/
def elementStore (s : State) (c : Chan) (x : Xfer) (d left : Nat) (ws : List Word) : List Word × Option (Nat × Nat) × State :=
  let (ws, e) := burstData x ws none left
  match storeBursts uGalley (xPhys c x.pages) ws.length s d ws with
  | ((true, _), s) => (ws, e.map (·, 0), s)
  | ((false, m), s) => (ws.take m, some (stFence, 8), s)

/-- An element of more words than the channel's buffer bursts hold goes out in parts, each loaded again from the physical words
g gives and then stored (R396, R408). A part that can no longer be loaded ends it with its status. DEDUCED, log 20. -/
def elementParts (c : Chan) (x : Xfer) (g : Nat → Nat) :
    Nat → State → Nat → Nat → Nat → Nat → List Word × Option (Nat × Nat) × State
  | 0, s, _, _, _, _ => ([], none, s)
  | fuel + 1, s, v, d, n, left =>
    if n = 0 then ([], none, s)
    else
      let k := loadReach g (chanBursts c) v n
      match loadBursts uGalley g k s v k with
      | (_, some st, s) => ([], some (st, lateStep st), s)
      | (ws, none, s) =>
        match elementStore s c x d left ws with
        | (out, some e, s) => (out, some e, s)
        | (out, none, s) =>
          let (rest, e, s) := elementParts c x g fuel s (v + k) (d + k) (n - k) (left - k)
          (out ++ rest, e, s)

/-- One element of a gather (R408). An element that fails writes nothing, so all of it is read before its first store;
where that is more than the channel's buffer bursts hold, the stores load it again. DEDUCED, log 20. A word that R407 refuses,
or a burst that the fence refuses, ends the descriptor: the words before it are moved, and the element has failed (R409,
R411). -/
def copyElement (s : State) (c : Chan) (x : Xfer) : Xfer × Chan × State :=
  match elementSource s c x with
  | .error (st, step, s) =>
    let x := { x with failed := x.failed + 1, fvalid := true, ffirst := if x.fvalid then x.ffirst else c.eidx,
                      status := if x.status = 0 then st else x.status, step := if x.status = 0 then step else x.step }
    let (ok, s) := putStat s c x st step
    let (x, c) := elementDone c x ok
    (x, c, s)
  | .ok (ws, a, pages, s) =>
    let left := xEsize x * (xLen x - c.eidx)
    let d := capCursor x.dstCap + c.eidx * xEsize x
    let g := xPhys c pages
    let (out, e, s) :=
      if xEsize x ≤ loadReach g (chanBursts c) a (xEsize x) then elementStore s c x d left ws
      else elementParts c x g (xEsize x) s a d (xEsize x) left
    let x := { xCheck x (proofOctets x out) with moved := x.moved + out.length }
    let s := unitCount s uGalley 9 out.length
    match e with
    | some (st, step) => (xEnd { x with failed := x.failed + 1 } c.eidx st step, c, s)
    | none =>
      let (ok, s) := putStat s c x 0 0
      let (x, c) := elementDone c x ok
      (x, c, s)

/-- The transfer that a data command of operation op carries on: its channel's turn has come (R396), and it has its proofing
unit from here on (R417). The state has the channel served. -/
def runningXfer (s : State) (ch op : Nat) : Option (Xfer × State) :=
  let c := getChan s ch
  match c.xfer with
  | some x =>
    if xOp x == op && moveReady s ch c x && chanNext s ch then
      some ({ x with proof := xPalg x != 0 }, chanServed s ch)
    else none
  | none => none

/-- One burst or element of a COPY. -/
def copyStep (s : State) (ch : Nat) (x : Xfer) : State :=
  let c := getChan s ch
  if xIndex x then
    let (x, c, s) := copyElement s c x
    setChan s ch (chanSees c x)
  else
    let (x, s) := if xOct x = 1 ∨ xOct x = 2 then copyOctets s c x else copyWords s c x
    setChan s ch (chanSees c x)

/-- COPY (R406 to R408). -/
def execCopy (chn : ChannelNo) (s : State) : Out State :=
  match runningXfer s chn.val 0 with
  | some (x, s) => .next (copyStep s chn.val x)
  | none => .next s

/-- One burst of a PROOF. -/
def proofStep (s : State) (ch : Nat) (x : Xfer) : State :=
  let c := getChan s ch
  let f := xPhys c x.pages
  let v := capCursor x.srcCap + x.moved
  let n := burstLen f v (x.total - x.moved)
  let (ws, e, s) := loadBursts uScan f n s v n
  let (ws, e) := burstData x ws e (x.total - x.moved)
  setChan s ch (chanSees c (xMoved (xCheck x (proofOctets x ws)) ws.length e))

/-- PROOF (R402, R416, R417). -/
def execProof (chn : ChannelNo) (s : State) : Out State :=
  match runningXfer s chn.val 1 with
  | some (x, s) => .next (proofStep s chn.val x)
  | none => .next s

/-- ZERO (R419): one burst. -/
def execZero (chn : ChannelNo) (s : State) : Out State :=
  let ch := chn.val
  match runningXfer s ch 2 with
  | none => .next s
  | some (x, s) =>
    let c := getChan s ch
    let f := xPhys c x.pages
    let d := capCursor x.dstCap + x.moved
    let n := burstLen f d (x.total - x.moved)
    let part := isBulk (f d) && stripeSpan (f d) != (f d, n)
    match fenceUnit s { cls := 3, dir := 1, p := f d, n := n } uScan with
    | .error s => .next (setChan (unitCount s uGalley 10 1) ch (chanSees c (xMoved x 0 (some stFence))))
    | .ok _ =>
      let s := if part then meetWords s [f d] else s
      if part && poisonedAt s.mem (f d) then .next (setChan s ch (chanSees c (xMoved x 0 (some stPoison))))
      else
        let s := burstWrite s (f d) (List.replicate n 0)
        .next (setChan (unitCount s uGalley 9 n) ch (chanSees c (xMoved x n none)))

/-- Does the sweep clear a capability's tag (R420)? -/
def sweepMatch (x : Xfer) (c : Cap) : Bool :=
  if bit (x.w 11) 0 then c.tag && capSeal c == bits (x.w 10) 15 0
  else rangeMatch (x.w 8).toNat (x.w 9).toNat c

/-- The granule at a in the stick of a seat. -/
def stickCap (x : Seat) (a : Nat) : Cap :=
  let o := a % 16384
  let w := fun i => smGet 0 x.stick (o + i)
  { w0 := w 0, w1 := w 1, w2 := w 2, w3 := w 3, tag := smGet false x.stickTag (o / 4) }

/-- A swept word in the window of a bound stick (R421): how many tags were cleared, and the seats. -/
def sweepSticks (x : Xfer) (a : Nat) (s : State) : Nat × State :=
  s.seats.foldl (fun (r : Nat × State) e =>
    let y := getSeat r.2 e.1
    if y.stickOn && a / 16384 == y.stickBase && sweepMatch x (stickCap y a) then
      (r.1 + 1, modSeat r.2 e.1 fun y => { y with stickTag := smSet false y.stickTag (a % 16384 / 4) false })
    else r) (0, s)

/-- One granule of a sweep (R420, R421): one of a poisoned or an unwritten stripe is passed over. -/
def sweepGranule (a : Nat) (r : Xfer × State) : Xfer × State :=
  let (x, s) := r
  let (n, s) := sweepSticks x a s
  let x := { x with failed := x.failed + n }
  let s := meetWords s [a]
  if poisonedAt s.mem a then ({ x with skipped := x.skipped + 1 }, s)
  else if isBulk a && smGet 0 s.mem.gen (stripeOf a) == 0 then ({ x with unwritten := x.unwritten + 1 }, s)
  else if sweepMatch x (memCap s.mem a) then ({ x with failed := x.failed + 1 }, clearTag s (a / 4))
  else (x, s)

/-- TAG_SWEEP (R420, R421): one burst, checked as a galley read. A poisoned case granule ends it at that burst (R411). -/
def execTagSweep (chn : ChannelNo) (s : State) : Out State :=
  let ch := chn.val
  match runningXfer s ch 3 with
  | none => .next s
  | some (x, s) =>
    let c := getChan s ch
    let a := capCursor x.dstCap + x.moved
    let n := min (x.total - x.moved) (burstRoom a)
    match fenceUnit s { cls := 3, dir := 0, p := a, n := n } uScan with
    | .error s => .next (setChan (unitCount s uGalley 10 1) ch (chanSees c (xMoved x 0 (some stFence))))
    | .ok _ =>
      let s := if isCase a then meetSpan s a n else s
      if isCase a && (poisonIn s.mem a n).isSome then .next (setChan s ch (chanSees c (xMoved x 0 (some stPoison))))
      else
        let (x, s) := (List.range (n / 4)).foldl (fun r i => sweepGranule (a + 4 * i) r) (x, s)
        .next (setChan s ch (chanSees c (xMoved x n none)))

/-- The record or event of a completed descriptor: its words, none when no event is due yet, and the channel (R409). -/
def chanReport (s : State) (ch : Nat) (c : Chan) (x : Xfer) : Option (List Word) × Chan :=
  if c.cmode then
    let n := c.evCount + 1
    let st := if c.evStatus = 0 then x.status else c.evStatus
    if max 1 (bits c.clane 31 16) ≤ n || x.status != 0 then
      (some [field 30 st ||| field 18 (min n 4095) ||| field 0 ch], { c with evCount := 0, evStatus := 0 })
    else (none, { c with evCount := n, evStatus := st })
  else (some (recordWords s ch c x (xOp x)), c)

/-- Word 14 of a descriptor at its completion (R401, R410). -/
def writeDone (s : State) (c : Chan) (x : Xfer) : State :=
  match unitStore s 3 uGalley (chanEntry c + 14) [flag 35 true ||| field 28 x.status ||| field 24 x.step] with
  | .ok s => s
  | .error s => unitCount s uGalley 10 1

/-- DESCRIPTOR_COMPLETION (R409, R410): word 14, then the record or event; a refused one is held and the channel is in HOLD
(09 R292). The count and the status since the last message stay until an event has gone (R409). -/
def execDescriptorCompletion (chn : ChannelNo) (s : State) : Out State :=
  let ch := chn.val
  let c := getChan s ch
  match c.xfer with
  | none => .next s
  | some x =>
    if galleyRuns s && x.ended && c.state == 2 && !wayOnChannel s ch then
      let s := completeCount (unitCount (writeDone s c x) uGalley 8 1) uGalley x.status
      let old := c
      let (ws, c) := chanReport s ch c x
      let s := setChan s ch c
      match ws with
      | none => .next (chanCommitted s ch)
      | some ws =>
        if chanLaneOk s c c.cmode then
          match putOrHold s uGalley (some ch) none (chanLane c) ws with
          | (0o11, s) =>
            .next (setChan s ch { getChan s ch with hold := true, state := 4, evCount := old.evCount, evStatus := old.evStatus })
          | (_, s) => .next (chanCommitted s ch)
        else .next (chanCommitted s ch)
    else .next s

/-- A store of a seat to a galley word, after its address is translated: the fence, then the galley (R398). Nothing happens
when the seat cannot issue or the fence refuses (log 11): the store instruction itself takes the trap. -/
def galleyStore (s : State) (q a : Nat) (v : Word) : State :=
  if canIssue s q then
    match fenceCheck s (seatReq (statusOfSeat s q) 1 a 1 false) with
    | .ok _ => seatWrite (timedNote q s (a, false)) q a [v]
    | .error _ => s
  else s

/-- The address of CH_CTL (R397). -/
def ctlAddr (ch : ChannelNo) : Nat := 0o201000000 + 16 * ch.val

/-- CHANNEL_ENABLE (R399): a write of CH_CTL with ENABLE = 1. -/
def execChannelEnable (q : SeatNo) (ch : ChannelNo) (v : Word) (s : State) : Out State :=
  .next (if bit v 35 then galleyStore s q.val (ctlAddr ch) v else s)

/-- CHANNEL_PAUSE (R413): a write of CH_CTL with PAUSE = 1. -/
def execChannelPause (q : SeatNo) (ch : ChannelNo) (v : Word) (s : State) : Out State :=
  .next (if bit v 34 then galleyStore s q.val (ctlAddr ch) v else s)

/-- CHANNEL_RESUME (R413): a write of CH_CTL with PAUSE = 0. -/
def execChannelResume (q : SeatNo) (ch : ChannelNo) (v : Word) (s : State) : Out State :=
  .next (if bit v 34 then s else galleyStore s q.val (ctlAddr ch) v)

/-- GALLEY_DOORBELL (R400). -/
def execGalleyDoorbell (q : SeatNo) (ch : ChannelNo) (v : Word) (s : State) : Out State :=
  .next (galleyStore s q.val (0o201040000 + ch.val) v)

/-- Has the channel's descriptor ended, its completion still to come? -/
def chanEnding (c : Chan) : Bool :=
  c.state == 2 && match c.xfer with
    | some x => x.ended
    | none => false

/-- CHANNEL_PAUSED (R413): the drain is over; a held record does not delay it, a descriptor that has ended completes first
(R415). -/
def execChannelPaused (chn : ChannelNo) (s : State) : Out State :=
  let c := getChan s chn.val
  if galleyRuns s && c.pause && (c.state == 0 || c.state == 1 || c.state == 2 || c.state == 4) && !chanEnding c then
    .next (setChan s chn.val { c with paused := true, state := 3 })
  else .next s

/-- A message put outside credit if the lane is full (R414, 16 R465). -/
def putSurely (s : State) (l : Nat) (ws : List Word) : State :=
  match putLane s l ws with
  | (0o11, s) => (putForce s l ws).2
  | (_, s) => s

/-- A way-enough on a channel (R414, R415): the descriptor in progress completes ABORTED, HEAD passes it, STOPPED. A record
the channel still holds is superseded by the ABORTED one (09 R292). PAUSE keeps its value. -/
def channelAbort (s : State) (ch : Nat) : State :=
  let held := s.lanes.held.filter fun h => h.channel != some ch
  let s := { s with lanes := { s.lanes with held := held } }
  let c := getChan s ch
  match c.xfer with
  | none => setChan s ch { c with state := 5, hold := false }
  | some x =>
    let first := if x.fvalid then x.ffirst else if xIndex x then c.eidx else x.moved
    let x := { x with status := stAborted, step := 0, fvalid := true, ffirst := first }
    let s := completeCount (unitCount (writeDone s c x) uGalley 8 1) uGalley stAborted
    let (ws, c) := chanReport s ch c x
    let s := setChan s ch c
    let s := match ws with
      | some ws => if chanLaneOk s c c.cmode then putSurely s (chanLane c) ws else s
      | none => s
    let s := chanCommitted s ch
    setChan s ch { getChan s ch with state := 5 }

/-- Does the next burst or element of the transfer read the host window (R406 to R408)? -/
def readsHost (s : State) (c : Chan) (x : Xfer) : Bool :=
  let f := xPhys c x.pages
  let any := fun f v n => (List.range n).any fun i => isHost (f (v + i))
  let v := capCursor x.srcCap + x.moved
  if xOp x = 0 then
    if xIndex x then
      isHost (f (capCursor x.idxCap + c.eidx)) || match elementSpan s c x with
        | .ok (a, pages, _) => any (xPhys c pages) a (xEsize x)
        | .error _ => false
    else if xOct x = 1 ∨ xOct x = 2 then any f (capCursor x.srcCap + octetFrom x / 4) (copyOctetReach c x).2
    else any f v (copyReach c x)
  else decide (xOp x = 1) && any f v (burstLen f v (x.total - x.moved))

/-- A read of the host window by the channel's transfer times out (10 R341, R411), while it runs or drains (R415): the
descriptor or the element ends BUS_ERROR. -/
def galleyTimeout (s : State) (ch : Nat) : State :=
  let c := getChan s ch
  match c.xfer with
  | none => s
  | some x =>
    if moveReady s ch { c with pause := false } x && readsHost s c x then
      let t := { s with pins := { s.pins with readFails := true } }
      let t := if xOp x = 0 then copyStep t ch x else proofStep t ch x
      { t with pins := { t.pins with readFails := false } }
    else s

end Sys2Proof.Machine
end

