-- ==== Sys2Proof/Machine/Counters.lean ====
section
/-! DEFINITION. Counter dumps (15 R445 to R447). -/

namespace Sys2Proof.Machine

/-- The n counters of a block. -/
def blockKeys (off n : Nat) : List Nat := (List.range n).map (counterKey off)

/-- The lanes of DUMP_GEO, as far as there are lanes (R446). -/
def dumpLanes (g : Galley) : List Nat :=
  ((List.range (bits g.dumpGeo 15 0 + 1)).map (bits g.dumpGeo 31 16 + ·)).filter fun l => decide (l < 65536)

/-- The counters that GROUPS selects, in counter-space order (R445, R446). -/
def dumpKeys (g : Galley) : List Nat :=
  let on := fun b => g.dumpGroups.testBit b
  (if on 4 then (List.range 72).flatMap fun q => blockKeys (0o1000 * q) 192 else [])
    ++ (if on 3 then (List.range 11).flatMap fun x => blockKeys (0o110000 + 0o200 * x) 48 else [])
    ++ (if on 2 then unitCodes.flatMap fun u => blockKeys (0o120000 + 0o40 * u) 16 else [])
    ++ (if on 1 then (dumpLanes g).flatMap fun l => blockKeys (0o1000000 + 8 * l) 4 else [])
    ++ (if on 1 then (dumpLanes g).flatMap fun l => blockKeys (0o3000000 + 2 * l) 1 else [])
    ++ (if on 0 then (List.range 1024).flatMap fun k => blockKeys (0o3500000 + 0o10 * k) 4 else [])

/-- What a counter has counted of the pipeline's events goes into the counter store and into the shadow of a dump alike. -/
def shadowSettle (r : SMap Nat × State) (k : Nat) : SMap Nat × State :=
  if pipelineKey k then (counterBump r.1 k (pipelineNow r.2 k), counterSettle r.2 k) else r

/-- The words of a dump record from the copied counts (R446). -/
def dumpWords (s : State) (shadow : SMap Nat) (keys : List Nat) : List Word :=
  let g := s.galley
  [field 0 (g.dumpSeq % 262144), field 16 g.dumpGroups, doubleLo s.time, doubleHi s.time, field 0 keys.length,
   field 0 (g.skipped % 262144), 0, 0]
    ++ keys.flatMap fun k => [countWord (smGet 0 shadow k) 0, countWord (smGet 0 shadow k) 1]

/-- Is the word of the previous dump still held for DUMP_LANE (R447)? -/
def dumpHeld (s : State) : Bool :=
  s.lanes.held.any fun h => h.unit == uGalley && h.channel.isNone && h.words.length == 1

/-- COUNTER_DUMP (R445, R447): once at a stroke boundary B of crew T whose number is a multiple of K. The counts copied are
those at which the timebase reached B: they include no event stamped at B. -/
def execCounterDump (s : State) : Out State :=
  let g := s.galley
  let due := g.dumpK != 0 && atBoundary s 0 && strokeNo s (getCox s 0) % g.dumpK == 0
  if !galleyRuns s || !due || g.dumpAt == some s.time then .next s
  else if g.dump.isSome || dumpHeld s || s.power.paddle then
    .next { s with galley := { g with skipped := g.skipped + 1, dumpAt := some s.time } }
  else
    let keys := dumpKeys g
    let (shadow, s) := keys.foldl shadowSettle (g.shadow, s)
    let d : Dump := { seq := g.dumpSeq % 262144, stamp := s.time, words := dumpWords s shadow keys,
                      lane := BitVec.ofNat 16 (bits g.dumpLane 15 0), base := g.dumpBase.toNat, rlog := bits g.dumpGeo 35 32 }
    .next { s with galley := { g with dump := some d, dumpSeq := g.dumpSeq + 1, skipped := 0, dumpAt := some s.time } }

/-- The words of a burst whose granule or stripe it does not replace whole: they are read and checked first (10 R321, R332). -/
def partWords (a k : Nat) : List Nat :=
  if isSystem a || isHost a then []
  else if isBulk a then if stripeSpan a == (a, k) then [] else [a]
  else (if a % 4 = 0 then [] else [a]) ++ (if (a + k) % 4 = 0 then [] else [a + k - 1])

/-- Writes a record by bursts: status OK, FENCE or POISON (R447). -/
def dumpBursts : Nat → State → Nat → List Word → Nat × State
  | 0, s, _, _ => (stOK, s)
  | fuel + 1, s, a, ws =>
    if ws.isEmpty then (stOK, s)
    else
      let k := min ws.length (burstRoom a)
      match fenceUnit s { cls := 3, dir := 1, p := a, n := k } uGalley with
      | .error s => (stFence, unitCount s uGalley 10 1)
      | .ok _ =>
        let s := meetWords s (partWords a k)
        if (partWords a k).any (poisonedAt s.mem) then (stPoison, s)
        else dumpBursts fuel (burstWrite s a (ws.take k)) (a + k) (ws.drop k)

/-- DUMP_RECORD_COMPLETE (R446, R447): the record is written, and one word goes to DUMP_LANE. -/
def execDumpRecordComplete (s : State) : Out State :=
  match s.galley.dump with
  | none => .next s
  | some d =>
    if !galleyRuns s then .next s
    else
      let size := (d.words.length + 63) / 64 * 64
      let slot := d.seq % 2 ^ d.rlog
      let (st, s) := dumpBursts d.words.length s (d.base + slot * size) d.words
      let s := { s with galley := { s.galley with dump := none } }
      let kind := (classOf s d.lane.toNat).map (clKind s)
      if kind = some 5 then
        .next (putOrHold s uGalley none none d.lane.toNat [field 30 st ||| field 12 d.seq ||| field 0 (slot % 4096)]).2
      else .next s

end Sys2Proof.Machine
end

