-- ==== Sys2Proof/Machine/Power.lean ====
section
/-! DEFINITION. Feeds, monitors, throttling, paddle mode's triggers and exit, and the journal (16). Temperatures are in
units of 0.125 °C (16 R456). -/

namespace Sys2Proof.Machine

/-- The always-on fabric has power and is not in reset. -/
def alive (s : State) : Bool := s.pins.porN && !s.power.dropout

/-- Is neither feed GOOD (R460)? -/
def noFeed (p : Power) : Bool := p.feedA != .good && p.feedB != .good

/-- A feed monitor's state changes (R458, R460, R469). -/
def feedTo (p : Power) (feed : Nat) (st : FeedState) : Power :=
  let p := if feed = 0 then { p with feedA := st } else { p with feedB := st }
  { p with feedT := noFeed p, lowHolds := p.lowHolds && st == .loss }

/-- FEED_STATE_CHANGE (R458, R460, R468). -/
def execFeedStateChange (feed : Fin 2) (st : FeedState) (s : State) : Out State :=
  let old := if feed = 0 then s.power.feedA else s.power.feedB
  if !alive s || old == st then .next s
  else
    let t := errEdge s (withPower s fun p => feedTo p feed.val st)
    .next (if st = .good then t else logEvent 6 (unnamedSource t) t)

/-- The rail whose window is VBAT's: the last row of R456. It is no paddle trigger. -/
def vbatRail : Nat := 39

/-- The MONITOR trigger: a rail other than VBAT, or a seat island, out of range (R452, R456). -/
def monitorTrigger (p : Power) : Bool := (p.railOut.any fun e => e.1 != vbatRail) || !p.droopOut.isEmpty

/-- A monitor leaves or enters its range. -/
def monitorTo (p : Power) (m : Monitor) (out : Bool) : Power :=
  let p := match m with
    | .rail n => { p with railOut := smSet false p.railOut n.val out }
    | .droop q => { p with droopOut := smSet false p.droopOut q.val out }
    | .ageing _ => p
  { p with monitorT := monitorTrigger p }

/-- The source of a monitor event: a seat for its own island or margin, a platen for its own margin, none that the spec names
for a rail (17 R492). -/
def monitorSource (s : State) : Monitor → Nat
  | .rail _ => unnamedSource s
  | .droop q => q.val
  | .ageing n => if n.val < 72 then n.val else 256 + 0o100 + (n.val - 72)

/-- What a monitor's range changes beside its event: the trigger and ERR_N, but nothing for a margin, which is a monitor event
only (R452, R456, R460, R468; log 91). -/
def monitorChange (s : State) (m : Monitor) (out : Bool) : State :=
  match m with
  | .ageing _ => s
  | m =>
    let t := withPower s fun p => monitorTo p m out
    if out then errEdge s t else t

/-- MONITOR_OUT_OF_RANGE (R452, R456, R460, R468). -/
def execMonitorOutOfRange (m : Monitor) (s : State) : Out State :=
  if !alive s then .next s
  else
    let t := monitorChange s m true
    .next (logEvent 6 (monitorSource t m) t)

/-- MONITOR_IN_RANGE (R456, R460). -/
def execMonitorInRange (m : Monitor) (s : State) : Out State :=
  if !alive s then .next s else .next (monitorChange s m false)

/-- THERMAL_LIMIT: two samples of a sensor above 105 °C (R460). -/
def execThermalLimit (_sensor : Fin 112) (reading : Int) (s : State) : Out State :=
  if alive s && decide (840 < reading) then .next (withPower s fun p => { p with thermalT := true }) else .next s

/-- THERMAL_CLEAR: every sensor at 100 °C or less (R460). -/
def execThermalClear (readings : List Int) (s : State) : Out State :=
  if alive s && readings.length == 112 && readings.all (fun r => decide (r ≤ 800)) then
    .next (withPower s fun p => { p with thermalT := false })
  else .next s

/-- THROTTLE_START: a sensor at 100 °C or more (R453). -/
def execThrottleStart (_sensor : Fin 112) (reading : Int) (s : State) : Out State :=
  if alive s && decide (800 ≤ reading) then .next { s with power := { s.power with throttle := true } } else .next s

/-- THROTTLE_END: every sensor at 97 °C or less (R453). -/
def execThrottleEnd (readings : List Int) (s : State) : Out State :=
  if alive s && readings.length == 112 && readings.all (fun r => decide (r ≤ 776)) then
    .next { s with power := { s.power with throttle := false } }
  else .next s

/-- HOLD_ASSERT (R460, 19 R531). -/
def execHoldAssert (s : State) : Out State :=
  if alive s then .next (withPower s fun p => { p with holdT := true }) else .next s

/-- HOLD_CLEAR (R460, 19 R531). -/
def execHoldClear (s : State) : Out State :=
  if alive s then .next (withPower s fun p => { p with holdT := false }) else .next s

/-- PADDLE_COURSE_SWITCH (R464, 08 R273): at the paddle crew's stroke boundary its cox takes up the paddle course. -/
def execPaddleCourseSwitch (s : State) : Out State :=
  let p := s.power
  if alive s && !dark p && p.paddle && p.courseDue && atBoundary s p.crew then
    .next (modCox { s with power := { p with courseDue := false } } p.crew fun k => { k with paddleSrc := true })
  else .next s

/-- Switches a seat's domain on in its reset state (R455); a seat in check stop stays in it, and one that was substituted stays
off (07 R234, R235). Before Keel has powered the crews C0.0 alone comes on (18 R502). -/
def seatOn (s : State) (q : Nat) : State :=
  if (getSeat s q).powered || (getSeat s q).checkStop.isSome || (getSeat s q).gone || !seatBelongs s q
      || (!s.boot.done && q != 0) then s
  else setSeat s q seatFresh

/-- The off time of the stowed activations of the seats that switch on (R465). -/
def addOffTime (s : State) : State :=
  { s with lanes := { s.lanes with stowed := s.lanes.stowed.map fun e => { e with offFor := offTime s e } } }

/-- PADDLE_EXIT (R467): the settle time is over and the domains switch on. -/
def execPaddleExit (s : State) : Out State :=
  match s.power.settleEnd with
  | none => .next s
  | some t =>
    if !alive s || dark s.power || decide (s.time < t) then .next s
    else
      let s := (List.range 72).foldl seatOn (addOffTime s)
      .next { s with power := { s.power with settleEnd := none, exitFrom := some s.time, offFrom := none, domOff := [] } }

/-- Every cox resumes on its normal course (R467). -/
def coxResume (s : State) (x : Nat) : State := coxWake (modCox s x fun k => { k with paddleSrc := false }) x

/-- PADDLE_EXIT_COMPLETE (R467): at crew T's first stroke boundary at or after 200 µs. -/
def execPaddleExitComplete (s : State) : Out State :=
  match s.power.exitFrom with
  | none => .next s
  | some t =>
    if !alive s || dark s.power || decide (s.time < 200000 + t) || !atBoundary s 0 then .next s
    else
      let s := (List.range 11).foldl coxResume s
      .next (signalHost { s with power := { s.power with exitFrom := none, paddle := false, courseDue := false } } 2)

/-- The counters that a seal takes, in counter-space order (R470). -/
def sealKeys : List Nat :=
  ((List.range 72).flatMap fun q => blockKeys (0o1000 * q) 192)
    ++ ((List.range 11).flatMap fun x => blockKeys (0o110000 + 0o200 * x) 48)
    ++ (unitCodes.flatMap fun u => blockKeys (0o120000 + 0o40 * u) 16)
    ++ ((List.range 1024).flatMap fun k => blockKeys (0o3500000 + 0o10 * k) 4)

/-- The entries of the event log from number n on, oldest first. -/
def logFrom (i : Irrix) (n : Nat) : List Octet := (List.range (i.logNext - n)).flatMap fun k => smGet [] i.log (n + k)

/-- The header of a seal, with its CRC, and its two sections: counters, and the latest 2,048 entries of the log (R470). -/
def journalOctets (s : State) (cause : SealCause) : List Octet × List Octet :=
  let counters := sealKeys.flatMap fun k => beOctets 8 (counterValue s k)
  let events := logFrom s.irrix (s.irrix.logNext - 2048)
  let code := match cause with | .feeds => 1 | .temperature => 2
  let head : List Octet := beOctets 4 0x4A4E4C31 ++ beOctets 4 (s.power.sealSeq + 1) ++ beOctets 9 s.time
    ++ beOctets 1 code ++ [0, 0] ++ beOctets 4 sealKeys.length ++ beOctets 4 events.length ++ List.replicate 32 0
  (head ++ beOctets 4 (crc crc32c (head ++ counters ++ events)), counters ++ events)

/-- The header octets in the log store; before the first seal they are zero (DESIGN CHOICE, log 1). -/
def journalHead (p : Power) : List Octet := if p.journal.isEmpty then List.replicate 64 0 else p.journal.take 64

/-- JOURNAL_SEAL (R469, R470): once per episode; a feed below 7.5 V is in LOSS (R458). The sections are written under the old header, which fails. -/
def execJournalSeal (cause : SealCause) (s : State) : Out State :=
  let p := s.power
  let due := match cause with
    | .feeds => p.feedA == .loss && p.feedB == .loss && !p.lowHolds
    | .temperature => p.thermalT && !p.sealedTemp
  if !alive s || !due || p.sealing.isSome then .next s
  else
    let s := sealKeys.foldl counterSettle s
    let (head, sections) := journalOctets s cause
    .next { s with power := { p with sealing := some cause, sealHead := head, journal := journalHead p ++ sections,
                                     journalOk := false, lowHolds := p.lowHolds || cause == .feeds,
                                     sealSeq := p.sealSeq + 1 } }

/-- JOURNAL_SEAL_COMPLETE (R471): the header is written. After a temperature seal only custody, the always-on fabric and
the field ports keep power; every unit counts up to then (15 R437). -/
def execJournalSealComplete (s : State) : Out State :=
  let p := s.power
  match p.sealing with
  | none => .next s
  | some cause =>
    if !alive s then .next s
    else
      let s := if cause == .temperature then settleAll s else s
      .next { s with power := { p with sealing := none, journalOk := true, journal := p.sealHead ++ p.journal.drop 64,
                                       sealedTemp := p.sealedTemp || cause == .temperature } }

end Sys2Proof.Machine
end

