-- ==== Sys2Proof/Machine/WayEnough.lean ====
section
/-! DEFINITION. The way-enough unit: acceptance, what each kind of target does, completion (17 R490, R491; 05 R180; 09 R314;
12 R384, R388, R391; 13 R414; 07 R237). -/

namespace Sys2Proof.Machine

/-- The session that a command answers to: its transport class, its manager, and the sequence of the request. -/
abbrev WayBy := Option (Nat × Nat × Nat)

/-- Does the target exist (R490, 05 R180)? A lane exists when its number belongs to a class. A unit's or platen's number
with any of bits 35-25 set, of which R490 says nothing, names none. DESIGN CHOICE, log 99. -/
def wayTarget (s : State) (kind n : Nat) : Bool :=
  let u := n / 65536 % 256
  match kind with
  | 1 => decide (n < 65536) && (classOf s n).isSome
  | 2 => decide (n < 2 ^ 25) && (isCipher u || isDigest u)
  | 3 => decide (n < 2 ^ 25) && isPlaten u
  | 4 => decide (n < 1024)
  | 5 => decide (1 ≤ n) && decide (n ≤ 65533)
  | 6 => decide (n ≤ 10)
  | 7 => n == 0
  | _ => false

/-- What hardware producers hold for the lane is dropped; they receive ABORTED (09 R292, R314). -/
def dropAborted (s : State) (l : Nat) : State :=
  let (gone, kept) := s.lanes.held.partition fun h => h.lane.toNat == l
  gone.foldl (fun s h =>
      unitCount (match h.channel with
        | some ch => chanCommitted s ch
        | none => s) h.unit 4 1) { s with lanes := { s.lanes with held := kept } }

/-- The lane unit's part of an acceptance, where it reaches the lane's state: an open lane is ABORTING from then on
(09 R314, R551). -/
def laneAborting (s : State) (l : Nat) (reached : Bool) : State :=
  let x := laneSt s l
  dropAborted (if reached && x.state != lsClosed then laneStore s l { x with state := lsAborting } else s) l

/-- The lanes that have a live activation. -/
def liveLanes (s : State) : List Nat :=
  let banks := s.seats.flatMap fun e => (e.2.banks.filter fun b => b.2.st != .free).map fun b => b.2.lane.toNat
  let pairs := s.coxes.flatMap fun e => (e.2.pairs.filter fun b => b.2.used).map fun b => b.2.lane.toNat
  let posts := s.seats.flatMap fun e => (e.2.stow.filter fun j => !j.void).map fun j => j.lane.toNat
  (banks ++ pairs ++ posts ++ s.lanes.stowed.map fun e => e.lane.toNat).dedup

/-- The seats on which a lane's activation lies. -/
def liveSeats (s : State) (l : Nat) : List Nat :=
  (actBanks s l).map Prod.fst ++ (actPosts s l).map Prod.fst ++ (s.lanes.stowed.filter fun e => e.lane.toNat == l).map (fun e => e.seat)
    ++ (actPairs s l).flatMap fun p => [(getPair s p.1 p.2).seatA, (getPair s p.1 p.2).seatB]

/-- Does seat q lie beneath crew x (01 R14)? -/
def seatBeneath (x q : Nat) : Bool :=
  x == 0 || leafOf q == x || (x == 1 && decide (q < 36)) || (x == 2 && decide (36 ≤ q))

/-- The live lanes that a compartment, crew or device target takes (R490). -/
def wayLanes (s : State) (kind n : Nat) : List Nat :=
  match kind with
  | 5 => (liveLanes s).filter fun l => descReads s l 2 && capSeal (laneGate s l) == n
  | 6 => (liveLanes s).filter fun l => (liveSeats s l).any (seatBeneath n)
  | 7 => liveLanes s
  | _ => []

/-- Does an activation of the target still wait for M (07 R237)? -/
def wayWaits (s : State) (kind n : Nat) : Bool :=
  (wayLanes s kind n).any fun l => (actBanks s l).any fun qb => (getBank (getSeat s qb.1) qb.2).abortHeld

/-- Sets the unit's status and elapsed time: they show its last acceptance, refusal or completion (R487, R491). DEDUCED,
log 104. -/
def waySet (s : State) (st elapsed : Nat) : State :=
  { s with irrix := { s.irrix with wayStat := st, wayTime := elapsed } }

/-- Acceptance (R491): 0 accepted, 3 eight commands are pending, 4 no target. A command whose target's way-enough still waits
(07 R237) joins that one. key: the frame's, for a repeat (R482). -/
def acceptWay (s : State) (kind n : Nat) (b : WayBy) (tr : Option Transport) (key : List Octet) : Nat × State :=
  if !wayTarget s kind n then (4, waySet s 4 0)
  else if 8 ≤ s.irrix.way.length then (3, waySet s 3 0)
  else
    let joins := s.irrix.way.any fun c => c.kind == kind && c.number == n && c.acted && wayWaits s kind n
    let (ok, s) := if kind = 1 then laneReach s n 1 else (true, s)
    let closed := kind == 1 && ok && (laneSt s n).state == lsClosed
    let c : WayCmd := { kind := kind, number := n, at_ := s.time, acted := closed || joins, by_ := b, tr := tr, key := key }
    let s := if kind = 1 then laneAborting s n ok else s
    let s := { s with irrix := { s.irrix with way := s.irrix.way ++ [c] } }
    (0, waySet s 1 0)

/-- The result word of WAYEN (05 R180). -/
def wayenResult (st n : Nat) : Word :=
  laneResult (if st = 0 then stOK else if st = 3 then stNoCredit else stBadDescriptor) false 0 (n % 65536)

/-- WAYEN (05 R180). -/
def execWayen (q : SeatNo) (rd ra rb : Reg) (s : State) : Out State :=
  seatRun q (.wayen q rd ra rb) atM (fun s =>
    let n := (wGet s q.val rb.toNat).toNat
    let (st, s) := acceptWay s (wGet s q.val ra.toNat).toNat n none none []
    done (wSet s q.val rd.toNat (wayenResult st n))) s

/-- Acts on the pending commands of a target, each once; those that wait for it join (R491). A target without a command
is left alone (log 11). Units that are off have nothing left to end (16 R471). -/
def wayAct (s : State) (kind n : Nat) (act : State → State) : State :=
  let hit := fun c : WayCmd => c.kind == kind && c.number == n && !c.acted
  if alive s && s.irrix.way.any hit then
    let s := if dark s.power then s else act s
    { s with irrix := { s.irrix with way := s.irrix.way.map fun c => if hit c then { c with acted := true } else c } }
  else s

/-- An engine job ends ABORTED (12 R388); a custody operation then writes nothing (12 R381). The response of a parse goes out
by a normal put, if at all (14 R435). -/
def wayJob (s : State) (j : Job) : State :=
  if isCompositor j.unit then
    let s := { s with engines := { s.engines with jobs := s.engines.jobs.erase j } }
    completeCount (putLane s j.rlane.toNat
      (responseWords { j with status := stAborted, detail := 0, result := [] })).2 j.unit stAborted
  else abortJob s j

/-- The jobs of a unit, of one request lane or all, end ABORTED; so do the responses that it holds for them. -/
def wayJobs (s : State) (number : Nat) : State :=
  let u := number / 65536 % 256
  let all := number.testBit 24
  let s := (s.lanes.held.filter fun h => h.unit == u && !heldCustody h
    && (all || h.req == some (BitVec.ofNat 16 number))).foldl abortHeldResponse s
  (s.engines.jobs.filter fun j => j.unit == u && (all || j.lane.toNat == number % 65536)).foldl wayJob s

/-- A way-enough on a lane (09 R314): the lane unit's steps whose accesses the fence admits (R551). A lane of which it
reaches every granule ends CLOSED, or CLOSING while an activation of it is live. -/
def wayLane (s : State) (l : Nat) : State :=
  match classOf s l with
  | none => s
  | some k =>
    let mine := fun j : Job => j.lane.toNat == l || j.rlane.toNat == l
    let s := (s.engines.jobs.filter mine).foldl wayJob s
    let (ok1, s) := laneReach s l 1
    let (ok, s) := purgeLane s k l lsAborting ok1
    let s := notice (unready s l) l { status := stAborted }
    if ok then closedLane s l (laneLive s l) else s

/-- WAYENOUGH_LANE (09 R314). -/
def execWayenoughLane (lane : LaneNo) (s : State) : Out State :=
  .next (wayAct s 1 lane.toNat fun s => wayLane s lane.toNat)

/-- WAYENOUGH_JOB: kind 2 (12 R388, R391). -/
def execWayenoughJob (number : Word) (s : State) : Out State :=
  .next (wayAct s 2 number.toNat fun s => wayJobs s number.toNat)

/-- WAYENOUGH_PLATEN: kind 3 (12 R384). -/
def execWayenoughPlaten (number : Word) (s : State) : Out State :=
  .next (wayAct s 3 number.toNat fun s => wayJobs s number.toNat)

/-- WAYENOUGH_CHANNEL: kind 4 (13 R414). -/
def execWayenoughChannel (ch : ChannelNo) (s : State) : Out State :=
  .next (wayAct s 4 ch.val fun s => channelAbort s ch.val)

/-- Ends activations ABORTED under 07 R237. -/
def wayEnd (s : State) (ls : List Nat) : State := ls.foldl (fun s l => endActivation s l stAborted) s

/-- The lane unit reads the gate of every lane with a live activation; one that the fence refuses is faulted, and its
activation is not found (R490, 09 R280, R551). -/
def gatesRead (s : State) : State := (liveLanes s).foldl (fun s l => (laneReach s l 2).2) s

/-- WAYENOUGH_COMPARTMENT: kind 5 (R490). -/
def execWayenoughCompartment (sealv : BitVec 16) (s : State) : Out State :=
  .next (wayAct s 5 sealv.toNat fun s =>
    let s := gatesRead s
    wayEnd s (wayLanes s 5 sealv.toNat))

/-- WAYENOUGH_CREW: kind 6 (R490). -/
def execWayenoughCrew (x : CoxNo) (s : State) : Out State :=
  .next (wayAct s 6 x.val fun s => wayEnd s (wayLanes s 6 x.val))

/-- A device way-enough (R490): every activation, channel and job but those of custody. -/
def wayDevice (s : State) : State :=
  let s := wayEnd s (wayLanes s 7 0)
  let s := (List.range 1024).foldl channelAbort s
  let s := (s.lanes.held.filter fun h => (isPlaten h.unit || isCipher h.unit || isDigest h.unit) && !heldCustody h).foldl
    abortHeldResponse s
  (s.engines.jobs.filter fun j => !j.custody).foldl wayJob s

/-- WAYENOUGH_DEVICE: kind 7 (R490). -/
def execWayenoughDevice (s : State) : Out State := .next (wayAct s 7 0 wayDevice)

/-- A frame's answer, given late, is kept for a repeat (R482). -/
def keepAnswer (x : Session) (key : List Octet) (o : OutFrame) : Session :=
  { x with recent := x.recent.map fun r => if r.1 = key then (r.1, [o], r.2.2) else r }

/-- The value of a device's WAYENOUGH frame: kind, number, status, elapsed ns (R475); its type is OCTETS. DEDUCED, log 104. -/
def wayBody (code kind n st elapsed : Nat) : List Octet :=
  frameBody (128 + code) 0xF001 0 9 (beOctets 1 kind ++ beOctets 5 n ++ beOctets 1 st ++ beOctets 5 (elapsed % 2 ^ 36))

/-- A completed command of a WAYENOUGH frame is answered (R491), in its session and by the port the frame came by. -/
def wayAnswer (s : State) (c mgr seq : Nat) (tr : Transport) (key body : List Octet) : State :=
  let ident := identOf 0 s.pins.node.toNat mgr seq
  match findSession s c mgr with
  | some x =>
    if c = 3 then sendFrame s false { transport := tr, ident := ident, octets := plainFrame body }
    else
      let o := taggedFrame x tr ident body
      sendFrame (putSession s (keepAnswer { x with txCount := x.txCount + 1 } key o)) false o
  | none => s

/-- One command completes (R491): it leaves the unit with its elapsed time; its frame is answered, that of a WAYEN is
acknowledged on the event lane (09 R275, R314). -/
def wayDone (s : State) (c : WayCmd) : State :=
  let elapsed := s.time - c.at_
  let s := waySet { s with irrix := { s.irrix with way := s.irrix.way.erase c } } 2 (elapsed % 2 ^ 36)
  match c.by_, c.tr with
  | some (k, m, seq), some tr => wayAnswer s k m seq tr c.key (wayBody 0 c.kind c.number 2 elapsed)
  | none, _ => if dark s.power then s else eventMessage s 1 [c.kind, c.number, 2, elapsed]
  | _, _ => s

/-- Every domain but the always-on fabric and custody switches off (18 R519); the units count up to then (15 R437). -/
def offAllNow (s : State) : State :=
  let s := settleAll s
  { s with power := { s.power with offAll := true } }

/-- WAYENOUGH_COMPLETE (R491): the oldest command whose target is done completes, and with it those that joined it. With the
device way-enough of tamper response, every domain but the always-on fabric and custody switches off (18 R519). -/
def execWayenoughComplete (s : State) : Out State :=
  match s.irrix.way.find? fun c => c.acted && (dark s.power || !wayWaits s c.kind c.number) with
  | none => .next s
  | some c =>
    if !alive s then .next s
    else
      let s := if s.boot.tampered && c.kind == 7 then offAllNow s else s
      .next ((s.irrix.way.filter fun d => d.acted && d.kind == c.kind && d.number == c.number).foldl wayDone s)

end Sys2Proof.Machine
end

