-- ==== Sys2Proof/Machine/Images.lean ====
section
/-! DEFINITION. Image sets in the flash (18 R497 to R500): headers, their verification, images, the sections of an
imposition (08 R273, R550) and their standby copies. -/

namespace Sys2Proof.Machine

/-- n octets of the flash from octet a. -/
def flashOctets (s : State) (a n : Nat) : List Octet := (List.range n).map fun i => flashOctet s (a + i)

/-- The first octet of set k: 0 for A, 1 for B (R497). -/
def imageSet (k : Nat) : Nat := k * 0x4000000

/-- The header octets of an image type, 1 to 4, in a set (R497). -/
def headerOf (s : State) (set ty : Nat) : List Octet := flashOctets s (imageSet set + 0x400 * (ty - 1)) 1024

/-- A big-endian field of a header (R498). -/
def hField (h : List Octet) (i n : Nat) : Nat := beNat (slice h i n)

/-- The header's fields (R498). -/
def hSlot (h : List Octet) : Nat := hField h 7 1
def hSvn (h : List Octet) : Nat := hField h 8 8
def hCommit (h : List Octet) : Bool := hField h 16 4 % 2 == 1
def hLength (h : List Octet) : Nat := hField h 20 4
def hOffset (h : List Octet) : Nat := hField h 24 4
def hLoad (h : List Octet) : Nat := hField h 28 8
def hEntry (h : List Octet) : Nat := hField h 36 8
def hAbi (h : List Octet) : Nat := hField h 44 4
def hWords (h : List Octet) : Nat := hLength h / 5

/-- An erased header position: the running image of the type stays (R511). -/
def hErased (h : List Octet) : Bool := h.all (· == 0xFF)

/-- The octets of the image that a header describes. -/
def imageOctets (s : State) (set : Nat) (h : List Octet) : List Octet :=
  flashOctets s (imageSet set + hOffset h) (hLength h)

/-- The words of image octets: 5 octets each, most significant first (R499). -/
def imageWords (os : List Octet) : List Word := (chunks 5 os).map fun c => BitVec.ofNat 36 (beNat c)

/-- The words of a root slot (R494). -/
def rootWords (s : State) (r : Nat) : List Word := (List.range 8).map fun i => otpWord s (8 * r + i)

/-- A root slot is live when it is programmed and not revoked (R494). -/
def rootLive (s : State) (r : Nat) : Bool :=
  decide (r < 4) && (rootWords s r).any (· != 0) && !bit (otpWord s 0o40) r

/-- Does the header verify at the position of its type (R500)? -/
def headerVerifies (s : State) (set ty : Nat) (h : List Octet) : Bool :=
  let modulus := slice h 80 384
  hField h 0 4 == 0x4B524B31 && hField h 4 2 == 1 && hField h 6 1 == ty
    && rootLive s (hSlot h) && packOctets (sha .sha256 modulus) == rootWords s (hSlot h)
    && pssVerify (beNat modulus) 65537 (h.take 640) (slice h 640 384)
    && decide (rollback s (rbOf ty) ≤ hSvn h) && decide (hSvn h ≤ 64)
    && sha .sha256 (imageOctets s set h) == slice h 48 32
    && (ty == 4 || decide (hLoad h + hWords h ≤ caseEnd))

/-- The set marker's sequence; an erased marker counts as 0 (R497). -/
def markerOf (s : State) (set : Nat) : Nat :=
  let m := flashOctets s (imageSet set + 0x3FFFFF0) 16
  if beNat (m.take 4) = 0x534D524B then beNat (slice m 4 4) else 0

/-- Stores octets in the flash. -/
def flashPut (s : State) (a : Nat) (os : List Octet) : State :=
  { s with boot := { s.boot with flash := smSetList 0xFF s.boot.flash a os } }

/-- The set that did not boot (R511). -/
def stagedSet (s : State) : Nat := 1 - s.boot.setBooted

/-- The section table of an imposition: destination code, word offset, word length (R499). -/
def sections (ws : List Word) : List (Nat × Nat × Nat) :=
  (List.range (ws.headD 0).toNat).map fun i =>
    ((ws.getD (1 + 3 * i) 0).toNat, (ws.getD (2 + 3 * i) 0).toNat, (ws.getD (3 + 3 * i) 0).toNat)

/-- The most words a destination holds, by the code of its row of 08 R273. The arrangement within a section is DESIGN
CHOICE, log 58: programs, data and courses of the 11 coxes in HOME order; the crew table of R550; a word for each seat with
its doorbell lane (bits 16-0) and RESID_LIM (bits 35-20); 16 triples for each of 10 sets of 8 crews; the paddle course and
its rows, after a word with the number of course entries (bits 29-12) and the data-store address of the rows (bits 11-0);
the class table; the bucket table; the forms one after the other. -/
def sectionMost (code : Nat) : Nat :=
  [0, 90112, 22528, 45056, 12, 72, 1280, 6145, 8192, 8192, 2097152].getD code 0

/-- n words from word i. -/
def wordsAt (ws : List Word) (i n : Nat) : List Word := (ws.drop i).take n

/-- Does the paddle section fit: at most 4,096 course entries, all present, and its rows within the 4,096 half-words of the
data store (08 R239, R273)? -/
def paddleFits (ws : List Word) : Bool :=
  let h := ws.headD 0
  let n := bits h 29 12
  decide (n ≤ 4096) && decide (1 + n ≤ ws.length) && decide (bits h 11 0 + 2 * (ws.length - 1 - n) ≤ 4096)

/-- Is a section at most so many forms, each of which fits its 64 Ki words (14 R423)? -/
def formsFit : Nat → List Word → Bool
  | 0, ws => ws.isEmpty
  | fuel + 1, ws =>
    match ws with
    | [] => true
    | w :: _ => decide (80 + 16 * bits w 23 12 ≤ 65536) && formsFit fuel (ws.drop (80 + 16 * bits w 23 12))

/-- Does a section hold what its destination may hold? Cox programs are checked under 08 R241. -/
def sectionFits (ws : List Word) (code : Nat) : Bool :=
  decide (ws.length ≤ sectionMost code) && (code != 7 || paddleFits ws) && (code != 10 || formsFit 256 ws)
    && (code != 1 || (List.finRange 11).all fun x => coxProgramOk x (wordsAt ws (8192 * x.val) 8192))

/-- Do two spans of the same kind overlap? -/
def spansMeet (a n b m : Nat) : Bool := decide (a < b + m) && decide (b < a + n)

/-- Is the section table sound (R499): every destination known, no section outside the image or its destination, no two
that overlap? And are its cox programs (08 R241)? -/
def sectionsOk (ws : List Word) : Bool :=
  let ss := sections ws
  decide (1 + 3 * ss.length ≤ ws.length)
    && ss.all (fun e => decide (1 ≤ e.1) && decide (e.1 ≤ 10) && decide (e.2.1 + e.2.2 ≤ ws.length)
        && sectionFits (wordsAt ws e.2.1 e.2.2) e.1)
    && (List.range ss.length).all fun i => (List.range i).all fun j =>
        let a := ss.getD i (0, 0, 0)
        let b := ss.getD j (0, 0, 0)
        !spansMeet a.2.1 a.2.2 b.2.1 b.2.2

/-- A table that holds a list of words from key 0. -/
def tableOf (ws : List Word) : SMap Word := smSetList 0 [] 0 ws

/-- The half-words of a data store image: the even one in the upper half. -/
def dataTable (ws : List Word) : SMap Half := smSetList 0 [] 0 (ws.flatMap fun w => [half1 w, half0 w])

/-- Applies f to every cox. -/
def eachCox (s : State) (f : Nat → Cox → Cox) : State := (List.range 11).foldl (fun s x => modCox s x (f x)) s

/-- The forms of a section, one after the other: form number at key 65,536 f (14 R424). -/
def formTable : Nat → SMap Word → List Word → SMap Word
  | 0, m, _ => m
  | fuel + 1, m, ws =>
    match ws with
    | [] => m
    | w :: _ =>
      let f := bits w 35 28
      let n := 80 + 16 * bits w 23 12
      formTable fuel (smSetList 0 m (65536 * f) (ws.take n)) (ws.drop n)

/-- Class words as the class store holds them: bits that 09 R277 calls res0 read zero. -/
def classWords (ws : List Word) : List Word :=
  (List.range ws.length).map fun i =>
    let w := ws.getD i 0
    match i % 8 with
    | 3 => w &&& 0o774000000776
    | 6 => w &&& 0o037777600377
    | 7 => 0
    | _ => w

/-- Loads one section into the standby copies (08 R239, R273; 09 R274, R306; 14 R423). -/
def loadSection (ws : List Word) (s : State) (code : Nat) : State :=
  match code with
  | 1 => eachCox s fun x k => { k with progSb := tableOf (wordsAt ws (8192 * x) 8192) }
  | 2 => eachCox s fun x k => { k with dataSb := dataTable (wordsAt ws (2048 * x) 2048) }
  | 3 => eachCox s fun x k => { k with courseSb := tableOf (wordsAt ws (4096 * x) 4096) }
  | 4 =>
    let p := bits (ws.getD 11 0) 3 0
    let s := eachCox s fun x k => { k with nSb := bits (ws.getD x 0) 17 12, lSb := bits (ws.getD x 0) 11 0 + 1 }
    { s with power := { s.power with crewSb := if p = 15 then 3 else p } }
  | 5 =>
    let bell := fun w : Word => if bit w 16 then bits w 15 0 else 65536
    { s with lanes := { s.lanes with doorbellSb := smSetList 65536 [] 0 (ws.map bell),
                                     residSb := smSetList 2000 [] 0 (ws.map fun w => bits w 35 20) } }
  | 6 =>
    let t := fun x : Nat => (List.range 10).foldl (fun m i =>
      smSetList 0 m (16 * (if i = 9 then 15 else i)) (wordsAt ws (160 * (x - 3) + 16 * i) 16)) ([] : SMap Word)
    eachCox s fun x k => if x < 3 then k else { k with triplesSb := t x }
  | 7 =>
    let h := ws.headD 0
    let n := bits h 29 12
    modCox s s.power.crewSb fun k =>
      { k with paddleCourseSb := tableOf (wordsAt ws 1 n),
               dataSb := smSetList 0 k.dataSb (bits h 11 0) ((ws.drop (1 + n)).flatMap fun w => [half1 w, half0 w]) }
  | 8 => { s with lanes := { s.lanes with clsSb := tableOf (classWords ws) } }
  | 9 => { s with eth := { s.eth with bucketSb := tableOf ws } }
  | 10 => { s with engines := { s.engines with formsSb := formTable 256 [] ws } }
  | _ => s

/-- Clears every standby copy (R512, R517). -/
def clearStandby (s : State) : State :=
  let s := eachCox s fun _ k =>
    { k with progSb := [], dataSb := [], courseSb := [], paddleCourseSb := [], nSb := 3, lSb := 1, triplesSb := [] }
  { s with
    power := { s.power with crewSb := 3 },
    lanes := { s.lanes with clsSb := [], doorbellSb := [], residSb := [] },
    eth := { s.eth with bucketSb := [] },
    engines := { s.engines with formsSb := [] },
    boot := { s.boot with impHashSb := [] } }

/-- Loads an imposition into the standby copies, section by section in the order of their codes. -/
def loadImposition (s : State) (os : List Octet) : State :=
  let ws := imageWords os
  let s := clearStandby s
  let s := (List.range 11).foldl (fun s code =>
    ((sections ws).filter fun e => e.1 == code).foldl (fun s e => loadSection (wordsAt ws e.2.1 e.2.2) s code) s) s
  { s with boot := { s.boot with impHashSb := sha .sha256 os } }

/-- Each seat's RESID_LIM becomes that of the seat table (08 R273, 07 R226), and the old one standby. -/
def swapResid (s : State) : State :=
  let old := (List.range 72).map fun q => (getSeat s q).residLim
  let s := (List.range 72).foldl (fun s q => modSeat s q fun x => { x with residLim := smGet 2000 s.lanes.residSb q }) s
  { s with lanes := { s.lanes with residSb := smSetList 2000 [] 0 old } }

/-- All standby copies become active and the old active ones standby (R514, 08 R239, R270). A position map and the index
of its set carry over. -/
def swapCopies (s : State) : State :=
  let s := swapResid s
  let s := eachCox s fun _ k =>
    { k with prog := k.progSb, progSb := k.prog, data := k.dataSb, dataSb := k.data, course := k.courseSb,
             courseSb := k.course, paddleCourse := k.paddleCourseSb, paddleCourseSb := k.paddleCourse, n := k.nSb,
             nSb := k.n, l := k.lSb, lSb := k.l, triples := k.triplesSb, triplesSb := k.triples }
  { s with
    power := { s.power with crew := s.power.crewSb, crewSb := s.power.crew },
    lanes := { s.lanes with cls := s.lanes.clsSb, clsSb := s.lanes.cls, doorbell := s.lanes.doorbellSb,
                            doorbellSb := s.lanes.doorbell },
    eth := { s.eth with bucket := s.eth.bucketSb, bucketSb := s.eth.bucket },
    engines := { s.engines with forms := s.engines.formsSb, formsSb := s.engines.forms },
    boot := { s.boot with impHash := s.boot.impHashSb, impHashSb := s.boot.impHash } }

/-- Loads a Keel or side image word by word from its load address (R499). -/
def loadImage (s : State) (h os : List Octet) : State := putRun s (hLoad h) (imageWords os)

/-- Records an image of type ty as the running one: its SVN, COMMIT and span. -/
def nowRunning (s : State) (ty : Nat) (h : List Octet) : State :=
  let b := s.boot
  let svn := smSet 0 b.svn ty (2 * hSvn h + (if hCommit h then 1 else 0))
  let ranges := if ty = 4 then b.ranges else smSet 0 b.ranges ty (2 ^ 40 * hLoad h + hWords h)
  { s with boot := { b with svn := svn, ranges := ranges,
                            keelAbi := if ty = 1 then hAbi h else b.keelAbi,
                            rootSlot := if ty = 1 then hSlot h else b.rootSlot } }

/-- The identity key's private operation and modulus: an RSA-3072 CRT key under 12 R371 (18 R495). -/
def identityModulus (ws : List Word) : Nat := bigNat (ws.take 86)
def identityPriv (ws : List Word) (x : Nat) : Nat :=
  let part := fun i => bigNat ((ws.drop (172 + i * 43)).take 43)
  rsaCrt (part 0) (part 1) (part 2) (part 3) (part 4) x % identityModulus ws

/-- A signature under the identity key with a salt drawn from D3 (18 R510, 17 R480). -/
def identitySign (s : State) (ws : List Word) (msg : List Octet) : List Octet × State :=
  let (salt, s) := drbgDraw s 3 32
  (pssSign (identityModulus ws) (identityPriv ws) msg salt, s)

end Sys2Proof.Machine
end

