-- ==== Sys2Proof/Machine/Dict.lean ====
section
/-! DEFINITION. The object dictionary: its entries, reads and writes (17 R477 to R479, R486 to R488; 18 R496, R509, R511,
R512). -/

namespace Sys2Proof.Machine

/-- Result codes (R477). -/
def rOK : Nat := 0
def rNoEntry : Nat := 1
def rNoSubindex : Nat := 2
def rAccess : Nat := 3
def rRole : Nat := 4
def rType : Nat := 5
def rRange : Nat := 6
def rBusy : Nat := 7
def rNoSession : Nat := 8
def rSequence : Nat := 9
def rTimeout : Nat := 10
def rState : Nat := 11
def rPersist : Nat := 12

/-- A row of R487: indices first to last, sub-indices lo to hi, and per sub-index, the last one standing for the rest, the
type code of R478 and the access (0 read, 1 write, 2 both); the role that a write needs (1 observer, 2 operator, 4 officer,
0 none); whether the value persists. -/
structure DictRow where
  first : Nat
  last  : Nat
  lo    : Nat
  hi    : Nat
  ty    : List Nat
  acc   : List Nat := [0]
  role  : Nat := 0
  keeps : Bool := false

/-- The entries 0x1000 to 0x12FF (R487). -/
def dictRowsA : List DictRow :=
  [⟨0x1000, 0x1002, 0, 0, [11], [0], 0, false⟩, ⟨0x1003, 0x1004, 0, 0, [9], [0], 0, false⟩,
   ⟨0x1005, 0x1005, 0, 0, [2], [0], 0, false⟩, ⟨0x1006, 0x1006, 0, 0, [3], [0], 0, false⟩,
   ⟨0x1100, 0x1100, 1, 2, [8], [2], 2, true⟩, ⟨0x1101, 0x1101, 1, 2, [1], [2], 2, true⟩,
   ⟨0x1102, 0x1102, 0, 0, [4], [2], 2, true⟩, ⟨0x1103, 0x1103, 0, 0, [3], [2], 2, true⟩,
   ⟨0x1104, 0x1104, 1, 254, [2], [0], 0, false⟩, ⟨0x1105, 0x1105, 1, 4, [1, 9, 9, 3], [2], 4, true⟩,
   ⟨0x1106, 0x1106, 1, 8, [7], [0], 0, false⟩, ⟨0x1110, 0x1110, 1, 32, [9], [2], 4, true⟩,
   ⟨0x1200, 0x1200, 0, 0, [7], [0], 0, false⟩, ⟨0x1201, 0x1201, 0, 0, [6], [2], 2, false⟩,
   ⟨0x1202, 0x1202, 0, 0, [8], [2], 2, true⟩, ⟨0x1203, 0x1203, 0, 0, [7], [1], 2, false⟩,
   ⟨0x1204, 0x1204, 0, 0, [7], [0], 0, false⟩, ⟨0x1205, 0x1205, 0, 0, [6], [0], 0, false⟩,
   ⟨0x1206, 0x1206, 0, 0, [2], [2], 2, true⟩, ⟨0x1207, 0x1207, 1, 4, [7], [0], 0, false⟩,
   ⟨0x1208, 0x1208, 1, 4, [3], [0], 0, false⟩]

/-- The entries 0x2000 to 0x3FFF (R487). -/
def dictRowsB : List DictRow :=
  [⟨0x2000, 0x2000, 0, 0, [8], [0], 0, false⟩, ⟨0x2001, 0x2001, 0, 0, [5], [2], 2, true⟩,
   ⟨0x2002, 0x2002, 0, 0, [5], [0], 0, false⟩, ⟨0x2003, 0x2003, 0, 0, [7], [0], 0, false⟩,
   ⟨0x2100, 0x2101, 1, 2, [4], [0], 0, false⟩, ⟨0x2102, 0x2102, 1, 2, [8], [0], 0, false⟩,
   ⟨0x2103, 0x2103, 0, 0, [2], [2], 2, true⟩, ⟨0x2104, 0x2104, 1, 184, [1], [0], 0, false⟩,
   ⟨0x2105, 0x2105, 0, 0, [4], [0], 0, false⟩, ⟨0x2200, 0x2200, 1, 112, [6], [0], 0, false⟩,
   ⟨0x2201, 0x2201, 1, 40, [4], [0], 0, false⟩, ⟨0x2202, 0x2202, 1, 96, [2], [0], 0, false⟩,
   ⟨0x2203, 0x2203, 1, 2, [3, 4], [2, 0], 0, false⟩, ⟨0x2204, 0x2204, 1, 2, [8], [0], 0, false⟩,
   ⟨0x3000, 0x3000, 0, 0, [2], [2], 1, false⟩, ⟨0x3001, 0x3001, 1, 5, [2, 4, 4, 8, 8], [0], 0, false⟩,
   ⟨0x3100, 0x3100, 0, 0, [2], [2], 1, false⟩, ⟨0x3101, 0x3101, 1, 4, [4, 8, 10, 2], [0], 0, false⟩]

/-- The entries 0x4000 to 0x6FFF (R487). -/
def dictRowsC : List DictRow :=
  [⟨0x4000, 0x4000, 0, 0, [9], [0], 0, false⟩, ⟨0x4001, 0x4001, 0, 0, [8], [0], 0, false⟩,
   ⟨0x4002, 0x4002, 1, 2, [5, 9], [1], 2, false⟩, ⟨0x4010, 0x4010, 1, 2, [3, 10], [1], 2, false⟩,
   ⟨0x4011, 0x4011, 0, 0, [1], [1], 2, false⟩, ⟨0x4012, 0x4012, 1, 4, [4], [2], 2, true⟩,
   ⟨0x5000, 0x5000, 0, 0, [3], [2], 1, false⟩, ⟨0x5001, 0x5010, 0, 0, [5], [0], 0, false⟩,
   ⟨0x5011, 0x5015, 0, 0, [7], [0], 0, false⟩, ⟨0x5100, 0x5100, 0, 0, [3], [2], 1, false⟩,
   ⟨0x5101, 0x5108, 0, 0, [5], [0], 0, false⟩, ⟨0x5109, 0x510C, 0, 0, [7], [0], 0, false⟩,
   ⟨0x6000, 0x6000, 0, 0, [2], [2], 1, false⟩, ⟨0x6001, 0x6001, 1, 2, [8, 2], [0], 0, false⟩,
   ⟨0x6002, 0x6002, 1, 16, [7], [0], 0, false⟩, ⟨0x6100, 0x6100, 0, 0, [3], [2], 1, false⟩,
   ⟨0x6101, 0x6101, 1, 9, [5], [0], 0, false⟩]

/-- The entries 0x7000 to 0xF006 (R487). -/
def dictRowsD : List DictRow :=
  [⟨0x7000, 0x7000, 1, 4, [5], [2], 2, false⟩, ⟨0x7001, 0x7001, 1, 2, [5, 7], [2, 0], 1, false⟩,
   ⟨0x8000, 0x8000, 0, 0, [2], [2], 1, false⟩, ⟨0x8001, 0x8002, 0, 0, [10], [0], 0, false⟩,
   ⟨0x9000, 0x9000, 0, 0, [8], [0], 0, false⟩, ⟨0x9001, 0x9001, 1, 4, [8], [2], 4, false⟩,
   ⟨0x9002, 0x9002, 1, 3, [7], [0], 0, false⟩, ⟨0x9003, 0x9003, 1, 8, [10], [0], 0, false⟩,
   ⟨0x9004, 0x9004, 1, 3, [1, 9, 5], [0, 0, 2], 1, false⟩, ⟨0xA000, 0xA000, 0, 0, [8], [0], 0, false⟩,
   ⟨0xA001, 0xA001, 0, 0, [8], [1], 4, false⟩, ⟨0xA002, 0xA002, 0, 0, [9], [0], 0, false⟩,
   ⟨0xA003, 0xA003, 0, 0, [2], [2], 4, true⟩, ⟨0xF001, 0xF001, 1, 5, [8, 5, 1, 2, 5], [2, 2, 1, 0, 0], 2, false⟩,
   ⟨0xF002, 0xF002, 0, 0, [1], [2], 2, false⟩, ⟨0xF003, 0xF003, 0, 0, [8], [1], 2, false⟩,
   ⟨0xF004, 0xF004, 1, 2, [9], [1, 0], 1, false⟩, ⟨0xF005, 0xF005, 0, 0, [2], [1], 2, false⟩,
   ⟨0xF006, 0xF006, 1, 4, [5, 5, 5, 9], [0, 0, 2, 0], 1, false⟩]

/-- The dictionary's rows. -/
def dictRows : List DictRow := dictRowsA ++ dictRowsB ++ dictRowsC ++ dictRowsD

/-- The row of an index. -/
def dictRow (i : Nat) : Option DictRow := dictRows.find? fun r => decide (r.first ≤ i) && decide (i ≤ r.last)

/-- The type code and the access of a sub-index. -/
def rowType (r : DictRow) (sub : Nat) : Nat := r.ty.getD (sub - r.lo) (r.ty.getLastD 0)
def rowAccess (r : DictRow) (sub : Nat) : Nat := r.acc.getD (sub - r.lo) (r.acc.getLastD 0)

/-- Does an entry's value stay in the log store (RWP)? -/
def dictKeeps (i : Nat) : Bool :=
  match dictRow i with
  | some r => r.keeps
  | none => false

/-- The key of a per-entry value. -/
def entryKey (i sub : Nat) : Nat := 256 * i + sub

/-- May the roles read the index: officer alone within 0xA000, observer or officer elsewhere (R479)? -/
def mayRead (roles i : Nat) : Bool :=
  if i / 4096 = 10 then roles.testBit 2 else roles.testBit 0 || roles.testBit 2

/-- May the roles make the row's writes? -/
def mayWrite (roles : Nat) (r : DictRow) : Bool := r.role == 0 || roles &&& r.role != 0

/-- The row, once a read of it is permitted; else the result code (R477). -/
def readCheck (roles i sub : Nat) : Except Nat DictRow :=
  match dictRow i with
  | none => .error rNoEntry
  | some r =>
    if sub < r.lo ∨ r.hi < sub then .error rNoSubindex
    else if rowAccess r sub = 1 then .error rAccess
    else if !mayRead roles i then .error rRole else .ok r

/-- The row, once a write of it is permitted; else the result code (R477). -/
def writeCheck (roles i sub : Nat) : Except Nat DictRow :=
  match dictRow i with
  | none => .error rNoEntry
  | some r =>
    if sub < r.lo ∨ r.hi < sub then .error rNoSubindex
    else if rowAccess r sub = 0 then .error rAccess
    else if !mayWrite roles r then .error rRole else .ok r

/-- The octets of a type whose length is fixed (R478). -/
def typeLength (ty : Nat) : Option Nat :=
  [none, some 1, some 1, some 2, some 3, some 5, some 5, some 9, some 1].getD ty none

/-- Is a value well formed for its type: its length and its unused bits (R478)? -/
def typeOk (ty : Nat) (v : List Octet) : Bool :=
  let top := (v.headD 0).toNat
  (match typeLength ty with
    | some n => v.length == n
    | none => true)
  && (match ty with
    | 1 => decide (top ≤ 1)
    | 4 => decide (top < 4)
    | 5 | 6 => decide (top < 16)
    | 10 => v.length % 5 == 0 && (chunks 5 v).all fun c => decide ((c.headD 0).toNat < 16)
    | 11 => v.all fun o => decide (0x20 ≤ o.toNat) && decide (o.toNat ≤ 0x7E)
    | _ => true)

/-- A word as U36, and words as WORDS (R478). -/
def u36 (w : Word) : List Octet := beOctets 5 w.toNat
def wordsValue (ws : List Word) : List Octet := ws.flatMap u36

/-- The octets of a text. -/
def textOctets (t : String) : List Octet := t.toList.map fun c => BitVec.ofNat 8 c.toNat

/-- An integer as I36. -/
def i36 (n : Int) : List Octet := beOctets 5 (n % (2 ^ 36 : Int)).toNat

/-- A selector of a session. -/
def sel (x : Session) (i sub : Nat) : Nat := smGet 0 x.sel (entryKey i sub)

/-- The device state of entry 0x2000: BOOT until the first lane opens or result 8 (18 R502, R504). DEDUCED, log 60. -/
def deviceState (s : State) : Nat :=
  if s.boot.tampered then 4
  else if s.power.sealedTemp then 3
  else if s.power.paddle then 2
  else if s.boot.laneOpened ∨ s.boot.result = 8 then 1 else 0

/-- SHA-256 of the identity key's modulus; zero without an identity key (DESIGN CHOICE, log 60). -/
def idKeyHash (s : State) : List Octet :=
  match s.custody.identity with
  | some ws => sha .sha256 (beOctets 384 (identityModulus ws))
  | none => List.replicate 32 0

/-- Is power domain d, in the order of 16 R454, switched on? Keel powers the crews, their coxes with them (18 R502). -/
def domainOn (s : State) (d : Nat) : Bool :=
  if dark s.power then (d == 168 && !s.power.offAll) || d == 182 || d == 183
  else if d < 72 then (getSeat s d).powered
  else if d < 83 then s.boot.done
  else !smGet false s.power.domOff d

/-- How a seat stands (R487 0x3101): active, spare, check stop or off. -/
def seatStanding (s : State) (q : Nat) : Nat :=
  let x := getSeat s q
  if x.checkStop.isSome then 2
  else if q % 9 = 8 ∧ !x.gone ∧ (positionOf s (leafOf q) q).isNone then 1
  else if x.powered && !dark s.power then 0 else 3

/-- The jobs in progress of a unit, and whether it is off, idle or busy (R487 0x6001). -/
def unitJobsNow (s : State) (u : Nat) : Nat :=
  if u = 0o200 ∨ u = 0o201 then (s.galley.chans.filter fun e => e.2.xfer.isSome).length
  else (s.engines.jobs.filter fun j => j.unit == u).length
def unitStanding (s : State) (u : Nat) : Nat :=
  let engine := isPlaten u || isCipher u || isDigest u
  if dark s.power || !unitCodes.contains u || (engine && smGet false s.power.domOff (unitDomain u)) then 0
  else if 0 < unitJobsNow s u then 2 else 1

/-- The length of the journal in the log store (R488). -/
def journalLength (p : Power) : Nat :=
  64 + 8 * beNat (slice p.journal 20 4) + beNat (slice p.journal 24 4)

/-- The oldest entry number of the event log. -/
def logOldest (i : Irrix) : Nat := i.logNext - 8192

/-- A feed's state in the coding of entry 0x2102. -/
def feedCode : FeedState → Nat
  | .good => 0 | .sag => 1 | .loss => 2 | .over => 3

/-- A persistent or writable entry's default (R487). -/
def entryDefault (i sub : Nat) : List Octet :=
  if i = 0x1100 then (if sub = 1 then [1] else [3])
  else if i = 0x1101 then [1]
  else if i = 0x1102 then beOctets 3 30
  else if i = 0x1103 then beOctets 2 1000
  else if i = 0x1105 then [[0], List.replicate 4 0, List.replicate 16 0, beOctets 2 47365].getD (sub - 1) []
  else if i = 0x1201 then List.replicate 5 0
  else if i = 0x1202 then [0]
  else if i = 0x1206 then [15]
  else if i = 0x2001 then beOctets 5 50
  else if i = 0x2103 then [100]
  else if i = 0x4012 then beOctets 3 65535
  else if i = 0xA003 then [0xFF]
  else []

/-- The stored value of an entry, or its default. -/
def stored (s : State) (i sub : Nat) : List Octet := entryValue s i sub (entryDefault i sub)

/-- The values of the entries 0x1000 to 0x2FFF (R487). A monitor reading that no command brings is a free value (log 5). -/
def dictValueA (s : State) (i sub : Nat) : List Octet :=
  let p := s.power
  let reading := fun n k : Nat => beOctets n (Config.reading i sub s.free % 2 ^ k)
  if i = 0x1000 then textOctets "Dindoren Microsystems"
  else if i = 0x1001 then textOctets (if bit (otpWord s 0o53) 0 then "KT3672-CE" else "KT3672-CS")
  else if i = 0x1002 then textOctets "B1"
  else if i = 0x1003 then serialOctets s
  else if i = 0x1004 then idKeyHash s
  else if i = 0x1005 then beOctets 1 s.pins.node.toNat
  else if i = 0x1006 then beOctets 2 0x0100
  else if i = 0x1104 then
    beOctets 1 (((s.irrix.sessions.find? fun y => y.trClass == 0 && y.mgr == sub).map Session.roles).getD 0)
  else if i = 0x1106 then beOctets 9 (smGet 0 s.irrix.frames sub)
  else if i = 0x1200 then beOctets 9 s.time
  else if i = 0x1204 then beOctets 9 s.irrix.ppsCap
  else if i = 0x1205 then i36 s.irrix.ppsErr
  else if i = 0x1207 then beOctets 9 (getPort s (sub - 1)).ptpStamp
  else if i = 0x1208 then beOctets 2 (getPort s (sub - 1)).ptpSeq
  else if i = 0x2000 then beOctets 1 (deviceState s)
  else if i = 0x2002 then u36 (paddleWord p)
  else if i = 0x2003 then beOctets 9 (s.time - s.irrix.tbShift)
  else if i = 0x2102 then beOctets 1 (feedCode (if sub = 1 then p.feedA else p.feedB))
  else if i = 0x2104 then beOctets 1 (if domainOn s (sub - 1) then 1 else 0)
  else if i = 0x2204 then beOctets 1 (if (if sub = 1 then s.custody.entropy0 else s.custody.entropy1) then 0 else 1)
  else if i = 0x2100 ∨ i = 0x2101 ∨ i = 0x2105 ∨ i = 0x2201 ∨ i = 0x2203 then reading 3 18
  else if i = 0x2200 then reading 5 36
  else if i = 0x2202 then reading 1 8
  else stored s i sub

/-- Counter n of a block of counter space, as U72. -/
def counterOctets (s : State) (off n : Nat) : List Octet := beOctets 9 (counterValue s (counterKey off n))

/-- The values of the entries 0x3000 to 0x6FFF (R487). -/
def dictValueB (s : State) (x : Session) (i sub : Nat) : List Octet :=
  if i = 0x3001 then
    let h := sel x 0x3000 0
    let k := getCox s h
    [beOctets 1 k.n, beOctets 3 k.l, beOctets 3 (strokeIndex s k), beOctets 1 k.set,
     beOctets 1 (if k.spent then 1 else 0)].getD (sub - 1) []
  else if i = 0x3101 then
    let q := sel x 0x3100 0
    [beOctets 3 (seatIdWord q).toNat, beOctets 1 (seatStanding s q),
     wordsValue (allBanks.map (bankActWord s (getSeat s q))),
     beOctets 1 ((positionOf s (leafOf q) q).getD 15)].getD (sub - 1) []
  else if i = 0x4000 then (if s.boot.impHash.isEmpty then List.replicate 32 0 else s.boot.impHash)
  else if i = 0x4001 then beOctets 1 s.boot.standby
  else if 0x5001 ≤ i ∧ i ≤ 0x5010 then u36 (laneWord s (sel x 0x5000 0) (i - 0x5001))
  else if 0x5011 ≤ i ∧ i ≤ 0x5014 then counterOctets s (0o1000000 + 8 * sel x 0x5000 0) (i - 0x5011)
  else if i = 0x5015 then counterOctets s (0o3000000 + 2 * sel x 0x5000 0) 0
  else if 0x5101 ≤ i ∧ i ≤ 0x5108 then u36 (classWord s (sel x 0x5100 0) (i - 0x5101))
  else if 0x5109 ≤ i ∧ i ≤ 0x510C then counterOctets s (0o3500000 + 0o10 * sel x 0x5100 0) (i - 0x5109)
  else if i = 0x6001 then
    beOctets 1 (if sub = 1 then unitStanding s (sel x 0x6000 0) else unitJobsNow s (sel x 0x6000 0))
  else if i = 0x6002 then counterOctets s (0o120000 + 0o40 * sel x 0x6000 0) (sub - 1)
  else if i = 0x6101 then u36 (chanWord (getChan s (sel x 0x6100 0)) (sub - 1))
  else if i = 0x4012 then stored s i sub
  else []

/-- A per-session number in the octets of its type. -/
def selValue (x : Session) (i sub ty : Nat) : List Octet := beOctets ((typeLength ty).getD 0) (sel x i sub)

/-- The values of the entries 0x7000 to 0xFFFF (R487). -/
def dictValueC (s : State) (x : Session) (i sub : Nat) : List Octet :=
  if i = 0x7000 then u36 (sysRead s 0 (0o447 + sub)).1
  else if i = 0x7001 then beOctets 9 (counterValue s (sel x 0x7001 1 / 2))
  else if i = 0x8001 then wordsValue ((List.range 4).map (descWord s.fence (sel x 0x8000 0)))
  else if i = 0x8002 then wordsValue [s.fence.fltAddr, s.fence.fltInfo, BitVec.ofNat 36 s.fence.fltCount]
  else if i = 0x9000 then beOctets 1 s.boot.result
  else if i = 0x9001 then beOctets 1 (if bit (otpWord s 0o40) (sub - 1) then 1 else 0)
  else if i = 0x9002 then beOctets 9 (rollback s (sub - 1))
  else if i = 0x9003 then wordsValue (mrWords s (sub - 1))
  else if i = 0x9004 then
    (if sub = 1 then beOctets 1 (if s.power.journalOk then 1 else 0)
     else slice ((s.power.journal ++ List.replicate 64 0).take (journalLength s.power)) (sel x 0x9004 3) 65536)
  else if i = 0xA000 then
    beOctets 1 (match s.custody.mkState with | .absent => 0 | .present => 1 | .zeroised => 2)
  else if i = 0xA002 then
    (if s.custody.mkState = .present then beOctets 3 (kcvOf 3 s.custody.mkKey []).toNat
     else beOctets 3 (Config.reading i sub s.free))
  else if i = 0xA003 then stored s i sub
  else if i = 0xF001 then (if sub = 4 then beOctets 1 s.irrix.wayStat else beOctets 5 (s.irrix.wayTime % 2 ^ 36))
  else if i = 0xF002 then beOctets 1 (if s.power.commandT then 1 else 0)
  else if i = 0xF004 then x.sheet
  else if i = 0xF006 then
    (if sub = 1 then beOctets 5 (logOldest s.irrix % 2 ^ 36)
     else if sub = 2 then beOctets 5 ((s.irrix.logNext - 1) % 2 ^ 36)
     else smGet [] s.irrix.log (sel x 0xF006 3))
  else []

/-- May an entry that the row admits be read just now (R488, R492, 18 R509)? -/
def readState (s : State) (x : Session) (i sub : Nat) : Nat :=
  if i = 0x9004 ∧ sub = 2 ∧ journalLength s.power ≤ sel x 0x9004 3 then rRange
  else if i = 0xF004 ∧ x.sheet.isEmpty then rState
  else if i = 0xF006 ∧ sub = 4 ∧ (sel x 0xF006 3 < logOldest s.irrix ∨ s.irrix.logNext ≤ sel x 0xF006 3) then rRange
  else rOK

/-- The value of an entry. -/
def dictValue (s : State) (x : Session) (r : DictRow) (i sub : Nat) : List Octet :=
  if rowAccess r sub = 2 ∧ !r.keeps ∧ i ≠ 0x1201 ∧ i ≠ 0x7000 ∧ i ≠ 0x9001 ∧ i ≠ 0xF002 then
    selValue x i sub (rowType r sub)
  else if i < 0x3000 then dictValueA s i sub
  else if i < 0x7000 then dictValueB s x i sub else dictValueC s x i sub

/-- The lane unit reaches the granule of a descriptor word that a read shows (R487, 09 R280). What the read shows where the
fence refuses is a free value (log 75). -/
def dictReach (s : State) (x : Session) (i : Nat) : Bool × State :=
  if 0x5001 ≤ i ∧ i ≤ 0x5010 then laneReach s (sel x 0x5000 0) ((i - 0x5001) / 4) else (true, s)

/-- A read that shows a counter brings its count up to date (15 R439). -/
def dictSettle (s : State) (x : Session) (i sub : Nat) : State :=
  if i = 0x6002 then counterSettle s (counterKey (0o120000 + 0o40 * sel x 0x6000 0) (sub - 1))
  else if i = 0x7001 ∧ sub = 2 then counterSettle s (sel x 0x7001 1 / 2)
  else s

/-- A read of the dictionary: the result code, or the type code and the value (R486, R487). -/
def dictRead (s : State) (x : Session) (i sub : Nat) : Except Nat (Nat × List Octet) × State :=
  match readCheck x.roles i sub with
  | .error c => (.error c, s)
  | .ok r =>
    let c := readState s x i sub
    if c ≠ rOK then (.error c, s)
    else match dictReach (dictSettle s x i sub) x i with
    | (true, s) => (.ok (rowType r sub, dictValue s x r i sub), { s with free := s.free + 1 })
    | (false, s) => (.ok (rowType r sub, u36 (Config.openWord s.free)), { s with free := s.free + 1 })

/-- Changes a session that is in the state. -/
def modSession (s : State) (c m : Nat) (f : Session → Session) : State :=
  match findSession s c m with
  | some x => putSession s (f x)
  | none => s

/-- Is the value within the entry's range (R487 and the rules it cites)? -/
def rangeOk (s : State) (i sub : Nat) (v : List Octet) : Bool :=
  let n := beNat v
  let within := fun lo hi => decide (lo ≤ n) && decide (n ≤ hi)
  if i = 0x1100 then decide (n ≤ if sub = 1 then 1 else 3)
  else if i = 0x1102 then within 1 3600
  else if i = 0x1103 then n == 0 || within 100 60000
  else if i = 0x1110 then decide ((v.headD 0).toNat < 8)
  else if i = 0x1201 then decide (n ≤ 200000) || within (2 ^ 36 - 200000) (2 ^ 36 - 1)
  else if i = 0x1202 then decide (n ≤ 2)
  else if i = 0x1203 then decide (s.time ≤ n)
  else if i = 0x1206 then decide (n ≤ 15)
  else if i = 0x2001 then within 1 60000
  else if i = 0x2103 then within 95 102
  else if i = 0x3000 then decide (n ≤ 10)
  else if i = 0x3100 ∨ i = 0xF005 then decide (n ≤ 71)
  else if i = 0x4002 ∧ sub = 1 then decide (n < 0x4000000)
  else if i = 0x4010 ∧ sub = 1 then decide (n ≤ 4095)
  else if i = 0x5100 ∨ i = 0x6100 then decide (n ≤ 1023)
  else if i = 0x8000 then decide (n ≤ 127)
  else if i = 0x9001 then n == 1
  else if i = 0x9004 then decide (n < journalLength s.power)
  else if i = 0xA001 then within 1 2
  else if i = 0xF001 ∧ sub = 1 then within 1 7
  else if i = 0xF003 then within 1 3
  else true

/-- Is the length right where the type leaves it open (R487)? -/
def lengthOk (i sub : Nat) (v : List Octet) : Bool :=
  if i = 0x1105 ∧ sub = 2 then v.length == 4
  else if i = 0x1105 ∧ sub = 3 then v.length == 16
  else if i = 0x1110 then v.isEmpty || v.length == 389
  else if i = 0x4010 ∧ sub = 2 then v.length == 10
  else if i = 0x4002 ∧ sub = 2 then !v.isEmpty
  else if i = 0xF004 then v.length == 32
  else true

/-- The state after a command, with its result code. -/
abbrev Did := Nat × State

/-- 0x4002 sub-index 2: octets into the staged set, a sector erased first at its own offset (18 R511). -/
def imagePut (s : State) (x : Session) (v : List Octet) : Did :=
  let o := sel x 0x4002 1
  if s.boot.phase = 4 then (rState, s)
  else if 0x4000000 < o + v.length then (rRange, s)
  else
    let a := imageSet (stagedSet s) + o
    let s := if o % 65536 = 0 then
        { s with boot := { s.boot with flash := smClear s.boot.flash a (a + 65535) } }
      else s
    (rOK, flashPut s a v)

/-- 0x9001: revokes a root slot, unless none would stay live (18 R496). -/
def rootRevoke (s : State) (r : Nat) : Did :=
  let others := (List.range 4).any fun k => k != r && rootLive s k
  if !rootLive s r || !others then (rState, s)
  else (rOK, { s with boot := { s.boot with otp := smSet 0 s.boot.otp 0o40 (otpWord s 0o40 ||| flag r true) } })

/-- 0xA001: 1 generates the master key from D0, 2 zeroises it (12 R368). -/
def masterKey (s : State) (n : Nat) : Did :=
  let c := s.custody
  if n = 2 then (rOK, { s with custody := { c with mkState := .zeroised, mkKey := [] } })
  else if c.mkState = .present ∨ drbgRefuses s 0 then (rState, s)
  else
    let (k, s) := drbgDraw s 0 32
    (rOK, { s with custody := { s.custody with mkState := .present, mkKey := k } })

/-- 0xF003: 1 verify, 2 switch, 3 discard (18 R512). -/
def changeoverCommand (s : State) (n : Nat) : Did :=
  let b := s.boot
  if b.phase = 4 then (rState, s)
  else if n = 1 then
    (rOK, { s with boot := { b with standby := 1, phase := 1, armedAt := none, mhold := false } })
  else if n = 2 then
    if b.standby = 2 then (rOK, { s with boot := { b with phase := 3, armedAt := some s.time } }) else (rState, s)
  else
    let s := clearStandby s
    (rOK, { s with boot := { s.boot with standby := 0, phase := 0, armedAt := none, mhold := false, keelNew := false,
                                         strokeNew := false, bowNew := false, impNew := false, staged := [] } })

/-- 0xF004 sub-index 1: a nonce asks for a proof sheet (18 R509). Without an identity key no sheet can be signed: STATE.
DEDUCED, log 60. -/
def proofRequest (s : State) (c m : Nat) (x : Session) (v : List Octet) : Did :=
  if s.boot.tampered || s.custody.identity.isNone then (rState, s)
  else if x.nonce.isSome then (rBusy, s)
  else (rOK, modSession s c m fun x => { x with nonce := some v, sheet := [] })

/-- 0xF001 sub-index 3: a write of 1 submits the session's command; a target that does not exist is RANGE (R490, R491). -/
def waySubmit (s : State) (c m seq : Nat) (x : Session) (n : Nat) : Did :=
  if n = 0 then (rOK, s)
  else
    let (st, s) := acceptWay s (sel x 0xF001 1) (sel x 0xF001 2) (some (c, m, seq)) none []
    (if st = 0 then rOK else if st = 3 then rBusy else rRange, s)

/-- 0x1203: the timebase is set forward while no lane is open (R487, R489). -/
def tbSet (s : State) (n : Nat) : Did :=
  if s.boot.laneOpened then (rState, s)
  else
    (rOK, { s with time := n, irrix := { s.irrix with tbShift := s.irrix.tbShift + (n - s.time) },
                   galley := { s.galley with shadow := s.counters } })

/-- An RWP value goes to the log store, whose write may fail: PERSIST, with the value unchanged (R477, R486). Whether it
fails is a free value. DESIGN CHOICE, log 45. -/
def persistWrite (s : State) (i sub : Nat) (v : List Octet) : Did :=
  if Config.persistFails s.free then (rPersist, { s with free := s.free + 1 })
  else
    (rOK, { s with free := s.free + 1,
                   irrix := { s.irrix with values := smSet [] s.irrix.values (entryKey i sub) v } })

/-- What a write does once it is permitted and its value is in range (R486, R487). -/
def dictEffect (s : State) (c m seq : Nat) (x : Session) (r : DictRow) (i sub : Nat) (v : List Octet) : Did :=
  let n := beNat v
  if r.keeps then persistWrite s i sub v
  else if i = 0x1201 then
    (rOK, { s with irrix := { s.irrix with values := smSet [] s.irrix.values (entryKey i sub) v } })
  else if i = 0x1203 then tbSet s n
  else if i = 0x4002 ∧ sub = 2 then imagePut s x v
  else if i = 0x4010 ∧ sub = 2 then
    let s := steeringNow s
    (rOK, { s with eth := { s.eth with bucketSb := smSetList 0 s.eth.bucketSb (2 * sel x 0x4010 1) (imageWords v) } })
  else if i = 0x4011 then
    let s := steeringNow s
    (rOK, if n = 1 then { s with eth := { s.eth with switchReq := some s.time } } else s)
  else if i = 0x7000 then (rOK, (sysWrite s 0 (0o447 + sub) (BitVec.ofNat 36 n)).2)
  else if i = 0x9001 then rootRevoke s (sub - 1)
  else if i = 0xA001 then masterKey s n
  else if i = 0xF001 ∧ sub = 3 then waySubmit s c m seq x n
  else if i = 0xF002 then (rOK, withPower s fun p => { p with commandT := n == 1 })
  else if i = 0xF003 then changeoverCommand s n
  else if i = 0xF004 then proofRequest s c m x v
  else if i = 0xF005 then (rOK, checkStop s n)
  else (rOK, modSession s c m fun x => { x with sel := smSet 0 x.sel (entryKey i sub) n })

/-- A write of the dictionary: the result code and the state (R477, R478, R486, R487). c and m name the session, seq the
request. -/
def dictWrite (s : State) (c m seq : Nat) (x : Session) (i sub ty : Nat) (v : List Octet) : Did :=
  match writeCheck x.roles i sub with
  | .error k => (k, s)
  | .ok r =>
    if ty ≠ rowType r sub ∨ !typeOk ty v ∨ !lengthOk i sub v then (rType, s)
    else if !rangeOk s i sub v then (rRange, s)
    else dictEffect s c m seq x r i sub v

end Sys2Proof.Machine
end

