-- ==== Sys2Proof/Machine/Frames.lean ====
section
/-! DEFINITION. Irrix frames: their acceptance, transfers, sessions and authentication, heartbeats, and the three mirrors
(17 R472 to R486). -/

namespace Sys2Proof.Machine

/-- The fields of the identifier (R473). -/
def fFn (f : Frame) : Nat := f.ident.toNat / 2 ^ 24
def fNode (f : Frame) : Nat := f.ident.toNat / 2 ^ 17 % 128
def fMgr (f : Frame) : Nat := f.ident.toNat / 2 ^ 9 % 256
def fSeq (f : Frame) : Nat := f.ident.toNat % 512

/-- The fields of the octets (R475). -/
def fControl (f : Frame) : Nat := octAt f.octets 0
def fIndex (f : Frame) : Nat := be16 f.octets 1
def fSub (f : Frame) : Nat := octAt f.octets 3
def fType (f : Frame) : Nat := octAt f.octets 4
def fLen (f : Frame) : Nat := octAt f.octets 5
def fValue (f : Frame) : List Octet := slice f.octets 6 (fLen f)
def fSeg (f : Frame) : Bool := (fControl f).testBit 6

/-- The identifier and the octets, by which a repeated frame is known (R482). -/
def frameKey (f : Frame) : List Octet := beOctets 4 f.ident.toNat ++ f.octets

/-- Frames that answer a request: their function and their octets before the counter. -/
abbrev Reply := List (Nat × List Octet)

/-- Does a transport bring frames to the dictionary server (R472, R484, R487 0x1101, 16 R471)? -/
def transportUp (s : State) : Transport → Bool
  | .fieldPort fp => alive s && ((s.pins.node == 0 && !s.power.offAll) || !portSilent s fp.val)
  | .window => hostReaches s
  | .udp p => portUp s p.val && stored s 0x1105 1 == [1]
  | .mailbox _ => alive s && !dark s.power

/-- Is the function one that a manager sends (R473)? -/
def managerFn (fn : Nat) : Bool := [0, 1, 3, 5, 6, 9].contains fn

/-- Does a frame come over a field port? -/
def onField (f : Frame) : Bool := match f.transport with | .fieldPort _ => true | _ => false

/-- Is a frame for this module (R472, R473, 19 R529)? -/
def frameForUs (s : State) (f : Frame) : Bool :=
  !(onField f && (s.pins.node == 0 || f.classical)) && f.octets.length == 64 && managerFn (fFn f) && fNode f == s.pins.node.toNat
    && decide (1 ≤ fMgr f) && decide (fMgr f ≤ 254) && decide (fControl f < 128)

/-- A frame that is ignored and counted. -/
def ignoreFrame (s : State) : State := { s with irrix := { s.irrix with ignored := s.irrix.ignored + 1 } }

/-- Sends replies of a session, each with its own counter and tag; those of the mailbox carry neither (R482, R485). The
frames sent, and the state. -/
def sendReplies (c m : Nat) (tr : Transport) (peer : List Octet) (sq : Nat) : Reply → State → List OutFrame × State
  | [], s => ([], s)
  | (fn, body) :: rs, s =>
    let ident := identOf fn s.pins.node.toNat m sq
    let x := (findSession s c m).getD {}
    let o := if c = 3 then plainFrame body else tagFrame x.key ident (x.txCount + 1) body
    let f : OutFrame := { transport := tr, peer := peer, ident := ident, octets := o }
    let s := sendFrame (modSession s c m fun x => { x with txCount := x.txCount + 1 }) false f
    let (fs, s) := sendReplies c m tr peer sq rs s
    (f :: fs, s)

/-- An untagged answer to a frame. -/
def sendPlain (s : State) (f : Frame) (peer : List Octet) (fn : Nat) (body : List Octet) : State :=
  sendFrame s false { transport := f.transport, peer := peer, ident := identOf fn s.pins.node.toNat (fMgr f) (fSeq f),
                      octets := plainFrame body }

/-- The function of the answer to a request. DEDUCED (log 53) for the rest: a segment or an abort is answered by an abort. -/
def answerFn (fn : Nat) : Nat := if fn = 1 then 2 else if fn = 3 then 4 else if fn = 0 then 0 else 6

/-- A short answer with a result code. -/
def codeReply (f : Frame) (fn code : Nat) : Reply := [(fn, frameBody (128 + code) (fIndex f) (fSub f) 0 [])]

/-- The octets of a SEGMENT frame (R475). -/
def segmentBody (n : Nat) (data : List Octet) : List Octet :=
  ([0x80] ++ beOctets 2 n ++ [BitVec.ofNat 8 data.length] ++ data ++ List.replicate 50 0).take 54

/-- How many segments a value takes. -/
def segments (n : Nat) : Nat := (n + 49) / 50

/-- Segments lo to hi - 1 of a value. -/
def segmentReply (data : List Octet) (lo hi : Nat) : Reply :=
  (List.range (hi - lo)).map fun k => (5, segmentBody (lo + k) (slice data (50 * (lo + k)) 50))

/-- A READ_REQ (R476, R486). A long value needs a segmented transfer; a short one is answered expedited either way. -/
def readFrame (s : State) (c m : Nat) (x : Session) (f : Frame) : Reply × State :=
  let i := fIndex f
  let sub := fSub f
  if fSeg f && x.xfer.isSome then (codeReply f 2 rBusy, s)
  else match dictRead s x i sub with
  | (.error k, s) => (codeReply f 2 k, s)
  | (.ok (ty, v), s) =>
    if v.length ≤ 48 then ([(2, frameBody 128 i sub ty v)], s)
    else if !fSeg f then (codeReply f 2 rType, s)
    else
      let t : Transfer := { write := false, index := i, sub := sub, tcode := ty, seq := fSeq f, total := v.length, data := v,
                            next := 0, since := s.time }
      ((2, frameBody (128 + 64) i sub ty (beOctets 3 v.length)) :: segmentReply v 0 (min 16 (segments v.length)),
        modSession s c m fun x => { x with xfer := some t })

/-- A WRITE_REQ (R476, R486). -/
def writeFrame (s : State) (c m : Nat) (x : Session) (f : Frame) : Reply × State :=
  let i := fIndex f
  let sub := fSub f
  if 48 < fLen f then (codeReply f 4 rType, s)
  else if !fSeg f then
    let (k, s) := dictWrite s c m (fSeq f) x i sub (fType f) (fValue f)
    (codeReply f 4 k, s)
  else if x.xfer.isSome then (codeReply f 4 rBusy, s)
  else match writeCheck x.roles i sub with
  | .error k => (codeReply f 4 k, s)
  | .ok r =>
    let n := beNat (fValue f)
    if fLen f ≠ 3 ∨ n < 49 ∨ 65536 < n ∨ fType f ≠ rowType r sub then (codeReply f 4 rType, s)
    else
      let t : Transfer := { write := true, index := i, sub := sub, tcode := fType f, seq := fSeq f, total := n, data := [],
                            next := 0, since := s.time }
      ([], modSession s c m fun x => { x with xfer := some t })

/-- Ends the session's transfer with a TRANSFER_ABORT frame (R476). -/
def abortTransfer (s : State) (c m : Nat) (t : Transfer) (code : Nat) : Reply × State :=
  ([(6, frameBody (128 + code) t.index t.sub 0 [])], modSession s c m fun x => { x with xfer := none })

/-- A manager's data segment of a write (R476). -/
def dataSegment (s : State) (c m : Nat) (x : Session) (f : Frame) (t : Transfer) : Reply × State :=
  let used := fSub f
  let data := t.data ++ slice f.octets 4 used
  if fIndex f ≠ t.next then abortTransfer s c m t rSequence
  else if used = 0 ∨ 50 < used ∨ t.total < data.length then abortTransfer s c m t rType
  else
    let n := t.next + 1
    let last := data.length == t.total
    let ack : Reply := if last || n % 16 == 0 then [(5, segmentBody n [])] else []
    if last then
      let s := modSession s c m fun x => { x with xfer := none }
      let (k, s) := dictWrite s c m t.seq { x with xfer := none } t.index t.sub t.tcode data
      (ack ++ [(4, frameBody (128 + k) t.index t.sub 0 [])], s)
    else
      (ack, modSession s c m fun x => { x with xfer := some { t with data := data, next := n, since := s.time } })

/-- A manager's acknowledgement of a read's segments (R476). -/
def ackSegment (s : State) (c m : Nat) (f : Frame) (t : Transfer) : Reply × State :=
  let n := fIndex f
  let all := segments t.total
  let sent := min (t.next + 16) all
  if n ≤ t.next ∨ sent < n then abortTransfer s c m t rSequence
  else if n = all then ([], modSession s c m fun x => { x with xfer := none })
  else (segmentReply t.data sent (min (n + 16) all),
    modSession s c m fun x => { x with xfer := some { t with next := n, since := s.time } })

/-- A SEGMENT frame (R476). One without an open transfer of its sequence is ignored and counted. -/
def segmentFrame (s : State) (c m : Nat) (x : Session) (f : Frame) : Reply × State :=
  match x.xfer with
  | none => ([], ignoreFrame s)
  | some t =>
    if t.seq ≠ fSeq f then ([], ignoreFrame s)
    else if t.write then dataSegment s c m x f t
    else if fSub f = 0 then ackSegment s c m f t else abortTransfer s c m t rSequence

/-- A manager's TRANSFER_ABORT: its transfer has no effect (R476). -/
def abortFrame (s : State) (c m : Nat) (x : Session) (f : Frame) : Reply × State :=
  match x.xfer with
  | none => ([], ignoreFrame s)
  | some t => if t.seq = fSeq f then ([], modSession s c m fun x => { x with xfer := none }) else ([], ignoreFrame s)

/-- A WAYENOUGH frame (R475, R490, R491): accepted, it is answered at completion. -/
def wayFrame (s : State) (c m : Nat) (x : Session) (f : Frame) : Reply × State :=
  let v := fValue f
  let kind := beNat (v.take 1)
  let n := beNat (v.drop 1)
  let answer := fun code st : Nat => ([(0, wayBody code kind n st 0)] : Reply)
  if fIndex f ≠ 0xF001 ∨ fSub f ≠ 0 then (codeReply f 0 rNoEntry, s)
  else if !x.roles.testBit 1 then (codeReply f 0 rRole, s)
  else if fType f = 0 ∨ 11 < fType f ∨ v.length ≠ 6 ∨ 2 ^ 36 ≤ n then (codeReply f 0 rType, s)
  else match acceptWay s kind n (some (c, m, fSeq f)) (some f.transport) (frameKey f) with
  | (0, s) => ([], s)
  | (3, s) => (answer rBusy 3, s)
  | (_, s) => (answer rRange 4, s)

/-- A request of a session, by its function. -/
def request (s : State) (c m : Nat) (x : Session) (f : Frame) : Reply × State :=
  match fFn f with
  | 0 => wayFrame s c m x f
  | 1 => readFrame s c m x f
  | 3 => writeFrame s c m x f
  | 5 => segmentFrame s c m x f
  | _ => abortFrame s c m x f

/-- The smallest counter above the last accepted one with these low 16 bits (R482). -/
def fullCounter (last lo : Nat) : Nat :=
  let k := 65536 * (last / 65536) + lo
  if last < k then k else 65536 + k

/-- Does the tag verify under a counter (R482)? -/
def tagVerifies (x : Session) (f : Frame) (ctr : Nat) : Bool :=
  frameTag x.key f.ident.toNat ctr f.octets == slice f.octets 56 8

/-- Runs an accepted request and sends what answers it; the answer is kept for a repeat (R482). -/
def runFrame (s : State) (c : Nat) (f : Frame) (peer : List Octet) : State :=
  let m := fMgr f
  match findSession s c m with
  | none => s
  | some x =>
    let (rs, s) := request s c m x f
    let (fs, s) := sendReplies c m f.transport peer (fSeq f) rs s
    if c = 3 then s
    else modSession s c m fun x =>
      { x with recent := (frameKey f, fs, s.time) :: x.recent.filter fun r => decide (s.time ≤ 1000000000 + r.2.2) }

/-- A frame of a session whose tag is to be verified (R482): a repeat within 1 s is answered again; a failed tag and a
counter that is not above the last are counted. -/
def sessionFrame (s : State) (c : Nat) (x : Session) (f : Frame) (peer : List Octet) : State :=
  let lo := be16 f.octets 54
  let ctr := fullCounter x.rxCount lo
  match x.recent.find? fun r => r.1 == frameKey f && decide (s.time ≤ 1000000000 + r.2.2) with
  | some r =>
    r.2.1.foldl (fun s o => sendFrame s false { o with transport := f.transport, peer := peer }) (frameCount s 8)
  | none =>
    if tagVerifies x f ctr && decide (ctr < 2 ^ 32) then
      let s := putSession s { x with rxCount := ctr, lastAt := s.time, tr := f.transport, peer := peer }
      runFrame s c f peer
    else if tagVerifies x f ctr || (65536 ≤ ctr && tagVerifies x f (ctr - 65536)) then frameCount s 3
    else frameCount s 2

/-- The manager key record that an authentication names: of 0x1110, or of the set that boot loaded while 0x1110 holds none
(R479, 18 R505). -/
def managerRecord (s : State) (r : Nat) : List Octet :=
  if (List.range 32).any fun k => stored s 0x1110 (k + 1) ≠ [] then stored s 0x1110 r else smGet [] s.boot.mgrKeys r

/-- The octets of an AUTH frame (R480). -/
def authBody (step n : Nat) (data : List Octet) : List Octet :=
  ([BitVec.ofNat 8 (128 + step)] ++ beOctets 2 n ++ [BitVec.ofNat 8 data.length] ++ data ++ List.replicate 50 0).take 54

/-- The attempt of a manager on a transport. -/
def findAuth (s : State) (c m : Nat) : Option Auth :=
  s.irrix.auths.find? fun a => trClassOf a.transport == c && a.mgr == m

/-- The state without the attempt. -/
def dropAuth (s : State) (c m : Nat) : State :=
  { s with irrix := { s.irrix with auths := s.irrix.auths.filter fun a => !(trClassOf a.transport == c && a.mgr == m) } }

/-- A step-15 frame ends the attempt (R480). -/
def authFail (s : State) (f : Frame) (peer : List Octet) (code : Nat) : State :=
  sendPlain (dropAuth s (trClassOf f.transport) (fMgr f)) f peer 9 (authBody 15 0 [BitVec.ofNat 8 code])

/-- AUTH step 1 (R480). -/
def authOne (s : State) (f : Frame) (peer : List Octet) : State :=
  let d := slice f.octets 4 18
  let rec_ := octAt d 0
  let roles := octAt d 1
  let key := managerRecord s rec_
  if key.isEmpty then authFail s f peer rState
  else if roles &&& octAt key 0 ≠ roles then authFail s f peer rRole
  else if drbgRefuses s 3 then authFail s f peer rState
  else
    let (nonce, s) := drbgDraw s 3 32
    let a : Auth := { transport := f.transport, mgr := fMgr f, record := rec_, roles := roles, mnonce := d.drop 2,
                      dnonce := nonce, since := s.time }
    let s := dropAuth s (trClassOf f.transport) (fMgr f)
    sendPlain { s with irrix := { s.irrix with auths := a :: s.irrix.auths } } f peer 9 (authBody 2 0 nonce)

/-- The octets that both sides sign (R480). -/
def authText (s : State) (a : Auth) : List Octet :=
  beOctets 1 s.pins.node.toNat ++ beOctets 1 a.mgr ++ beOctets 1 a.record ++ beOctets 1 a.roles ++ a.mnonce ++ a.dnonce

/-- Installs a session in place of a live one of the same manager and transport (R480, R481). -/
def install (s : State) (x : Session) : State :=
  { s with irrix := { s.irrix with
      sessions := s.irrix.sessions.filter (fun y => !(y.trClass == x.trClass && y.mgr == x.mgr)) ++ [x] } }

/-- AUTH step 3, the signature complete (R480). -/
def authThree (s : State) (f : Frame) (peer sig : List Octet) (a : Auth) : State :=
  let key := managerRecord s a.record
  let n := beNat (slice key 1 384)
  let e := beNat (slice key 385 4)
  let text := authText s a
  if key.isEmpty then authFail s f peer rState
  else if !pssVerify n e text sig then authFail s f peer rRole
  else match s.custody.identity with
  | none => authFail s f peer rState
  | some ws =>
    if drbgRefuses s 3 then authFail s f peer rState
    else
      let (skey, s) := drbgDraw s 3 32
      let (seed, s) := drbgDraw s 3 32
      let ct := oaepEncrypt n e skey seed
      let (sg, s) := identitySign s ws (text ++ ct)
      let data := ct ++ sg
      let s := (List.range 16).foldl (fun s k => sendPlain s f peer 9 (authBody 4 k (slice data (48 * k) 48))) s
      let c := trClassOf f.transport
      install (dropAuth s c (fMgr f))
        { trClass := c, tr := f.transport, peer := peer, mgr := fMgr f, roles := a.roles, key := skey, lastAt := s.time }

/-- One segment of step 3 (R480): the signature is complete with the eighth. -/
def authSegment (s : State) (f : Frame) (peer : List Octet) (a : Auth) : State :=
  let got := a.sig.length / 48
  if fIndex f ≠ got ∨ fSub f ≠ 48 then authFail s f peer rRole
  else
    let sig := a.sig ++ slice f.octets 4 48
    if sig.length = 384 then authThree s f peer sig a
    else
      let s := dropAuth s (trClassOf f.transport) (fMgr f)
      { s with irrix := { s.irrix with auths := { a with sig := sig, since := s.time } :: s.irrix.auths } }

/-- An AUTH frame from a manager (R480). -/
def authFrame (s : State) (f : Frame) (peer : List Octet) : State :=
  if fControl f % 16 = 1 then authOne s f peer
  else match findAuth s (trClassOf f.transport) (fMgr f) with
  | some a =>
    if fControl f % 16 = 3 ∧ s.time ≤ 1000000000 + a.since then authSegment s f peer a else ignoreFrame s
  | none => ignoreFrame s

/-- A frame arrives at the dictionary server (R472, R473, R477, R481, R482, R485). -/
def arrive (s : State) (f : Frame) (peer : List Octet) : State :=
  if !transportUp s f.transport then s
  else
    let s := frameCount s 1
    let c := trClassOf f.transport
    if !frameForUs s f then ignoreFrame (if onField f && f.classical then frameCount s 4 else s)
    else if c = 3 then (if fFn f = 9 then ignoreFrame s else runFrame s 3 f peer)
    else if fFn f = 9 then authFrame s f peer
    else match findSession s c (fMgr f) with
    | none => sendPlain s f peer (answerFn (fFn f)) (frameBody (128 + rNoSession) (fIndex f) (fSub f) 0 [])
    | some x => sessionFrame s c x f peer

/-- Has a frame no row of its own: a function that no manager sends (R473), or an AUTH step that no request has (R480)? It
arrives whichever row brings it, and is ignored and counted. -/
def rowless (f : Frame) : Bool := !managerFn (fFn f) || (fFn f == 9 && fControl f % 16 != 1 && fControl f % 16 != 3)

/-- A row that takes a frame of a function, and perhaps of one entry; another frame is another row's (log 11). -/
def frameRow (f : Frame) (mine : Bool) (s : State) : Out State := .next (if mine || rowless f then arrive s f [] else s)

/-- Is the frame a write of the entry? -/
def writes (f : Frame) (i : Nat) : Bool := fFn f == 3 && fIndex f == i

/-- The first octet of the value that a write carries. -/
def firstValue (f : Frame) : Nat := octAt f.octets 6

/-- Is the frame a write that a row of its own takes? -/
def commandWrite (f : Frame) : Bool :=
  [0x1203, 0x4002, 0x4011, 0x9001, 0xA001, 0xF002, 0xF003, 0xF005].contains (fIndex f)
    || (fIndex f == 0xF001 && fSub f == 3) || (fIndex f == 0xF004 && fSub f == 1)

/-- READ_REQ (R476). -/
def execReadReq (f : Frame) (s : State) : Out State := frameRow f (fFn f == 1) s
/-- WRITE_REQ (R486): a write without a row of its own. -/
def execWriteReq (f : Frame) (s : State) : Out State := frameRow f (fFn f == 3 && !commandWrite f) s
/-- SEGMENT (R476). -/
def execSegment (f : Frame) (s : State) : Out State := frameRow f (fFn f == 5) s
/-- TRANSFER_ABORT (R476). -/
def execTransferAbort (f : Frame) (s : State) : Out State := frameRow f (fFn f == 6) s
/-- WAYENOUGH (R475, R491). -/
def execWayenough (f : Frame) (s : State) : Out State := frameRow f (fFn f == 0) s
/-- AUTH_REQUEST (R480). -/
def execAuthRequest (f : Frame) (s : State) : Out State := frameRow f (fFn f == 9 && fControl f % 16 == 1) s
/-- TB_SET (R487). -/
def execTbSet (f : Frame) (s : State) : Out State := frameRow f (writes f 0x1203) s
/-- STEER_SW (09 R310). -/
def execSteerSw (f : Frame) (s : State) : Out State := frameRow f (writes f 0x4011) s
/-- IMAGE (18 R511). -/
def execImage (f : Frame) (s : State) : Out State := frameRow f (writes f 0x4002) s
/-- MASTER_KEY_GENERATE (12 R368). -/
def execMasterKeyGenerate (f : Frame) (s : State) : Out State := frameRow f (writes f 0xA001 && firstValue f == 1) s
/-- MASTER_KEY_ZEROISE (12 R368). -/
def execMasterKeyZeroise (f : Frame) (s : State) : Out State := frameRow f (writes f 0xA001 && firstValue f != 1) s
/-- ROOTKEY_REVOKE (18 R496). -/
def execRootkeyRevoke (f : Frame) (s : State) : Out State := frameRow f (writes f 0x9001) s
/-- WAYENOUGH_WRITE (R491). -/
def execWayenoughWrite (f : Frame) (s : State) : Out State := frameRow f (writes f 0xF001 && fSub f == 3) s
/-- PADDLE_COMMAND (16 R460). -/
def execPaddleCommand (f : Frame) (s : State) : Out State := frameRow f (writes f 0xF002) s
/-- CHANGEOVER_VERIFY (18 R512). -/
def execChangeoverVerify (f : Frame) (s : State) : Out State := frameRow f (writes f 0xF003 && firstValue f == 1) s
/-- CHANGEOVER_SWITCH (18 R512). -/
def execChangeoverSwitch (f : Frame) (s : State) : Out State := frameRow f (writes f 0xF003 && firstValue f == 2) s
/-- CHANGEOVER_DISCARD (18 R512); a value outside the coding is answered here too. -/
def execChangeoverDiscard (f : Frame) (s : State) : Out State :=
  frameRow f (writes f 0xF003 && firstValue f != 1 && firstValue f != 2) s
/-- PROOF_REQUEST (18 R509). -/
def execProofRequest (f : Frame) (s : State) : Out State := frameRow f (writes f 0xF004 && fSub f == 1) s
/-- SUBST (07 R234). -/
def execSubst (f : Frame) (s : State) : Out State := frameRow f (writes f 0xF005) s

/-- AUTH_SIGNATURE (R480): step 3 with its whole signature; f is one of its frames. One that is not for this module, or
meets no attempt in time, is ignored and counted (R473, 19 R529). -/
def execAuthSignature (f : Frame) (signature : List Octet) (s : State) : Out State :=
  if fFn f = 9 ∧ fControl f % 16 = 3 ∧ transportUp s f.transport ∧ trClassOf f.transport ≠ 3 ∧ frameForUs s f then
    match (findAuth s (trClassOf f.transport) (fMgr f)).filter fun a => decide (s.time ≤ 1000000000 + a.since) with
    | none => .next (ignoreFrame (frameCount s 1))
    | some a => .next (authThree (frameCount s 1) f [] signature a)
  else frameRow f (fFn f == 9 && fControl f % 16 == 3) s

/-- AUTH_TIMEOUT (R480): more than 1 s between steps. -/
def execAuthTimeout (tr : Transport) (mgr : BitVec 8) (s : State) : Out State :=
  match findAuth s (trClassOf tr) mgr.toNat with
  | some a => .next (if 1000000000 + a.since < s.time then dropAuth s (trClassOf tr) mgr.toNat else s)
  | none => .next s

/-- SESSION_IDLE_TIMEOUT (R481). -/
def execSessionIdleTimeout (tr : Transport) (mgr : BitVec 8) (s : State) : Out State :=
  let c := trClassOf tr
  match findSession s c mgr.toNat with
  | some x =>
    if c ≠ 3 ∧ 1000000000 * beNat (stored s 0x1102 0) + x.lastAt ≤ s.time then
      .next { s with irrix := { s.irrix with
        sessions := s.irrix.sessions.filter fun y => !(y.trClass == c && y.mgr == mgr.toNat) } }
    else .next s
  | none => .next s

/-- TRANSFER_TIMEOUT (R476): 100 ms without a segment or an acknowledgement. -/
def execTransferTimeout (tr : Transport) (mgr : BitVec 8) (s : State) : Out State :=
  let c := trClassOf tr
  let m := mgr.toNat
  match findSession s c m with
  | some x =>
    match x.xfer with
    | some t =>
      if 100000000 + t.since ≤ s.time then
        let (rs, s) := abortTransfer s c m t rTimeout
        .next (sendReplies c m x.tr x.peer t.seq rs s).2
      else .next s
    | none => .next s
  | none => .next s

/-- HEARTBEAT (R475, R487 0x1103): device state, PADDLE_ST and uptime, from manager 255 (R473), without a tag. Its sequence
is a free value: no rule gives it one (log 5). -/
def execHeartbeat (fp : Fin 2) (s : State) : Out State :=
  let period := beNat (stored s 0x1103 0)
  if !alive s || portSilent s fp.val || period == 0
      || decide (s.time < 1000000 * period + smGet 0 s.irrix.beats fp.val) then .next s
  else
    let body := [0x80, 0, 0, 0] ++ beOctets 1 (deviceState s) ++ u36 (paddleWord s.power)
      ++ beOctets 9 (s.time - s.irrix.tbShift) ++ List.replicate 35 0
    let seq := (Config.openWord s.free).toNat % 512
    let f : OutFrame := { transport := .fieldPort fp, ident := identOf 8 s.pins.node.toNat 255 seq, octets := plainFrame body }
    .next { s with free := s.free + 1,
                   irrix := { s.irrix with out := f :: s.irrix.out, beats := smSet 0 s.irrix.beats fp.val s.time } }

/-- BUS_OFF (R472). -/
def execBusOff (fp : Fin 2) (s : State) : Out State :=
  if !alive s || smGet false s.irrix.busOff fp.val then .next s
  else .next (frameCount { s with irrix := { s.irrix with busOff := smSet false s.irrix.busOff fp.val true } } 5)

/-- BUS_OFF_RECOVERY (R472). -/
def execBusOffRecovery (fp : Fin 2) (s : State) : Out State :=
  .next { s with irrix := { s.irrix with busOff := smSet false s.irrix.busOff fp.val false } }

/-- The device takes the request slot at its head (R483). -/
def windowTake (s : State) : State :=
  let r := smGetList 0 s.irrix.window (128 * (s.irrix.reqHead % 16)) 68
  arrive { s with irrix := { s.irrix with reqHead := (s.irrix.reqHead + 1) % 16 } }
    { transport := .window, ident := BitVec.ofNat 29 (le32 r 0), octets := slice r 4 64 } []

/-- The request slots up to REQ_TAIL are taken in order (R483), at most n. -/
def windowDrain : Nat → State → State
  | 0, s => s
  | n + 1, s => if s.irrix.reqHead % 16 = s.irrix.reqTail % 16 then s else windowDrain n (windowTake s)

/-- DICTIONARY_WINDOW_REQUEST (R483): the host writes the slot at REQ_TAIL and advances REQ_TAIL; the device takes it. -/
def execDictionaryWindowRequest (record : List Octet) (s : State) : Out State :=
  if !hostReaches s || record.length != 128 then .next s
  else
    let i := s.irrix
    .next (windowDrain 16 { s with irrix := { i with
      window := smSetList 0 i.window (128 * (i.reqTail % 16)) record, reqTail := (i.reqTail + 1) % 16 } })

/-- Writes held frames to the response slots, in order, while one is free (R483). -/
def flushWindow : List (Bool × Nat × List Octet) → State → State
  | [], s => s
  | h :: hs, s =>
    if windowFull s.irrix then { s with irrix := { s.irrix with held := h :: hs } }
    else
      flushWindow hs (sendFrame { s with irrix := { s.irrix with held := hs } } h.1
        { transport := .window, ident := beNat (h.2.2.take 4), octets := h.2.2.drop 4 })

/-- RSP_HEAD_WRITE (R483): the host frees response slots. -/
def execRspHeadWrite (head : BitVec 4) (s : State) : Out State :=
  if !hostReaches s then .next s
  else .next (flushWindow s.irrix.held { s with irrix := { s.irrix with rspHead := head.toNat } })

/-- WINDOW_EVENT_DROP (R483): an EVENT that has waited 1 ms is dropped and counted. -/
def execWindowEventDrop (s : State) : Out State :=
  match s.irrix.held.find? fun h => h.1 && decide (1000000 + h.2.1 ≤ s.time) with
  | some h => .next (frameCount { s with irrix := { s.irrix with held := s.irrix.held.erase h } } 7)
  | none => .next s

/-- MIRROR_DATAGRAM (R484): src is the source address and port, payload the identifier and the frame octets. -/
def execMirrorDatagram (p : PortNo) (src payload : List Octet) (s : State) : Out State :=
  if !transportUp s (.udp p) then .next s
  else if payload.length ≠ 68 then .next (frameCount s 6)
  else .next (arrive s { transport := .udp p, ident := BitVec.ofNat 29 (beNat (payload.take 4)), octets := payload.drop 4 } src)

/-- MIRROR_NEIGHBOUR (R484): only the management addresses are answered. -/
def execMirrorNeighbour (p : PortNo) (target : List Octet) (s : State) : Out State :=
  if transportUp s (.udp p) && (target == stored s 0x1105 2 || target == stored s 0x1105 3) then
    .next (modPort s p.val fun x => { x with neighbours := (target, stationMac s p.val) :: x.neighbours })
  else .next s

/-- The frame record in words 0 to 16 of the mailbox (R485). -/
def mailboxFrame (s : State) (q : SeatNo) : Frame :=
  let os := allOctets (smGetList 0 s.irrix.mailbox 0 17)
  { transport := .mailbox q, ident := BitVec.ofNat 29 (le32 os 0), octets := slice os 4 64 }

/-- MAILBOX_SUBMIT (R485): the request that a write of word 17 has submitted, or that a seat at M submits now. -/
def execMailboxSubmit (q : SeatNo) (s : State) : Out State :=
  if s.irrix.mailReq || (canIssue s q.val && levelOf s q.val == .M) then
    .next (arrive { s with irrix := { mailClear s.irrix with mailReq := false } } (mailboxFrame s q) [])
  else .next s

end Sys2Proof.Machine
end

