-- ==== Sys2Proof/Machine/Boot.lean ====
section
/-! DEFINITION. Reset, the boot sequence, dropout and tamper (18 R493 to R506, R518 to R521; 19 R529; 16 R471). -/

namespace Sys2Proof.Machine

/-- Reset by POR_N low or by loss of power (19 R529, 16 R471): every domain but custody's battery-backed store. Fuses, flash
and the log store keep their contents. -/
def porReset (s : State) : State :=
  let d := State.reset
  let c := s.custody
  { d with
    pending := s.pending, free := s.free,
    custody := { d.custody with mkState := c.mkState, mkKey := c.mkKey, deviceKey := c.deviceKey, tamper := c.tamper },
    boot := { d.boot with otp := s.boot.otp, flash := s.boot.flash, erase64 := s.boot.erase64 },
    power := { d.power with journal := s.power.journal, journalOk := s.power.journalOk, sealSeq := s.power.sealSeq },
    irrix := { d.irrix with values := s.irrix.values.filter fun e => dictKeeps (e.1 / 256) },
    pins := { d.pins with node := s.pins.node, refclk := s.pins.refclk, tap := s.pins.tap } }

/-- What the boundary register captures: free values (log 5). -/
def scanCapture (s : State) : List Bool := (List.range Config.scanLength).map (Config.scanPin s.free)

/-- The test port while POR_N is low: EXTEST, CLAMP and HIGHZ, if in force, take effect on the pins, and EXTEST selects the
boundary register again (19 R543). -/
def tapLow (s : State) : Tap :=
  let t := s.pins.tap
  { t with driving := t.ir == 3 || t.ir == 4, highz := t.ir == 5, reg := if t.ir = 3 then scanCapture s else t.reg }

/-- The test port while POR_N is high: EXTEST, CLAMP and HIGHZ act as BYPASS, the one-bit register (19 R543). -/
def tapHigh (t : Tap) : Tap :=
  { t with driving := false, highz := false, reg := if 3 ≤ t.ir then [false] else t.reg }

/-- POR_ASSERT (19 R529): POR_N is low; TAMPER_OUT_N is released (18 R520). A dropout lasts until the release. -/
def execPorAssert (s : State) : Out State :=
  if !s.pins.porN then .next s
  else
    let t := porReset s
    .next { t with free := s.free + 1, pins := { t.pins with porN := false, tap := tapLow s }, power := { t.power with dropout := s.power.dropout } }

/-- DROPOUT (16 R471): the input falls below 6.0 V, which neither feed's GOOD state allows. TAMPER_OUT_N keeps its level
(18 R520). -/
def execDropout (s : State) : Out State :=
  if s.power.dropout || !noFeed s.power then .next s
  else
    let t := porReset s
    .next { t with power := { t.power with dropout := true },
                   pins := { t.pins with porN := s.pins.porN, tamperOutLow := s.pins.tamperOutLow } }

/-- The boot ends with a result from 3 to 7 (18 R505): no further progress, C0.0 runs no instruction. -/
def bootStops (s : State) (result : Nat) : State :=
  errEdge s { modSeat s 0 (fun x => { x with idle := true }) with boot := { s.boot with result := result, done := false } }

/-- The identity key's words, unwrapped from IDBLOB under the device key (18 R494, R495). The plaintext holds 5 octets a
word, as a key blob does (12 R390). DESIGN CHOICE, log 58. -/
def unwrapIdentity (s : State) : Option (List Word) :=
  let n := bits (otpWord s 0o77) 11 0
  let blob := (allOctets ((List.range 960).map fun i => otpWord s (0o100 + i))).take n
  if s.custody.deviceKey.length ≠ 32 then none
  else match kwpUnwrap s.custody.deviceKey blob with
  | none => none
  | some os =>
    match blobWords os with
    | some ws => if ws.length = 387 then some ws else none
    | none => none

/-- The random unit at boot (18 R502, 12 R392 to R394): the sources' tests, the instances, the bulk and the steering key. -/
def bootRandom (s : State) (en0 en1 : Bool) : State :=
  let s := { s with custody := { s.custody with entropy0 := en0, entropy1 := en1 } }
  let s := if en0 then s else logEvent 6 (unnamedSource s) s
  let s := if en1 then s else logEvent 6 (unnamedSource s) s
  let s := if en0 || en1 then (List.range 4).foldl drbgInstantiate s else s
  let (bulk, s) := drbgDraw s 0 32
  let (steer, s) := drbgDraw s 0 16
  { s with custody := { s.custody with bulkKey := bulk }, eth := { s.eth with steerKey := steer } }

/-- The octets of the OTP words 0o0000 to 0o0046 that MR4 is extended with: 5 to a word. DESIGN CHOICE, log 58. -/
def otpDigest (s : State) : List Octet := sha .sha256 ((List.range 0o47).flatMap fun i => wordOctets (otpWord s i))

/-- The set that boots, and whether it is the first choice (18 R501); none from a flash without a 64 KiB erase (19 R541). -/
def chooseSet (s : State) : Option (Nat × Bool) :=
  let a := if markerOf s 0 < markerOf s 1 then 1 else 0
  if !s.boot.erase64 then none
  else if headerVerifies s a 1 (headerOf s a 1) then some (a, true)
  else if headerVerifies s (1 - a) 1 (headerOf s (1 - a) 1) then some (1 - a, false) else none

/-- Do the side images and the imposition of the booted set verify? -/
def sidesVerify (s : State) (set : Nat) : Bool :=
  ([2, 3, 4].all fun ty => headerVerifies s set ty (headerOf s set ty))
    && sectionsOk (imageWords (imageOctets s set (headerOf s set 4)))

/-- Loads an image of the booted set and records it as running. -/
def bootImage (set : Nat) (s : State) (ty : Nat) : State :=
  let h := headerOf s set ty
  let os := imageOctets s set h
  nowRunning (if ty = 4 then swapCopies (loadImposition s os) else loadImage s h os) ty h

/-- The manager key set of the side images (17 R479). -/
def bootManagers (s : State) (set : Nat) : State :=
  let os := imageOctets s set (headerOf s set 2) ++ imageOctets s set (headerOf s set 3)
  { s with boot := { s.boot with mgrKeys := smSetList [] [] 1 ((List.range 32).map fun r => Config.managerRecord os (r + 1)) } }

/-- The code capability of an image: its span, the entry as cursor, RD EX GT SY as a code gate has them (02 R61), GLOBAL, on
a side (18 R493, R503). DEDUCED, log 58. No capability spans nothing (02 R47): that of an image of length 0 spans the one word
of its load address. DESIGN CHOICE, log 58. -/
def imageCap (h : List Octet) (side : Bool) : Cap :=
  { w0 := field 0 (hEntry h), w1 := field 0 (hLoad h), w2 := field 0 (hLoad h + max 1 (hWords h) - 1),
    w3 := field 8 (rRD + rEX + rGT + rSY) ||| flag 7 true ||| flag 6 side, tag := true }

/-- Keel's data capability: no rule states what it spans. Its cursor, bounds, rights, GLOBAL and SIDE are free values within
what a data gate derived from a root capability can be: LAST not below BASE, memory rights without EX and with GT, SEAL 0,
RING 0, reserved bits zero (02 R29 to R35, R61, R70, R71; log 5). -/
def keelData (s : State) : Cap :=
  let f := fun i => Config.openWord (s.free + i)
  let lo := min (f 1).toNat (f 2).toNat
  let hi := max (f 1).toNat (f 2).toNat
  let rights := (f 3).toNat &&& (rRD + rWR + rRC + rWC + rWL + rSY)
  { w0 := f 0, w1 := field 0 lo, w2 := field 0 hi,
    w3 := field 8 (rights ||| rGT) ||| flag 7 (bit (f 3) 35) ||| flag 6 (bit (f 3) 34), tag := true }

/-- C0.0 at Keel's first instruction (18 R503): the boot ROM has entered by CINVOKE at M, and STATUS.SIDE is the gate's (03
R100). -/
def enterKeel (s : State) (h : List Octet) (result set : Nat) : State :=
  let b : Bank := { rootBank with
    w := smSetList 0 [] 1 [BitVec.ofNat 36 result, BitVec.ofNat 36 set],
    c := smSet {} rootBank.c 14 (keelData s), pcc := imageCap h true, ctx := mkCtx 65280 0 }
  let s := { s with free := s.free + 4, sys := { s.sys with sealLive := smSet false s.sys.sealLive 65280 true } }
  setSeat s 0 { rootSeat with banks := [(8, b)], status := { rootSeat.status with side := true } }

/-- Keel powers the crews (18 R502): the active seats' domains come up; the spares' stay off (01 R15). -/
def crewsOn (s : State) : State :=
  (((List.range 72).filter fun q => q % 9 != 8)).foldl (fun s q => modSeat s q fun _ => seatFresh) s

/-- The boot from the choice of a set on (18 R501 to R505). Keel's own part, the check and loading of the side images and
the imposition, is done with it: no system word reaches the stores that it loads. DEDUCED, log 58. -/
def bootImages (s : State) : State :=
  match chooseSet s with
  | none => bootStops s 3
  | some (set, first) =>
    let h := headerOf s set 1
    let result := if first then 0 else 2
    let s := bootImage set s 1
    let s := extendMr s 0 (sha .sha256 (h.take 640))
    let s := { s with boot := { s.boot with setBooted := set, markerSeq := markerOf s set } }
    if !sidesVerify s set then bootStops s 6
    else
      let s := bootManagers ([2, 3, 4].foldl (bootImage set) s) set
      enterKeel { crewsOn s with boot := { s.boot with result := result, done := true } } h result set

/-- The boot sequence (18 R502). TAMPER_OUT_N keeps its level: a detection while POR_N is low holds it low until POR_N is asserted
again (R520). -/
def bootRun (s : State) (node : BitVec 7) (en0 en1 : Bool) : State :=
  let low := s.pins.tamperOutLow
  let s := porReset s
  let s := { s with pins := { s.pins with porN := true, node := node, tap := tapHigh s.pins.tap, tamperOutLow := low } }
  let s := if s.custody.tamper.isEmpty then s else logEvent 1 (unnamedSource s) s
  let s := bootRandom s en0 en1
  if !s.custody.tamper.isEmpty then bootStops s 7
  else if !en0 && !en1 then bootStops s 4
  else match unwrapIdentity s with
  | none => bootStops s 5
  | some ws =>
    let s := { s with custody := { s.custody with identity := some ws } }
    bootImages (extendMr s 4 (otpDigest s))

/-- POR_RELEASE (18 R502, 19 R529): from POR_N low, or at the release itself, which is the state after reset. -/
def execPorRelease (node : BitVec 7) (en0 en1 : Bool) (s : State) : Out State :=
  if s.pins.porN && (s.power.dropout || s.boot.result != 1) then .next s else .next (bootRun s node en0 en1)

/-- BOOT_LANE_TIMEOUT (18 R502, R504, R505): result 8 is reported and logged, and the module continues. -/
def execBootLaneTimeout (s : State) : Out State :=
  if alive s && s.boot.done && !s.boot.laneOpened && s.boot.result != 8
      && decide (2500000000 ≤ s.time - s.irrix.tbShift) then
    .next (logEvent 2 (unnamedSource s) { s with boot := { s.boot with result := 8 } })
  else .next s

/-- The code of a tamper source in the tamper record. DESIGN CHOICE, log 58. -/
def tamperCode : TamperSource → Nat
  | .lidMesh => 1 | .lidLight => 2 | .custodyTemperature => 3 | .vbat => 4 | .voltage => 5 | .clockGlitch => 6
  | .tamperIn n => 8 + n.val

/-- Can the sensor fire (18 R518)? VBAT's only without feeds, the voltage and clock sensors' only with them, a TAMPER_IN's
while it is enabled. -/
def tamperArmed (s : State) : TamperSource → Bool
  | .vbat => s.power.dropout
  | .voltage | .clockGlitch => !s.power.dropout
  | .tamperIn n => (beNat (stored s 0xA003 0)).testBit n.val
  | _ => true

/-- What tamper response does to custody (18 R519): the record, and every key and secret. -/
def tamperCustody (s : State) (src : TamperSource) : State :=
  let c := s.custody
  { s with
    custody := { c with mkState := .zeroised, mkKey := [], deviceKey := [], bulkKey := [], arena := [], slots := [],
                        slotPoison := [], identity := none, requests := [], drbgs := [],
                        refusing := smSetList false [] 0 [true, true, true, true], tamper := c.tamper ++ [tamperCode src] },
    engines := { s.engines with jobs := s.engines.jobs.map fun j => { j with commit := none } },
    eth := { s.eth with steerKey := [] },
    irrix := { s.irrix with sessions := [], auths := [] },
    pins := { s.pins with tamperOutLow := true } }

/-- TAMPER_DETECT (18 R517 to R519): without feeds the same response runs in custody alone. A device way-enough is accepted
ahead of every pending command. Without the bulk key no written stripe's MAC holds any more (10 R331, R334; log 92). -/
def execTamperDetect (source : TamperSource) (s : State) : Out State :=
  if !tamperArmed s source then .next s
  else
    let s := tamperCustody s source
    if !alive s then .next s
    else
      let s := clearStandby { s with boot := { s.boot with tampered := true },
                                     mem := { s.mem with rot := s.mem.gen.map fun e => (e.1, 2) } }
      let s := { s with boot := { s.boot with standby := 0, phase := 0, armedAt := none, mhold := false, keelNew := false,
                                              strokeNew := false, bowNew := false, impNew := false, staged := [] } }
      let s := logEvent 1 (unnamedSource s) s
      let c : WayCmd := { kind := 7, number := 0, at_ := s.time, acted := false, by_ := none, tr := none }
      .next { s with irrix := { s.irrix with way := c :: s.irrix.way } }

end Sys2Proof.Machine
end

