-- ==== Sys2Proof/Machine/Changeover.lean ====
section
/-! DEFINITION. Changeover and proof sheets (18 R509 to R517). -/

namespace Sys2Proof.Machine

/-- The headers that are staged, by type (R511). -/
def stagedHeaders (s : State) : List (Nat × List Octet) :=
  ([1, 2, 3, 4].map fun ty => (ty, headerOf s (stagedSet s) ty)).filter fun e => !hErased e.2

/-- Does the class have an open lane? -/
def classOpen (s : State) (k : Nat) : Bool :=
  (List.range (clCount s k)).any fun i => (laneSt s (clFirst s k + i)).state == lsOpen

/-- No class with an open lane changes its KIND, FIRST, COUNTM1, RBASE, SSIZE, RLOG or ICREDM1, or goes (R513). -/
def classesKeep (s : State) (new : SMap Word) : Bool :=
  (classesOf s).all fun k =>
    let w := fun i => smGet 0 new (8 * k + i)
    !classOpen s k || (w 0 == classWord s k 0 && w 1 == classWord s k 1
      && bits (w 2) 18 0 == bits (classWord s k 2) 18 0)

/-- The class table of an imposition image. -/
def newClasses (ws : List Word) : SMap Word :=
  match (sections ws).find? fun e => e.1 == 8 with
  | some e => tableOf (wordsAt ws e.2.1 e.2.2)
  | none => []

/-- Does a load range keep clear of every running image (R513)? -/
def rangeClear (s : State) (h : List Octet) : Bool :=
  s.boot.ranges.all fun r => !spansMeet (hLoad h) (hWords h) (r.2 / 2 ^ 40) (r.2 % 2 ^ 40)

/-- Does the staged set pass R500 and R513? -/
def stagedOk (s : State) : Bool :=
  let hs := stagedHeaders s
  let has := fun ty : Nat => hs.any fun e => e.1 == ty
  let set := stagedSet s
  hs.all (fun e => headerVerifies s set e.1 e.2
      && (e.1 != 1 || hAbi e.2 == s.boot.keelAbi)
      && (e.1 == 4 || rangeClear s e.2)
      && (e.1 != 4 ||
        (let ws := imageWords (imageOctets s set e.2)
         sectionsOk ws && classesKeep s (newClasses ws))))
    && (!(has 2 || has 3) || has 4)

/-- Loads what is staged: images at their load addresses, an imposition into the standby copies (R513). -/
def loadStaged (s : State) : State :=
  let set := stagedSet s
  (stagedHeaders s).foldl (fun s e =>
    let os := imageOctets s set e.2
    if e.1 = 4 then loadImposition s os else loadImage s e.2 os) s

/-- VERIFY_COMPLETE (R512, R513): the checks end with STANDBY 2 and the standby copies loaded, or with STANDBY 3. -/
def execVerifyComplete (s : State) : Out State :=
  let b := s.boot
  if !alive s || dark s.power || b.phase ≠ 1 then .next s
  else if stagedOk s then
    let hs := stagedHeaders s
    let has := fun ty : Nat => hs.any fun e => e.1 == ty
    let s := loadStaged s
    .next { s with boot := { s.boot with standby := 2, phase := 2, keelNew := has 1, strokeNew := has 2, bowNew := has 3,
                                         impNew := has 4, staged := hs.map fun e => { kind := e.1, header := e.2 } } }
  else
    .next { s with boot := { b with standby := 3, phase := 5, keelNew := false, strokeNew := false, bowNew := false,
                                    impNew := false, staged := [] } }

/-- Is this instant a course boundary of crew T (08 R244)? -/
def courseBoundary (s : State) (t : Nat) : Bool := t % (strokeNs (getCox s 0) * (getCox s 0).l) == 0

/-- M_HOLD (R516): at the stroke boundary of T before the switch boundary, when the set changes Keel. -/
def execMHold (s : State) : Out State :=
  match s.boot.armedAt with
  | none => .next s
  | some t =>
    let next := s.time + strokeNs (getCox s 0)
    if alive s && !dark s.power && s.boot.keelNew && atBoundary s 0 && decide (1000000 + t ≤ next) && courseBoundary s next then
      .next { s with boot := { s.boot with mhold := true } }
    else .next s

/-- The switch is cancelled: STANDBY refused (R514). -/
def switchFails (s : State) : State :=
  { s with boot := { s.boot with standby := 3, phase := 5, armedAt := none, mhold := false, keelNew := false,
                                 strokeNew := false, bowNew := false, impNew := false, staged := [] } }

/-- Every queued lane under its new pend index, in its original order; a pick that a cox holds returns to its lane's new
queue (R514, 08 R250). -/
def refile (s : State) : State :=
  let all := s.lanes.ready.flatMap Prod.snd
  let pick := fun p : Pick => match classOf s p.lane.toNat with
    | some k => { p with home := clHome s k, pend := clPend s k }
    | none => p
  let s := (List.range 11).foldl (fun s x => modCox s x fun c => { c with picks := c.picks.map pick }) s
  all.foldl (fun s e =>
      match classOf s e.1.toNat with
      | some k => pushReady s (clHome s k) (clPend s k) e
      | none => s) { s with lanes := { s.lanes with ready := [] } }

/-- The activations of this instant are old from now on (R515). -/
def markOld (s : State) : State :=
  let bank := fun v : Bank => if v.st = .free then v else { v with old := true }
  let seat := fun x : Seat => { x with banks := x.banks.map fun b => (b.1, bank b.2),
                                       stow := x.stow.map fun j => { j with old := true } }
  let pair := fun b : PairBuf => if b.used then { b with old := true } else b
  { s with seats := s.seats.map fun e => (e.1, seat e.2),
           coxes := s.coxes.map fun e => (e.1, { e.2 with pairs := e.2.pairs.map fun b => (b.1, pair b.2) }),
           lanes := { s.lanes with stowed := s.lanes.stowed.map fun e => { e with old := true } } }

/-- The trap vector that a new image brings: the M vector of Keel, the S code vector of a side (R498, R516, 07 R218). -/
def newVector (s : State) (e : Staged) : State :=
  let put := fun (sel : Nat) side =>
    { s with sys := { s.sys with vectors := smSet {} s.sys.vectors sel (imageCap e.header side) } }
  match e.kind with
  | 1 => put 10 true
  | 2 => put 6 false
  | 3 => put 8 true
  | _ => s

/-- An image takes effect (R514, R508): its measurement, its vector, and it runs. -/
def imageSwitch (s : State) (e : Staged) : State :=
  newVector (nowRunning (extendMr s (e.kind - 1) (sha .sha256 (e.header.take 640))) e.kind e.header) e

/-- The switch (R514, R515, 14 R423). -/
def switchNow (s : State) : State :=
  let b := s.boot
  let s := markOld s
  let s := if b.impNew then refile (swapCopies s) else s
  let jobs := if b.impNew then
      s.engines.jobs.map fun j => if isCompositor j.unit then { j with oldForm := true } else j
    else s.engines.jobs
  let dropped := s.eth.switchDropped + (if s.eth.switchReq.isSome then 1 else 0)
  let s := { s with engines := { s.engines with jobs := jobs },
                    eth := { s.eth with switchReq := none, switchDropped := dropped } }
  let s := b.staged.foldl imageSwitch s
  { s with boot := { s.boot with phase := 4, armedAt := none, mhold := false } }

/-- CHANGEOVER_BOUNDARY (R466, R514, R516): the first course boundary of T at least 1 ms after the command. In paddle mode
the switch waits for the first after exit, and the M hold with it (DEDUCED, log 57). -/
def execChangeoverBoundary (s : State) : Out State :=
  match s.boot.armedAt with
  | none => .next s
  | some t =>
    if !alive s || dark s.power || s.boot.phase ≠ 3 || !courseBoundary s s.time || decide (s.time < 1000000 + t) then .next s
    else if s.power.paddle then .next { s with boot := { s.boot with mhold := false } }
    else if s.boot.keelNew && !s.boot.mhold then .next s
    else if s.boot.impNew && !classesKeep s s.lanes.clsSb then .next (switchFails s)
    else .next (switchNow s)

/-- DRAIN_END (R515): no old activation lives and no parse uses the old forms. -/
def execDrainEnd (s : State) : Out State :=
  if !alive s || dark s.power || s.boot.phase ≠ 4 || oldLive s ≠ 0 || s.engines.jobs.any fun j => j.oldForm then .next s
  else
    let n := s.boot.markerSeq + 1
    let marker := beOctets 4 0x534D524B ++ beOctets 4 n ++ List.replicate 8 0
    let s := flashPut s (imageSet (stagedSet s) + 0x3FFFFF0) marker
    let s := clearStandby (advanceRollback s)
    .next { s with boot := { s.boot with standby := 0, phase := 0, markerSeq := n, keelNew := false, strokeNew := false,
                                         bowNew := false, impNew := false, staged := [] } }

/-- The octets 0 to 415 of a proof sheet (R510). -/
def sheetOctets (s : State) (nonce : List Octet) : List Octet :=
  beOctets 4 0x50525346 ++ beOctets 2 1 ++ beOctets 1 (deviceState s) ++ beOctets 1 s.boot.result ++ serialOctets s
    ++ beOctets 1 s.pins.node.toNat ++ beOctets 1 s.boot.rootSlot ++ [0, 0] ++ beOctets 9 s.time ++ [0, 0, 0]
    ++ ([0, 1, 2].flatMap fun k => beOctets 8 (rollback s k))
    ++ (if s.boot.impHash.isEmpty then List.replicate 32 0 else s.boot.impHash)
    ++ ((List.range 8).flatMap fun i => allOctets (mrWords s i)) ++ nonce ++ idKeyHash s

/-- PROOF_SHEET_COMPLETE (R509, R510): the oldest request's sheet, signed on PL0 and DG0. -/
def execProofSheetComplete (s : State) : Out State :=
  match ((s.irrix.mail :: s.irrix.sessions).find? fun x => x.nonce.isSome), s.custody.identity with
  | some x, some ws =>
    if !alive s || dark s.power || s.boot.tampered || drbgRefuses s 3 then .next s
    else
      let os := sheetOctets s (x.nonce.getD [])
      let (sg, s) := identitySign s ws os
      .next (modSession s x.trClass x.mgr fun y => { y with nonce := none, sheet := os ++ sg })
  | _, _ => .next s

end Sys2Proof.Machine
end

