-- ==== Sys2Proof/Machine/Wide.lean ====
section
/-! DEFINITION. Wide and attached-unit instructions (05 R181 to R185). -/

namespace Sys2Proof.Machine

/-- A wide register's value: word 0 is least significant (04 R121). -/
def wideNat (ws : List Word) : Nat := bigNat ws

/-- The eight words of a 288-bit value. -/
def wideWords (n : Nat) : List Word := bigWords 8 n

/-- vd := f of two wide registers. -/
def wideOp2 (q : SeatNo) (i : Instr) (vd va vb : Reg) (f : List Word → List Word → List Word) (s : State) : Out State :=
  wideRun q i
    (fun s => done (vSet s q.val vd.toNat (f (vWords s q.val va.toNat) (vWords s q.val vb.toNat)))) s

/-- vd := f of each word of va and vb. -/
def wideEach (q : SeatNo) (i : Instr) (vd va vb : Reg) (f : Word → Word → Word) (s : State) : Out State :=
  wideOp2 q i vd va vb (List.zipWith f) s

/-- The exact product of the H0 half-words of two words (R184). -/
def limbProduct (a b : Word) : Word := BitVec.ofNat 36 ((half0 a).toNat * (half0 b).toNat)

/-- VCMPEQ: bit j is 1 where word j of both is equal (R181). -/
def equalMask (xs ys : List Word) : Word :=
  (List.range 8).foldl (fun w j => w ||| flag j (xs.getD j 0 == ys.getD j 0)) 0

/-- The 16 octets of block k of a wide register: all four octets of every slot, whatever the presence bits (R185). -/
def wideOctets (ws : List Word) : List Octet := ws.flatMap fun w => (List.range 4).map (slotOctet w)

/-- CXENC and CXDEC: two blocks through a block function (R185). -/
def wideBlocks (f : List Octet → List Octet) (ws : List Word) : List Word :=
  seqWords ((chunks 16 (wideOctets ws)).flatMap f)

/-- The trap of a key handle that fails R183's checks. SV_ADDR of SEAL_RETIRED is the seal value, 65,535 (07 R214); of the
other causes it is the handle's cursor, which no rule names. DESIGN CHOICE, log 70. -/
def handleTrap (c : Cap) (cause : Nat) : Trap :=
  { cause := cause, addr := if cause = cSEALRETIRED then 65535 else c.w0 }

/-- An AES instruction under a key handle (R183, R184). -/
def wideAes (q : SeatNo) (i : Instr) (vd va cb : Reg) (usage : Nat) (f : List Octet → List Octet → List Octet)
    (s : State) : Out State :=
  wideRun q i
    (fun s =>
      let c := cGet s q.val cb.toNat
      match handleCause s c usage (curSeal (curBank (getSeat s q.val))) with
      | some k => .error (handleTrap c k, s)
      | none => done (vSet s q.val vd.toNat (wideBlocks (f (slotKey s (capCursor c))) (vWords s q.val va.toNat)))) s

/-- One SHA-256 compression of the state in vd over the block in va and va+1 (R185). -/
def digestWords (st lo hi : List Word) : List Word :=
  let st := st.map fun w => w.toNat % 2 ^ 32
  (shaBlockStep .sha256 st (wideOctets lo ++ wideOctets hi)).map fun n => BitVec.ofNat 36 n

/-- VADD (R181): word by word add. -/
def execVadd (q : SeatNo) (vd va vb : Reg) (s : State) : Out State :=
  wideEach q (.vadd q vd va vb) vd va vb (fun a b => a + b) s

/-- VSUB (R181): word by word subtract. -/
def execVsub (q : SeatNo) (vd va vb : Reg) (s : State) : Out State :=
  wideEach q (.vsub q vd va vb) vd va vb (fun a b => a - b) s

/-- VAND (R181): word by word and. -/
def execVand (q : SeatNo) (vd va vb : Reg) (s : State) : Out State :=
  wideEach q (.vand q vd va vb) vd va vb (fun a b => a &&& b) s

/-- VOR (R181): word by word or. -/
def execVor (q : SeatNo) (vd va vb : Reg) (s : State) : Out State :=
  wideEach q (.vor q vd va vb) vd va vb (fun a b => a ||| b) s

/-- VXOR (R181): word by word exclusive or. -/
def execVxor (q : SeatNo) (vd va vb : Reg) (s : State) : Out State :=
  wideEach q (.vxor q vd va vb) vd va vb (fun a b => a ^^^ b) s

/-- VANDN (R181): word by word and not. -/
def execVandn (q : SeatNo) (vd va vb : Reg) (s : State) : Out State :=
  wideEach q (.vandn q vd va vb) vd va vb (fun a b => a &&& ~~~b) s

/-- VCMPEQ (R181). -/
def execVcmpeq (q : SeatNo) (rd va vb : Reg) (s : State) : Out State :=
  wideRun q (.vcmpeq q rd va vb)
    (fun s => done (wSet s q.val rd.toNat (equalMask (vWords s q.val va.toNat) (vWords s q.val vb.toNat)))) s

/-- VADDW (R181): the 288-bit sum modulo 2^288. -/
def execVaddw (q : SeatNo) (vd va vb : Reg) (s : State) : Out State :=
  wideOp2 q (.vaddw q vd va vb) vd va vb (fun xs ys => wideWords (wideNat xs + wideNat ys)) s

/-- VSUBW (R181): the 288-bit difference modulo 2^288. -/
def execVsubw (q : SeatNo) (vd va vb : Reg) (s : State) : Out State :=
  wideOp2 q (.vsubw q vd va vb) vd va vb (fun xs ys => wideWords (2 ^ 288 + wideNat xs - wideNat ys)) s

/-- VSHLW (R181): 288 or more gives 0. -/
def execVshlw (q : SeatNo) (vd va rb : Reg) (s : State) : Out State :=
  wideRun q (.vshlw q vd va rb)
    (fun s =>
      let n := (wGet s q.val rb.toNat).toNat
      done (vSet s q.val vd.toNat (wideWords (if 288 ≤ n then 0 else 2 ^ n * wideNat (vWords s q.val va.toNat))))) s

/-- VSHRW (R181): 288 or more gives 0. -/
def execVshrw (q : SeatNo) (vd va rb : Reg) (s : State) : Out State :=
  wideRun q (.vshrw q vd va rb)
    (fun s =>
      let n := (wGet s q.val rb.toNat).toNat
      done (vSet s q.val vd.toNat (wideWords (if 288 ≤ n then 0 else wideNat (vWords s q.val va.toNat) / 2 ^ n)))) s

/-- VINS (R181): word aux of vd becomes w[ra]. -/
def execVins (q : SeatNo) (vd ra aux : Reg) (s : State) : Out State :=
  wideRun q (.vins q vd ra aux)
    (fun s => done (vSet s q.val vd.toNat ((vWords s q.val vd.toNat).set aux.toNat (wGet s q.val ra.toNat)))) s

/-- VEXT (R181): w[rd] becomes word aux of va. -/
def execVext (q : SeatNo) (rd va aux : Reg) (s : State) : Out State :=
  wideRun q (.vext q rd va aux) (fun s => done (wSet s q.val rd.toNat (vGet s q.val va.toNat aux.toNat))) s

/-- VSPLAT (R181): every word of vd becomes w[ra]. -/
def execVsplat (q : SeatNo) (vd ra : Reg) (s : State) : Out State :=
  wideRun q (.vsplat q vd ra) (fun s => done (vSet s q.val vd.toNat (List.replicate 8 (wGet s q.val ra.toNat)))) s

/-- CXENC (R184, R185). -/
def execCxenc (q : SeatNo) (vd va cb : Reg) (s : State) : Out State :=
  wideAes q (.cxenc q vd va cb) vd va cb uENC aesEncrypt s

/-- CXDEC (R184, R185). -/
def execCxdec (q : SeatNo) (vd va cb : Reg) (s : State) : Out State :=
  wideAes q (.cxdec q vd va cb) vd va cb uDEC aesDecrypt s

/-- DGS256 (R184, R185). -/
def execDgs256 (q : SeatNo) (vd va : Reg) (s : State) : Out State :=
  wideRun q (.dgs256 q vd va)
    (fun s => done (vSet s q.val vd.toNat (digestWords (vWords s q.val vd.toNat) (vWords s q.val va.toNat)
      (vWords s q.val (va.toNat + 1))))) s

/-- PMUL18 (R184): the exact products of the low half-words. -/
def execPmul18 (q : SeatNo) (vd va vb : Reg) (s : State) : Out State :=
  wideEach q (.pmul18 q vd va vb) vd va vb limbProduct s

/-- PMAC18 (R184): the products added to the words of vd. -/
def execPmac18 (q : SeatNo) (vd va vb : Reg) (s : State) : Out State :=
  wideRun q (.pmac18 q vd va vb)
    (fun s => done (vSet s q.val vd.toNat (List.zipWith (fun d p => d + p) (vWords s q.val vd.toNat)
      (List.zipWith limbProduct (vWords s q.val va.toNat) (vWords s q.val vb.toNat))))) s

end Sys2Proof.Machine
end

