-- ==== Sys2Proof/Machine/MemUpkeep.lean ====
section
/-! DEFINITION. What the memories do of themselves (10 R318 to R323, R334, R336), and a host read that times out
(10 R341, 19 R537). -/

namespace Sys2Proof.Machine

/-- The first words of the 32 granules of a row, which lie in one block of 4,096 words (R318). -/
def rowGranules (a : Nat) : List Nat :=
  ((List.range 1024).map fun i => a / 4096 * 4096 + 4 * i).filter fun b => bankOf b == bankOf a

/-- Has a granule of the row become poisoned since the row was last repaired? -/
def rowPoisoned (s : State) (a : Nat) : Bool :=
  (rowGranules a).any fun b => smGet false s.mem.poison (b / 4) && !smGet false s.mem.moved (b / 4)

/-- The code of an error that an access meets (log 74). -/
def bitErrorCode : BitErrors → Nat
  | .none => 0 | .single | .latentSingle => 1 | .double | .latentDouble => 2

/-- Has the upset still to be found? -/
def bitErrorLatent : BitErrors → Bool
  | .latentSingle | .latentDouble => true
  | _ => false

/-- CASE_SCRUB (10 R321, R322): the scrub reads the granule of a case word and treats what it finds as any read does. A
latent error waits for the next access or scrub. DESIGN CHOICE, log 74. -/
def execCaseScrub (a : Word) (errors : BitErrors) (s : State) : Out State :=
  let p := a.toNat
  if !s.pins.porN || dark s.power || !isCase p || smGet false s.mem.poison (p / 4) then .next s
  else
    let e := max (smGet 0 s.mem.flips (p / 4)) (bitErrorCode errors)
    let t := { s with mem := { s.mem with flips := smSet 0 s.mem.flips (p / 4) e } }
    .next (if bitErrorLatent errors then t else meetCase t (p / 4))

/-- ROW_REPAIR (10 R323): the row's granules move to a spare, each corrected as it is read, poison included; a bank without a
spare raises a monitor event. Poison that has moved once moves the row no more. DEDUCED, log 34. -/
def execRowRepair (a : Word) (s : State) : Out State :=
  let p := a.toNat
  let row := rowOf p
  let m := s.mem
  let due := smGet 0 m.rowErrs row % 4 == 3 || rowPoisoned s p
  if !s.pins.porN || dark s.power || !isCase p || !due then .next s
  else
    let used := smGet 0 m.spares (bankOf p)
    if 16 ≤ used then .next (logEvent 6 (unnamedSource s) s)
    else
      let s := meetWords s (rowGranules p)
      let m := s.mem
      let moved := (rowGranules p).foldl (fun v b => smSet false v (b / 4) (smGet false m.poison (b / 4))) m.moved
      .next { s with mem := { m with spares := smSet 0 m.spares (bankOf p) (used + 1), moved := moved,
                                     rowMap := smSet 0 m.rowMap row (used + 1), rowErrs := smSet 0 m.rowErrs row 0 } }

/-- The number of stripes of bulk (10 R328). -/
def stripeCount : Nat := 161061274

/-- The code of a stripe's error (log 74). -/
def stripeErrorCode : StripeCheck → Nat
  | .good => 0 | .passesOnReread | .latentReread => 1 | .fails | .latentFails => 2 | .metadataLost | .latentLost => 3

/-- Has the error still to be found? -/
def stripeErrorLatent : StripeCheck → Bool
  | .latentReread | .latentFails | .latentLost => true
  | _ => false

/-- The slots with a word in stripe k of the slot store, which lies first in the spill area. DESIGN CHOICE, log 87. -/
def spillSlots (k : Nat) : List Nat :=
  (List.range 4).map (40 * k / 16 + ·) |>.filter fun n => decide (16 * n < 40 * (k + 1)) && decide (n < slotCount)

/-- A stripe of the slot store that the controller cannot read makes its slots poisoned (12 R369); metadata of the spill area
are lost with it. -/
def spillPatrol (s : State) (k : Nat) (found : StripeCheck) : State :=
  let c := s.custody
  let e := stripeErrorCode found
  if (spillSlots k).isEmpty || e = 0 then s
  else if e = 1 then { s with mem := { s.mem with corrected := s.mem.corrected + 1 } }
  else
    logEvent 4 (unnamedSource s) { s with custody := { c with
      slotPoison := (spillSlots k).foldl (fun m n => smSet false m n true) c.slotPoison } }

/-- BULK_PATROL (10 R334, R336): the controller reads the stripe and treats what it finds as at any access. An unwritten
stripe has no MAC to check; its metadata, and those of a poisoned stripe, can still be lost. DESIGN CHOICE, log 74, for a latent error. -/
def execBulkPatrol (stripe : BitVec 28) (found : StripeCheck) (s : State) : Out State :=
  let k := stripe.toNat
  let m := s.mem
  if !s.pins.porN || dark s.power then .next s
  else if stripeCount ≤ k then .next (spillPatrol s (k - stripeCount) found)
  else if smGet false m.stripePoison k && stripeErrorCode found != 3 then .next s
  else
    let new := if smGet 0 m.gen k = 0 && stripeErrorCode found != 3 then 0 else stripeErrorCode found
    let t := { s with mem := { m with rot := smSet 0 m.rot k (max (smGet 0 m.rot k) new) } }
    .next (if stripeErrorLatent found then t else meetStripe t k)

/-- The reads that a seat's load makes. -/
def hostLoadReads (s : State) (q : Nat) : HostLoad → List Access
  | .ldw _ m => [memAccess s q m 1 1 rRD false]
  | .ldd _ m => [memAccess s q m 2 2 rRD false]
  | .ldc _ m => [memAccess s q m 4 4 rRD false]
  | .vld _ m => [memAccess s q m 8 8 rRD false]
  | .ldm rd m =>
    let all := maskRegs (wGet s q rd.toNat)
    let a := { memAccess s q m all.length 1 rRD false with n := 1 }
    (withOffsets all (maskLeft s q all)).map fun e => { a with ea := a.ea + e.2 }
  | .movw _ ra rb aux =>
    let count := (wGet s q rb.toNat).toNat % 2 ^ 35
    let left := countLeft s q count
    (List.range left).map fun i => wordAt (blockCap s q ra.toNat) (if aux = 1 then i else count - left + i) rRD false

/-- The load itself. -/
def hostLoadRun (q : SeatNo) (l : HostLoad) (s : State) : Out State :=
  match l with
  | .ldw rd m => execLdw q rd m s
  | .ldd rd m => execLdd q rd m s
  | .ldc rd m => execLdc q rd m s
  | .ldm rd m => execLdm q rd m s
  | .movw rd ra rb aux => execMovw q rd ra rb aux s
  | .vld vd m => execVld q vd m s

/-- Does a read pass its checks and lie in the host window? -/
def hostRead (s : State) (q : Nat) (a : Access) : Bool :=
  match accessAll q [a] s with
  | .ok p => isHost (p.pa 0)
  | .error _ => false

/-- A seat's load whose read of the host window times out: POISON, with SV_AUX the physical address (10 R341, 19 R537). -/
def loadTimeout (q : SeatNo) (l : HostLoad) (s : State) : Out State :=
  if (hostLoadReads s q.val l).any (hostRead s q.val) then
    match hostLoadRun q l { s with pins := { s.pins with readFails := true } } with
    | .next t => .next { t with pins := { t.pins with readFails := false } }
    | o => o
  else .next s

/-- HOST_READ_TIMEOUT (10 R341, 19 R537). -/
def execHostReadTimeout (reader : HostReader) (s : State) : Out State :=
  if !hostUp s || !s.pins.porN || dark s.power then .next s
  else match reader with
  | .seatLoad q l => loadTimeout q l s
  | .galleyBurst ch => .next (galleyTimeout s ch.val)
  | .hostPut r => .next (if s.boot.done then hostPut s r false else s)

end Sys2Proof.Machine
end

