-- ==== Sys2Proof/Machine/Pins.lean ====
section
/-! DEFINITION. The PCI Express endpoint and its aperture, reference clock, timebase pins, and boundary scan (19). -/

namespace Sys2Proof.Machine

/-! The levels of the module's open-drain outputs and of the flash's pins (16 R468, 18 R505, R520, 19 R531). -/

/-- PADDLE_N is low. -/
def paddleLow (s : State) : Bool := s.power.paddle

/-- THERM_N is low. -/
def thermLow (s : State) : Bool := s.power.throttle

/-- TAMPER_OUT_N is low. -/
def tamperLow (s : State) : Bool := s.pins.tamperOutLow

/-- XSPI_CLK, XSPI_CS_N, XSPI_DQ and XSPI_DQS are in high impedance: the boot has stopped (R505), or HIGHZ is in force. -/
def flashHighZ (s : State) : Bool := (decide (3 ≤ s.boot.result) && decide (s.boot.result ≤ 7)) || s.pins.tap.highz

/-- ERR_N as its pin stands: low under R468 and R505 (`errLow`), released while HIGHZ is in force. -/
def errPinLow (s : State) : Bool := errLow s && !s.pins.tap.highz

/-- TB_OUT as its pin stands: high for 100 ms from its last rise (R533). -/
def tbOutHigh (s : State) : Bool := s.pins.tbRise.any fun t => decide (s.time < t + 100000000)

/-- The window's requests that are not answered yet go (R539): the held answers, the segmented transfers of its sessions, and the
answers that way-enoughs of its frames would give. -/
def dropWindow (i : Irrix) : Irrix :=
  { i with held := [], sessions := i.sessions.map fun x => if x.trClass = 1 then { x with xfer := none } else x,
           way := i.way.map fun c => if c.tr = some .window then { c with tr := none } else c }

/-- A reset of the endpoint (R539): its configuration space with the MSI-X structures, APER_BASE, and the dictionary window's
slot pointers and pending requests. The link stays up where it is not what resets it. -/
def endpointReset (s : State) (linkStays : Bool) : State :=
  { s with pins := { s.pins with pcieUp := s.pins.pcieUp && linkStays, aperBase := 0, msixTable := [], msixPend := [] },
           irrix := { dropWindow s.irrix with reqTail := 0, reqHead := 0, rspTail := 0, rspHead := 0 } }

/-- ENDPOINT_RESET (R539). Its cause is the host's, a free value: 0 hot reset, 1 link down, 2 Function Level Reset, 3 GP[0]
low. The link stays up in a Function Level Reset alone, and GP[0] resets nothing while PERST_EN is 0. DESIGN CHOICE,
log 107. -/
def execEndpointReset (s : State) : Out State :=
  let cause := (Config.openWord s.free).toNat % 4
  let t := { s with free := s.free + 1 }
  .next (if cause = 3 ∧ !s.pins.perstEn then t else endpointReset t (cause == 2))

/-- PCIE_LINK_UP (R529, R539). -/
def execPcieLinkUp (s : State) : Out State :=
  if s.pins.porN && !dark s.power then .next { s with pins := { s.pins with pcieUp := true } } else .next s

/-- The physical word of an aperture offset (R538). -/
def aperWord (s : State) (off : Nat) : Nat := 2 ^ 28 * s.pins.aperBase + off / 4

/-- The words that n octets from an offset touch. -/
def aperSpan (s : State) (off n : Nat) : Nat × Nat := (aperWord s off, (off + n - 1) / 4 - off / 4 + 1)

/-- A completion to the host: octets, or none for an Unsupported Request; and the EP bit. -/
def complete (s : State) (os : Option (List Octet)) (ep : Bool) : State :=
  { s with pins := { s.pins with completions := (os, ep) :: s.pins.completions } }

/-- The octets of a run of words from an octet on. -/
def spanOctets (ws : List Word) (off n : Nat) : List Octet :=
  slice (ws.flatMap fun w => (List.range 4).map (slotOctet w)) (off % 4) n

/-- The identity in configuration space (R537): Vendor ID, Device ID, Revision ID and class code, by octet offset. -/
def cfgOctet (o : Nat) : Option Octet :=
  [(0, 0x5D), (1, 0x1E), (2, 0x72), (3, 0x36), (8, 0xB1), (9, 0x00), (10, 0x80), (11, 0x10)].lookup o

/-- A register of BAR0 by its offset: ID, STATUS, BOOT, APER_BASE, and the window's slot pointers (R538, 17 R483, R504). -/
def barRegister (s : State) (o : Nat) : Option Nat :=
  if o = 0 then some (0x3672 * 2 ^ 16 + 0xB1 * 2 ^ 8 + (if bit (otpWord s 0o53) 0 then 1 else 0))
  else if o = 4 then some (deviceState s + (if s.power.paddle then 256 else 0) + (if errLow s then 512 else 0))
  else if o = 8 then some s.boot.result
  else if o = 0x20000 then some (s.pins.aperBase % 256)
  else if o = 0x201000 then some (s.irrix.reqTail % 16)
  else if o = 0x201004 then some (s.irrix.rspTail % 16)
  else if o = 0x201008 then some (s.irrix.rspHead % 16)
  else none

/-- Is an offset of BAR0 in the MSI-X table, in the pending bit array, in the put record, in the slots of the dictionary
window (R538, 17 R483)? -/
def inMsix (o : Nat) : Bool := decide (0x10000 ≤ o) && decide (o < 0x10400)
def inPend (o : Nat) : Bool := decide (0x18000 ≤ o) && decide (o < 0x18008)
def inPut (o : Nat) : Bool := decide (0x100000 ≤ o) && decide (o < 0x100010)
def inSlots (o : Nat) : Bool := decide (0x200000 ≤ o) && decide (o < 0x201000)

/-- Is an offset of BAR0 placed: not reserved (R538)? The rest of the dictionary window's 64 KiB holds nothing. -/
def barPlaced (o : Nat) : Bool := inMsix o || inPend o || inPut o || (decide (0x200000 ≤ o) && decide (o < 0x210000))

/-- Octet i of the MSI-X pending bit array: bit k is vector 8 i + k. -/
def pendOctet (p : Pins) (i : Nat) : Octet :=
  BitVec.ofNat 8 (((List.range 8).filter fun k => smGet false p.msixPend (8 * i + k)).foldl (fun n k => n + 2 ^ k) 0)

/-- The octet at an offset of BAR0, least significant first in a register; a reserved one is zero (R538). The put record is
taken when it is written: what a read of it answers is a free value (log 56). -/
def barOctet (s : State) (o : Nat) : Octet :=
  match barRegister s (o / 4 * 4) with
  | some v => BitVec.ofNat 8 (v / 2 ^ (8 * (o % 4)))
  | none =>
    if inMsix o then msixOctet s.pins (o - 0x10000)
    else if inPend o then pendOctet s.pins (o - 0x18000)
    else if inSlots o then smGet 0 s.irrix.window (o - 0x200000)
    else if inPut o then BitVec.ofNat 8 (Config.openWord (s.free + o)).toNat
    else 0

/-- The vectors that are pending and no longer masked are signalled (R538). -/
def msixFlush (s : State) : State :=
  (List.range 64).foldl (fun s v =>
    if smGet false s.pins.msixPend v && !msixMasked s.pins v then
      signalHost { s with pins := { s.pins with msixPend := smSet false s.pins.msixPend v false } } v
    else s) s

/-- A host's octet in the MSI-X table, in a request slot, in APER_BASE or in a slot pointer (R538, 17 R483). The host writes
no other octet that is placed; the put record's row takes it. -/
def barPut (s : State) (o : Nat) (v : Octet) : State :=
  if o = 0x20000 then { s with pins := { s.pins with aperBase := v.toNat } }
  else if o = 0x201000 then { s with irrix := { s.irrix with reqTail := v.toNat % 16 } }
  else if o = 0x201008 then { s with irrix := { s.irrix with rspHead := v.toNat % 16 } }
  else if inMsix o then
    let i := o - 0x10000
    { s with pins := { s.pins with msixTable := smSet (if i % 16 = 12 then 1 else 0) s.pins.msixTable i v } }
  else if inSlots o && decide (o < 0x200800) then
    { s with irrix := { s.irrix with window := smSet 0 s.irrix.window (o - 0x200000) v } }
  else s

/-- The octets of a write to BAR0, from an offset on. -/
def barPuts : State → Nat → List Octet → State
  | s, _, [] => s
  | s, o, v :: vs => barPuts (barPut s o v) (o + 1) vs

/-- A write to BAR0; one to a reserved offset is ignored and counted (R538). The request slots up to REQ_TAIL are then taken,
the response slots freed, the unmasked vectors signalled (17 R483). -/
def barWrite (s : State) (off : Nat) (octets : List Octet) : State :=
  let at_ := (List.range octets.length).map (off + ·)
  let lost := at_.any fun o => (barRegister s (o / 4 * 4)).isNone && !barPlaced o
  let s := barPuts s off octets
  let s := { s with pins := { s.pins with barIgnored := s.pins.barIgnored + if lost then 1 else 0 } }
  let s := if at_.contains 0x201000 then windowDrain 16 s else s
  let s := if at_.contains 0x201008 then flushWindow s.irrix.held s else s
  if at_.any inMsix then msixFlush s else s

/-- APERTURE_READ (R538): a host-class request. A poisoned granule or stripe sets EP, and its octets are free values
(log 5). -/
def execApertureRead (off : BarOff) (n : BitVec 13) (s : State) : Out State :=
  let k := n.toNat
  if !hostReaches s || k == 0 then .next s
  else match off with
  | .bar0 o =>
    .next (complete { s with free := s.free + 0x400000 } (some ((List.range k).map fun i => barOctet s (o.toNat + i))) false)
  | .bar2 o =>
    let (p, m) := aperSpan s o.toNat k
    .next (match unitFetch s 4 0o202 p m with
      | .ok (ws, s) => complete s (some (spanOctets ws o.toNat k)) false
      | .error (3, s) => complete s none false
      | .error (4, s) =>
        complete { s with free := s.free + k }
          (some ((List.range k).map fun i => BitVec.ofNat 8 (Config.openWord (s.free + i)).toNat)) true
      | .error (_, s) => complete s none false)

/-- A word with octet slot k written: the octet and its presence bit (R538). -/
def putSlotOctet (w : Word) (k : Nat) (o : Octet) : Word :=
  (w &&& ~~~(field (9 * k) 511)) ||| field (9 * k) (256 + o.toNat)

/-- The words with octets written from octet slot i on. -/
def putOctets : List Word → Nat → List Octet → List Word
  | ws, _, [] => ws
  | ws, i, o :: os => putOctets (ws.set (i / 4) (putSlotOctet (ws.getD (i / 4) 0) (i % 4) o)) (i + 1) os

/-- APERTURE_WRITE (R538): the octet slots written, the others left; the granules' tags clear (02 R37). A refused write is
discarded (11 R362). -/
def execApertureWrite (off : BarOff) (octets : List Octet) (s : State) : Out State :=
  if !hostReaches s || octets.isEmpty then .next s
  else match off with
  | .bar0 o => .next (barWrite s o.toNat octets)
  | .bar2 o =>
    let (p, m) := aperSpan s o.toNat octets.length
    .next (match fenceUnit s { cls := 4, dir := 1, p := p, n := m } 0o202 with
      | .error s => s
      | .ok _ =>
        let old := if isSystem p then (unitReads m s ⟨4, false⟩ p).1 else memWords s.mem p m
        physWrite s ⟨4, false⟩ p (putOctets old (o.toNat % 4) octets))

/-- REFCLK_LOSS (R532): the timebase goes on from the internal oscillator, with a monitor event. -/
def execRefclkLoss (s : State) : Out State :=
  if !alive s || !s.pins.refclk then .next s
  else .next (logEvent 6 (unnamedSource s) { s with pins := { s.pins with refclk := false } })

/-- REFCLK_RETURN (R532). -/
def execRefclkReturn (s : State) : Out State :=
  if alive s then .next { s with pins := { s.pins with refclk := true } } else .next s

/-- One second of timebase, in ns. -/
def second : Nat := 1000000000

/-- The phase error of an edge: the distance from the nearest whole second (17 R487, R533). -/
def phaseError (t : Nat) : Int := if t % second ≤ 500000000 then (t % second : Nat) else (t % second : Nat) - (second : Int)

/-- The rate under TB_SOURCE 1 (17 R489): with it the timebase, which ran i ns over the whole seconds since the last edge at
rate r, gains at the next edge what the error e is short of. The first edge has no such interval. In parts per 10^9, within
the limit. DEDUCED, log 108. -/
def syncRate (r e : Int) (i : Nat) : Int :=
  let k : Int := ((i + 500000000) / second : Nat)
  let v := if i = 0 ∨ k = 0 then -e else ((second : Int) - e) * (second + r) * k / i - second
  max (-200000) (min 200000 v)

/-- The rate adjustment of entry 0x1201, in parts per 10^9. -/
def tbRate (s : State) : Int :=
  let n := beNat (stored s 0x1201 0)
  if n < 2 ^ 35 then n else (n : Int) - 2 ^ 36

/-- TB_SYNC_EDGE (R533, 17 R489): the edge is captured. Under TB_SOURCE 1 an edge more than 1 ms off is ignored and counted
after the first 10; any other sets the rate so that the next edge falls at a whole second, from the interval since the edge
taken before it. -/
def execTbSyncEdge (s : State) : Out State :=
  if !alive s then .next s
  else
    let e := phaseError s.time
    let i := s.irrix
    let s := { s with irrix := { i with ppsCap := s.time, ppsErr := e } }
    if stored s 0x1202 0 ≠ [1] then .next s
    else if 10 ≤ i.edges ∧ (1000000 < e ∨ e < -1000000) then
      .next { s with irrix := { s.irrix with edgesIgnored := i.edgesIgnored + 1 } }
    else
      let rate := syncRate (tbRate s) e (if i.edges = 0 then 0 else s.time - i.ppsLast)
      .next { s with irrix := { s.irrix with edges := i.edges + 1, ppsLast := s.time,
                                             values := smSet [] s.irrix.values (entryKey 0x1201 0) (i36 rate) } }

/-- TB_OUT_PULSE (R533): TB_OUT rises at a whole second. -/
def execTbOutPulse (s : State) : Out State :=
  if alive s && s.time % second == 0 then .next { s with pins := { s.pins with tbRise := some s.time } } else .next s

/-- Loads the test port: the instruction (0 BYPASS, 1 IDCODE, 2 SAMPLE/PRELOAD, 3 EXTEST, 4 CLAMP, 5 HIGHZ; the codes are
the model's), the captured register, and what the pins do (R543). -/
def tapTo (s : State) (ir : Nat) (reg : List Bool) (driving highz : Bool) : State :=
  { s with pins := { s.pins with tap := { s.pins.tap with ir := ir, reg := reg, driving := driving, highz := highz } } }

/-- The bits of IDCODE, least significant first (R543). -/
def idcodeBits : List Bool := (List.range 32).map fun i => (0x1E364A2B : Nat).testBit i

/-- BYPASS (R543): the one-bit bypass register, which captures 0 under IEEE 1149.1. -/
def execBypass (s : State) : Out State := .next (tapTo s 0 [false] false false)

/-- IDCODE (R543). -/
def execIdcode (s : State) : Out State := .next (tapTo s 1 idcodeBits false false)

/-- SAMPLE/PRELOAD (R543): the pins are captured and the latches loaded. -/
def execSamplePreload (preload : List Bool) (s : State) : Out State :=
  let s' := tapTo s 2 (scanCapture s) false false
  .next { s' with free := s.free + 1, pins := { s'.pins with tap := { s'.pins.tap with latch := preload } } }

/-- EXTEST (R543): while POR_N is low the pins drive the latches; else it acts as BYPASS. -/
def execExtest (s : State) : Out State :=
  if s.pins.porN then .next (tapTo s 3 [false] false false)
  else .next { tapTo s 3 (scanCapture s) true false with free := s.free + 1 }

/-- CLAMP (R543). -/
def execClamp (s : State) : Out State := .next (tapTo s 4 [false] (!s.pins.porN) false)

/-- HIGHZ (R543). -/
def execHighz (s : State) : Out State := .next (tapTo s 5 [false] false (!s.pins.porN))

end Sys2Proof.Machine
end

