-- ==== Sys2Proof/Machine/Dispatch.lean ====
section
/-! DEFINITION. The dispatch: one arm per command, each one call of its meaning. -/

namespace Sys2Proof.Machine

def exec (i : Instr) (s : State) : Host.Outcome State Fault Refusal :=
  match i with
  | .add q rd ra rb => Sys2Proof.Machine.execAdd q rd ra rb s
  | .sub q rd ra rb => Sys2Proof.Machine.execSub q rd ra rb s
  | .and q rd ra rb => Sys2Proof.Machine.execAnd q rd ra rb s
  | .or q rd ra rb => Sys2Proof.Machine.execOr q rd ra rb s
  | .xor q rd ra rb => Sys2Proof.Machine.execXor q rd ra rb s
  | .andn q rd ra rb => Sys2Proof.Machine.execAndn q rd ra rb s
  | .slt q rd ra rb => Sys2Proof.Machine.execSlt q rd ra rb s
  | .sltu q rd ra rb => Sys2Proof.Machine.execSltu q rd ra rb s
  | .min q rd ra rb => Sys2Proof.Machine.execMin q rd ra rb s
  | .max q rd ra rb => Sys2Proof.Machine.execMax q rd ra rb s
  | .minu q rd ra rb => Sys2Proof.Machine.execMinu q rd ra rb s
  | .maxu q rd ra rb => Sys2Proof.Machine.execMaxu q rd ra rb s
  | .clz q rd ra => Sys2Proof.Machine.execClz q rd ra s
  | .popc q rd ra => Sys2Proof.Machine.execPopc q rd ra s
  | .addco q rd ra rb => Sys2Proof.Machine.execAddco q rd ra rb s
  | .sll q rd ra rb => Sys2Proof.Machine.execSll q rd ra rb s
  | .srl q rd ra rb => Sys2Proof.Machine.execSrl q rd ra rb s
  | .sra q rd ra rb => Sys2Proof.Machine.execSra q rd ra rb s
  | .rol q rd ra rb => Sys2Proof.Machine.execRol q rd ra rb s
  | .slla q rd ra aux => Sys2Proof.Machine.execSlla q rd ra aux s
  | .srla q rd ra aux => Sys2Proof.Machine.execSrla q rd ra aux s
  | .sraa q rd ra aux => Sys2Proof.Machine.execSraa q rd ra aux s
  | .rola q rd ra aux => Sys2Proof.Machine.execRola q rd ra aux s
  | .mul q rd ra rb => Sys2Proof.Machine.execMul q rd ra rb s
  | .mulh q rd ra rb => Sys2Proof.Machine.execMulh q rd ra rb s
  | .mulhu q rd ra rb => Sys2Proof.Machine.execMulhu q rd ra rb s
  | .muld q rd ra rb => Sys2Proof.Machine.execMuld q rd ra rb s
  | .div q rd ra rb => Sys2Proof.Machine.execDiv q rd ra rb s
  | .divu q rd ra rb => Sys2Proof.Machine.execDivu q rd ra rb s
  | .rem q rd ra rb => Sys2Proof.Machine.execRem q rd ra rb s
  | .remu q rd ra rb => Sys2Proof.Machine.execRemu q rd ra rb s
  | .hswap q rd ra => Sys2Proof.Machine.execHswap q rd ra s
  | .hadd q rd ra rb => Sys2Proof.Machine.execHadd q rd ra rb s
  | .hsub q rd ra rb => Sys2Proof.Machine.execHsub q rd ra rb s
  | .hjoin q rd ra rb => Sys2Proof.Machine.execHjoin q rd ra rb s
  | .hsx0 q rd ra => Sys2Proof.Machine.execHsx0 q rd ra s
  | .hsx1 q rd ra => Sys2Proof.Machine.execHsx1 q rd ra s
  | .extu q rd ra pos aux => Sys2Proof.Machine.execExtu q rd ra pos aux s
  | .exts q rd ra pos aux => Sys2Proof.Machine.execExts q rd ra pos aux s
  | .ins q rd ra pos aux => Sys2Proof.Machine.execIns q rd ra pos aux s
  | .addi q rd ra imm => Sys2Proof.Machine.execAddi q rd ra imm s
  | .andi q rd ra imm => Sys2Proof.Machine.execAndi q rd ra imm s
  | .ori q rd ra imm => Sys2Proof.Machine.execOri q rd ra imm s
  | .xori q rd ra imm => Sys2Proof.Machine.execXori q rd ra imm s
  | .slti q rd ra imm => Sys2Proof.Machine.execSlti q rd ra imm s
  | .sltiu q rd ra imm => Sys2Proof.Machine.execSltiu q rd ra imm s
  | .lih q rd ra imm => Sys2Proof.Machine.execLih q rd ra imm s
  | .muli q rd ra imm => Sys2Proof.Machine.execMuli q rd ra imm s
  | .li q rd imm => Sys2Proof.Machine.execLi q rd imm s
  | .addl q rd ra imm => Sys2Proof.Machine.execAddl q rd ra imm s
  | .andl q rd ra imm => Sys2Proof.Machine.execAndl q rd ra imm s
  | .orl q rd ra imm => Sys2Proof.Machine.execOrl q rd ra imm s
  | .xorl q rd ra imm => Sys2Proof.Machine.execXorl q rd ra imm s
  | .opack q rd ra aux => Sys2Proof.Machine.execOpack q rd ra aux s
  | .ounpk q rd ra => Sys2Proof.Machine.execOunpk q rd ra s
  | .oget q rd ra rb aux => Sys2Proof.Machine.execOget q rd ra rb aux s
  | .oput q rd ra rb aux => Sys2Proof.Machine.execOput q rd ra rb aux s
  | .ocnt q rd ra => Sys2Proof.Machine.execOcnt q rd ra s
  | .ldw q rd m => Sys2Proof.Machine.execLdw q rd m s
  | .stw q rd m => Sys2Proof.Machine.execStw q rd m s
  | .ldd q rd m => Sys2Proof.Machine.execLdd q rd m s
  | .std q rd m => Sys2Proof.Machine.execStd q rd m s
  | .ldc q rd m => Sys2Proof.Machine.execLdc q rd m s
  | .stc q rd m => Sys2Proof.Machine.execStc q rd m s
  | .ldm q rd m => Sys2Proof.Machine.execLdm q rd m s
  | .stm q rd m => Sys2Proof.Machine.execStm q rd m s
  | .movw q rd ra rb aux => Sys2Proof.Machine.execMovw q rd ra rb aux s
  | .fillw q rd ra rb => Sys2Proof.Machine.execFillw q rd ra rb s
  | .cgetc q rd ca => Sys2Proof.Machine.execCgetc q rd ca s
  | .cgetb q rd ca => Sys2Proof.Machine.execCgetb q rd ca s
  | .cgetl q rd ca => Sys2Proof.Machine.execCgetl q rd ca s
  | .cgetp q rd ca => Sys2Proof.Machine.execCgetp q rd ca s
  | .cgett q rd ca => Sys2Proof.Machine.execCgett q rd ca s
  | .cmov q rd ca => Sys2Proof.Machine.execCmov q rd ca s
  | .ctest q rd ca rb aux => Sys2Proof.Machine.execCtest q rd ca rb aux s
  | .cinc q rd ca rb => Sys2Proof.Machine.execCinc q rd ca rb s
  | .cinci q rd ca imm => Sys2Proof.Machine.execCinci q rd ca imm s
  | .csetb q rd ca rb => Sys2Proof.Machine.execCsetb q rd ca rb s
  | .csetbi q rd ca imm => Sys2Proof.Machine.execCsetbi q rd ca imm s
  | .candr q rd ca rb => Sys2Proof.Machine.execCandr q rd ca rb s
  | .cclg q rd ca => Sys2Proof.Machine.execCclg q rd ca s
  | .cseal q rd ca cb => Sys2Proof.Machine.execCseal q rd ca cb s
  | .cunseal q rd ca cb => Sys2Proof.Machine.execCunseal q rd ca cb s
  | .cinvoke q ca cb => Sys2Proof.Machine.execCinvoke q ca cb s
  | .b q cond ra rb disp => Sys2Proof.Machine.execB q cond ra rb disp s
  | .j q ra imm => Sys2Proof.Machine.execJ q ra imm s
  | .jal q rd ra imm => Sys2Proof.Machine.execJal q rd ra imm s
  | .trap q imm => Sys2Proof.Machine.execTrap q imm s
  | .ret q => Sys2Proof.Machine.execRet q s
  | .endAct q => Sys2Proof.Machine.execEndAct q s
  | .synci q => Sys2Proof.Machine.execSynci q s
  | .fenceFull q => Sys2Proof.Machine.execFenceFull q s
  | .fenceAcquire q => Sys2Proof.Machine.execFenceAcquire q s
  | .fenceRelease q => Sys2Proof.Machine.execFenceRelease q s
  | .fencew q => Sys2Proof.Machine.execFencew q s
  | .sealsync q => Sys2Proof.Machine.execSealsync q s
  | .mapsyncAll q => Sys2Proof.Machine.execMapsyncAll q s
  | .mapsyncMap q ra => Sys2Proof.Machine.execMapsyncMap q ra s
  | .mapsyncPage q ra rb => Sys2Proof.Machine.execMapsyncPage q ra rb s
  | .doorbell q rd ra rb => Sys2Proof.Machine.execDoorbell q rd ra rb s
  | .callg q ra imm => Sys2Proof.Machine.execCallg q ra imm s
  | .lopen q rd ca cb aux => Sys2Proof.Machine.execLopen q rd ca cb aux s
  | .lclose q rd ca => Sys2Proof.Machine.execLclose q rd ca s
  | .lput q rd ca rb => Sys2Proof.Machine.execLput q rd ca rb s
  | .ltake q rd ca rb aux => Sys2Proof.Machine.execLtake q rd ca rb aux s
  | .lgive q rd ra rb => Sys2Proof.Machine.execLgive q rd ra rb s
  | .larm q rd ca rb => Sys2Proof.Machine.execLarm q rd ca rb s
  | .lstat q rd ca aux => Sys2Proof.Machine.execLstat q rd ca aux s
  | .sysrd q rd sw => Sys2Proof.Machine.execSysrd q rd sw s
  | .syswr q ra sw => Sys2Proof.Machine.execSyswr q ra sw s
  | .wayen q rd ra rb => Sys2Proof.Machine.execWayen q rd ra rb s
  | .vadd q vd va vb => Sys2Proof.Machine.execVadd q vd va vb s
  | .vsub q vd va vb => Sys2Proof.Machine.execVsub q vd va vb s
  | .vand q vd va vb => Sys2Proof.Machine.execVand q vd va vb s
  | .vor q vd va vb => Sys2Proof.Machine.execVor q vd va vb s
  | .vxor q vd va vb => Sys2Proof.Machine.execVxor q vd va vb s
  | .vandn q vd va vb => Sys2Proof.Machine.execVandn q vd va vb s
  | .vcmpeq q rd va vb => Sys2Proof.Machine.execVcmpeq q rd va vb s
  | .vaddw q vd va vb => Sys2Proof.Machine.execVaddw q vd va vb s
  | .vsubw q vd va vb => Sys2Proof.Machine.execVsubw q vd va vb s
  | .vshlw q vd va rb => Sys2Proof.Machine.execVshlw q vd va rb s
  | .vshrw q vd va rb => Sys2Proof.Machine.execVshrw q vd va rb s
  | .vld q rd m => Sys2Proof.Machine.execVld q rd m s
  | .vst q rd m => Sys2Proof.Machine.execVst q rd m s
  | .vins q vd ra aux => Sys2Proof.Machine.execVins q vd ra aux s
  | .vext q rd va aux => Sys2Proof.Machine.execVext q rd va aux s
  | .vsplat q vd ra => Sys2Proof.Machine.execVsplat q vd ra s
  | .cxenc q vd va cb => Sys2Proof.Machine.execCxenc q vd va cb s
  | .cxdec q vd va cb => Sys2Proof.Machine.execCxdec q vd va cb s
  | .dgs256 q vd va => Sys2Proof.Machine.execDgs256 q vd va s
  | .pmul18 q vd va vb => Sys2Proof.Machine.execPmul18 q vd va vb s
  | .pmac18 q vd va vb => Sys2Proof.Machine.execPmac18 q vd va vb s
  | .tbLoRead q rd => Sys2Proof.Machine.execTbLoRead q rd s
  | .sealLiveWrite q ra => Sys2Proof.Machine.execSealLiveWrite q ra s
  | .regpass q ra => Sys2Proof.Machine.execRegpass q ra s
  | .registerPass c => Sys2Proof.Machine.execRegisterPass c s
  | .svXferLoad q ra => Sys2Proof.Machine.execSvXferLoad q ra s
  | .svXferStore q ra => Sys2Proof.Machine.execSvXferStore q ra s
  | .bankSelFetch q ra => Sys2Proof.Machine.execBankSelFetch q ra s
  | .bankSelPlace q ra => Sys2Proof.Machine.execBankSelPlace q ra s
  | .bankDataWrite q ra => Sys2Proof.Machine.execBankDataWrite q ra s
  | .loadData q ra => Sys2Proof.Machine.execLoadData q ra s
  | .saveData q ra => Sys2Proof.Machine.execSaveData q ra s
  | .loadCode q ra => Sys2Proof.Machine.execLoadCode q ra s
  | .release q ra => Sys2Proof.Machine.execRelease q ra s
  | .laneBaseWrite q ra => Sys2Proof.Machine.execLaneBaseWrite q ra s
  | .setasideSet q ra => Sys2Proof.Machine.execSetasideSet q ra s
  | .setasideClear q ra => Sys2Proof.Machine.execSetasideClear q ra s
  | .paddleReq q ra => Sys2Proof.Machine.execPaddleReq q ra s
  | .measExtend q ra => Sys2Proof.Machine.execMeasExtend q ra s
  | .ethModeWrite q ra => Sys2Proof.Machine.execEthModeWrite q ra s
  | .fenceDescriptorWrite q rd m => Sys2Proof.Machine.execFenceDescriptorWrite q rd m s
  | .activationEntry q => Sys2Proof.Machine.execActivationEntry q s
  | .preemption q => Sys2Proof.Machine.execPreemption q s
  | .activationOverrun lane => Sys2Proof.Machine.execActivationOverrun lane s
  | .residenceTimeout q => Sys2Proof.Machine.execResidenceTimeout q s
  | .stowComplete q => Sys2Proof.Machine.execStowComplete q s
  | .restoreComplete q => Sys2Proof.Machine.execRestoreComplete q s
  | .stowDelivery q => Sys2Proof.Machine.execStowDelivery q s
  | .pairMismatchDelivery q => Sys2Proof.Machine.execPairMismatchDelivery q s
  | .pairWaitExpiry c buf => Sys2Proof.Machine.execPairWaitExpiry c buf s
  | .applySubstitution c => Sys2Proof.Machine.execApplySubstitution c s
  | .sparePowerOn c => Sys2Proof.Machine.execSparePowerOn c s
  | .strokeBoundary x => Sys2Proof.Machine.execStrokeBoundary x s
  | .pickReturn x lane => Sys2Proof.Machine.execPickReturn x lane s
  | .coxAdd x rd ra rb => Sys2Proof.Machine.execCoxAdd x rd ra rb s
  | .coxSub x rd ra rb => Sys2Proof.Machine.execCoxSub x rd ra rb s
  | .coxAnd x rd ra rb => Sys2Proof.Machine.execCoxAnd x rd ra rb s
  | .coxOr x rd ra rb => Sys2Proof.Machine.execCoxOr x rd ra rb s
  | .coxXor x rd ra rb => Sys2Proof.Machine.execCoxXor x rd ra rb s
  | .shl x rd ra imm => Sys2Proof.Machine.execShl x rd ra imm s
  | .shr x rd ra imm => Sys2Proof.Machine.execShr x rd ra imm s
  | .coxAddi x rd ra imm => Sys2Proof.Machine.execCoxAddi x rd ra imm s
  | .ld x rd ra imm => Sys2Proof.Machine.execLd x rd ra imm s
  | .st x rd ra imm => Sys2Proof.Machine.execSt x rd ra imm s
  | .beq x ra rb target => Sys2Proof.Machine.execBeq x ra rb target s
  | .bne x ra rb target => Sys2Proof.Machine.execBne x ra rb target s
  | .bltu x ra rb target => Sys2Proof.Machine.execBltu x ra rb target s
  | .jmp x target => Sys2Proof.Machine.execJmp x target s
  | .bnxt x target => Sys2Proof.Machine.execBnxt x target s
  | .waits x rd => Sys2Proof.Machine.execWaits x rd s
  | .idle x => Sys2Proof.Machine.execIdle x s
  | .strk x rd => Sys2Proof.Machine.execStrk x rd s
  | .pend x rd ra => Sys2Proof.Machine.execPend x rd ra s
  | .pick x rd ra => Sys2Proof.Machine.execPick x rd ra s
  | .seatst x rd ra => Sys2Proof.Machine.execSeatst x rd ra s
  | .post x rd ra rb => Sys2Proof.Machine.execPost x rd ra rb s
  | .postp x rd ra rb => Sys2Proof.Machine.execPostp x rd ra rb s
  | .relay x rd ra rb => Sys2Proof.Machine.execRelay x rd ra rb s
  | .taker x rd => Sys2Proof.Machine.execTaker x rd s
  | .cnt x imm => Sys2Proof.Machine.execCnt x imm s
  | .frameReceive p octets fcsGood => Sys2Proof.Machine.execFrameReceive p octets fcsGood s
  | .frameTransmit p lane => Sys2Proof.Machine.execFrameTransmit p lane s
  | .hostPut record => Sys2Proof.Machine.execHostPut record s
  | .heldMessageRetry lane => Sys2Proof.Machine.execHeldMessageRetry lane s
  | .laneTimeout lane => Sys2Proof.Machine.execLaneTimeout lane s
  | .steeringSwitch => Sys2Proof.Machine.execSteeringSwitch s
  | .imbalanceEvent p bucket => Sys2Proof.Machine.execImbalanceEvent p bucket s
  | .descriptorFetch ch => Sys2Proof.Machine.execDescriptorFetch ch s
  | .copy ch => Sys2Proof.Machine.execCopy ch s
  | .proof ch => Sys2Proof.Machine.execProof ch s
  | .zero ch => Sys2Proof.Machine.execZero ch s
  | .tagSweep ch => Sys2Proof.Machine.execTagSweep ch s
  | .descriptorCompletion ch => Sys2Proof.Machine.execDescriptorCompletion ch s
  | .channelEnable q ch v => Sys2Proof.Machine.execChannelEnable q ch v s
  | .channelPause q ch v => Sys2Proof.Machine.execChannelPause q ch v s
  | .channelPaused ch => Sys2Proof.Machine.execChannelPaused ch s
  | .channelResume q ch v => Sys2Proof.Machine.execChannelResume q ch v s
  | .galleyDoorbell q ch v => Sys2Proof.Machine.execGalleyDoorbell q ch v s
  | .modadd unit lane => Sys2Proof.Machine.execModadd unit lane s
  | .modmul unit lane => Sys2Proof.Machine.execModmul unit lane s
  | .modexp unit lane => Sys2Proof.Machine.execModexp unit lane s
  | .rsaPriv unit lane => Sys2Proof.Machine.execRsaPriv unit lane s
  | .rsaPub unit lane => Sys2Proof.Machine.execRsaPub unit lane s
  | .aesEcb unit lane => Sys2Proof.Machine.execAesEcb unit lane s
  | .aesCbc unit lane => Sys2Proof.Machine.execAesCbc unit lane s
  | .aesCtr unit lane => Sys2Proof.Machine.execAesCtr unit lane s
  | .aesGcm unit lane => Sys2Proof.Machine.execAesGcm unit lane s
  | .aesCmac unit lane => Sys2Proof.Machine.execAesCmac unit lane s
  | .tdesEcb unit lane => Sys2Proof.Machine.execTdesEcb unit lane s
  | .tdesCbc unit lane => Sys2Proof.Machine.execTdesCbc unit lane s
  | .tdesCmac unit lane => Sys2Proof.Machine.execTdesCmac unit lane s
  | .pinXlate unit lane => Sys2Proof.Machine.execPinXlate unit lane s
  | .dukptPin unit lane => Sys2Proof.Machine.execDukptPin unit lane s
  | .dukptDec unit lane => Sys2Proof.Machine.execDukptDec unit lane s
  | .random unit lane => Sys2Proof.Machine.execRandom unit lane s
  | .kgen unit lane => Sys2Proof.Machine.execKgen unit lane s
  | .kimport unit lane => Sys2Proof.Machine.execKimport unit lane s
  | .kexport unit lane => Sys2Proof.Machine.execKexport unit lane s
  | .kdel unit lane => Sys2Proof.Machine.execKdel unit lane s
  | .kinfo unit lane => Sys2Proof.Machine.execKinfo unit lane s
  | .kseal unit lane => Sys2Proof.Machine.execKseal unit lane s
  | .sha unit lane => Sys2Proof.Machine.execSha unit lane s
  | .hmacGen unit lane => Sys2Proof.Machine.execHmacGen unit lane s
  | .hmacVer unit lane => Sys2Proof.Machine.execHmacVer unit lane s
  | .parse unit lane => Sys2Proof.Machine.execParse unit lane s
  | .engineResponse unit lane => Sys2Proof.Machine.execEngineResponse unit lane s
  | .entropyFailure src => Sys2Proof.Machine.execEntropyFailure src s
  | .drbgReseed inst => Sys2Proof.Machine.execDrbgReseed inst s
  | .caseScrub a errors => Sys2Proof.Machine.execCaseScrub a errors s
  | .rowRepair a => Sys2Proof.Machine.execRowRepair a s
  | .bulkPatrol stripe found => Sys2Proof.Machine.execBulkPatrol stripe found s
  | .hostReadTimeout reader => Sys2Proof.Machine.execHostReadTimeout reader s
  | .counterDump => Sys2Proof.Machine.execCounterDump s
  | .dumpRecordComplete => Sys2Proof.Machine.execDumpRecordComplete s
  | .sampleTag q => Sys2Proof.Machine.execSampleTag q s
  | .sampleRecord q => Sys2Proof.Machine.execSampleRecord q s
  | .feedStateChange feed st => Sys2Proof.Machine.execFeedStateChange feed st s
  | .monitorOutOfRange m => Sys2Proof.Machine.execMonitorOutOfRange m s
  | .thermalLimit sensor reading => Sys2Proof.Machine.execThermalLimit sensor reading s
  | .throttleStart sensor reading => Sys2Proof.Machine.execThrottleStart sensor reading s
  | .throttleEnd readings => Sys2Proof.Machine.execThrottleEnd readings s
  | .holdAssert => Sys2Proof.Machine.execHoldAssert s
  | .holdClear => Sys2Proof.Machine.execHoldClear s
  | .paddleCourseSwitch => Sys2Proof.Machine.execPaddleCourseSwitch s
  | .paddleExit => Sys2Proof.Machine.execPaddleExit s
  | .paddleExitComplete => Sys2Proof.Machine.execPaddleExitComplete s
  | .journalSeal cause => Sys2Proof.Machine.execJournalSeal cause s
  | .journalSealComplete => Sys2Proof.Machine.execJournalSealComplete s
  | .dropout => Sys2Proof.Machine.execDropout s
  | .readReq f => Sys2Proof.Machine.execReadReq f s
  | .writeReq f => Sys2Proof.Machine.execWriteReq f s
  | .segment f => Sys2Proof.Machine.execSegment f s
  | .transferAbort f => Sys2Proof.Machine.execTransferAbort f s
  | .transferTimeout tr mgr => Sys2Proof.Machine.execTransferTimeout tr mgr s
  | .wayenough f => Sys2Proof.Machine.execWayenough f s
  | .authRequest f => Sys2Proof.Machine.execAuthRequest f s
  | .authSignature f signature => Sys2Proof.Machine.execAuthSignature f signature s
  | .authTimeout tr mgr => Sys2Proof.Machine.execAuthTimeout tr mgr s
  | .sessionIdleTimeout tr mgr => Sys2Proof.Machine.execSessionIdleTimeout tr mgr s
  | .heartbeat fp => Sys2Proof.Machine.execHeartbeat fp s
  | .busOffRecovery fp => Sys2Proof.Machine.execBusOffRecovery fp s
  | .dictionaryWindowRequest record => Sys2Proof.Machine.execDictionaryWindowRequest record s
  | .windowEventDrop => Sys2Proof.Machine.execWindowEventDrop s
  | .mirrorDatagram p src payload => Sys2Proof.Machine.execMirrorDatagram p src payload s
  | .mirrorNeighbour p target => Sys2Proof.Machine.execMirrorNeighbour p target s
  | .mailboxSubmit q => Sys2Proof.Machine.execMailboxSubmit q s
  | .tbSet f => Sys2Proof.Machine.execTbSet f s
  | .steerSw f => Sys2Proof.Machine.execSteerSw f s
  | .image f => Sys2Proof.Machine.execImage f s
  | .masterKeyGenerate f => Sys2Proof.Machine.execMasterKeyGenerate f s
  | .masterKeyZeroise f => Sys2Proof.Machine.execMasterKeyZeroise f s
  | .rootkeyRevoke f => Sys2Proof.Machine.execRootkeyRevoke f s
  | .wayenoughWrite f => Sys2Proof.Machine.execWayenoughWrite f s
  | .wayenoughLane lane => Sys2Proof.Machine.execWayenoughLane lane s
  | .wayenoughJob number => Sys2Proof.Machine.execWayenoughJob number s
  | .wayenoughPlaten number => Sys2Proof.Machine.execWayenoughPlaten number s
  | .wayenoughChannel ch => Sys2Proof.Machine.execWayenoughChannel ch s
  | .wayenoughCompartment sealv => Sys2Proof.Machine.execWayenoughCompartment sealv s
  | .wayenoughCrew x => Sys2Proof.Machine.execWayenoughCrew x s
  | .wayenoughDevice => Sys2Proof.Machine.execWayenoughDevice s
  | .wayenoughComplete => Sys2Proof.Machine.execWayenoughComplete s
  | .paddleCommand f => Sys2Proof.Machine.execPaddleCommand f s
  | .changeoverVerify f => Sys2Proof.Machine.execChangeoverVerify f s
  | .changeoverSwitch f => Sys2Proof.Machine.execChangeoverSwitch f s
  | .changeoverDiscard f => Sys2Proof.Machine.execChangeoverDiscard f s
  | .verifyComplete => Sys2Proof.Machine.execVerifyComplete s
  | .mHold => Sys2Proof.Machine.execMHold s
  | .changeoverBoundary => Sys2Proof.Machine.execChangeoverBoundary s
  | .drainEnd => Sys2Proof.Machine.execDrainEnd s
  | .proofRequest f => Sys2Proof.Machine.execProofRequest f s
  | .proofSheetComplete => Sys2Proof.Machine.execProofSheetComplete s
  | .subst f => Sys2Proof.Machine.execSubst f s
  | .porAssert => Sys2Proof.Machine.execPorAssert s
  | .porRelease node en0 en1 => Sys2Proof.Machine.execPorRelease node en0 en1 s
  | .bootLaneTimeout => Sys2Proof.Machine.execBootLaneTimeout s
  | .tamperDetect source => Sys2Proof.Machine.execTamperDetect source s
  | .endpointReset => Sys2Proof.Machine.execEndpointReset s
  | .apertureRead off n => Sys2Proof.Machine.execApertureRead off n s
  | .apertureWrite off octets => Sys2Proof.Machine.execApertureWrite off octets s
  | .linkUp p => Sys2Proof.Machine.execLinkUp p s
  | .refclkLoss => Sys2Proof.Machine.execRefclkLoss s
  | .tbSyncEdge => Sys2Proof.Machine.execTbSyncEdge s
  | .tbOutPulse => Sys2Proof.Machine.execTbOutPulse s
  | .bypass => Sys2Proof.Machine.execBypass s
  | .idcode => Sys2Proof.Machine.execIdcode s
  | .samplePreload preload => Sys2Proof.Machine.execSamplePreload preload s
  | .extest => Sys2Proof.Machine.execExtest s
  | .clamp => Sys2Proof.Machine.execClamp s
  | .highz => Sys2Proof.Machine.execHighz s
  | .unassignedOpcode q word next => Sys2Proof.Machine.execUnassignedOpcode q word next s
  | .thermalClear readings => Sys2Proof.Machine.execThermalClear readings s
  | .monitorInRange m => Sys2Proof.Machine.execMonitorInRange m s
  | .refclkReturn => Sys2Proof.Machine.execRefclkReturn s
  | .pcieLinkUp => Sys2Proof.Machine.execPcieLinkUp s
  | .linkLoss p => Sys2Proof.Machine.execLinkLoss p s
  | .busOff fp => Sys2Proof.Machine.execBusOff fp s
  | .rspHeadWrite head => Sys2Proof.Machine.execRspHeadWrite head s

end Sys2Proof.Machine
end

