-- ==== Sys2Proof/Machine/Step.lean ====
section
/-! DEFINITION. The step: the command at the front of the queue, or a tick when none waits. -/

namespace Sys2Proof.Machine

/-- One nanosecond of the timebase (04 R117), when no command waits (log 12). At a stroke boundary of crew T the counter store
keeps the counts as they stand, for a dump (15 R445). -/
def tick (s : State) : State :=
  let t := { s with time := s.time + 1 }
  if atBoundary t 0 then { t with galley := { t.galley with shadow := t.counters } } else t

/-- Cox x executes a word of its image (08 R241 to R243): the instruction it spells, or OR for an unassigned opcode. -/
def runCoxWord (x : CoxNo) (w : Word) (s : State) : Host.Outcome State Fault Refusal :=
  match decodeCox x w with
  | some c => exec c s
  | none => execCoxUnassigned x s

/-- Runs the command at the front of the queue on the state with the queue's rest; idles for a tick on an empty queue. -/
def step (s : State) : Host.Outcome State Fault Refusal :=
  match s.pending with
  | [] => .next (tick s)
  | c :: cs => exec c { s with pending := cs }

/-- The state with the command that the word spells in front of its queue; no row of the table gives bits, so none is
spelled and the state is unchanged. -/
def State.withFetchWord (s : State) (nbits w : Nat) : State :=
  match decodeTableWord nbits w with
  | some c => { s with pending := c :: s.pending }
  | none => s

end Sys2Proof.Machine
end

