-- ==== Sys2Proof/WellFormed.lean ====
section
/-! DEFINITION. Well-formed commands: the seat instructions that pass the decode checks of 04 R130, the unit codes of
09 R277, the frame length and function codes of 17 R473 and R475, and the lengths the other rules give. The machine
takes an ill-formed command as well: a seat instruction raises its decode exception, a frame is ignored. -/

namespace Sys2Proof

/-- An RSA platen's unit code (09 R277). -/
def platenCode (u : UnitCode) : Bool := decide (0o100 ≤ u.toNat) && decide (u.toNat ≤ 0o127)

/-- A cipher engine's unit code (09 R277). -/
def cipherCode (u : UnitCode) : Bool := decide (0o140 ≤ u.toNat) && decide (u.toNat ≤ 0o147)

/-- A digest engine's unit code (09 R277). -/
def digestCode (u : UnitCode) : Bool := decide (0o160 ≤ u.toNat) && decide (u.toNat ≤ 0o177)

/-- A compositor's unit code (09 R277). -/
def compositorCode (u : UnitCode) : Bool := decide (0o010 ≤ u.toNat) && decide (u.toNat ≤ 0o013)

/-- A frame of the stated function: 64 octets (17 R475) and the function code in the identifier (R473). -/
def frameOf (fn : Nat) (f : Frame) : Bool := f.octets.length == 64 && f.ident.toNat / 2 ^ 24 == fn

/-- Does a BAR hold n octets from an offset on (19 R538)? -/
def barHolds (off : BarOff) (n : Nat) : Bool :=
  match off with
  | .bar0 o => decide (o.toNat + n ≤ 0x400000)
  | .bar2 o => decide (o.toNat + n ≤ 0x40000000)

/-- The operands that the block's own commands may carry. -/
def operandsOk : Instr → Bool
  | .modadd u _ | .modmul u _ | .modexp u _ | .rsaPriv u _ | .rsaPub u _ => platenCode u
  | .aesEcb u _ | .aesCbc u _ | .aesCtr u _ | .aesGcm u _ | .aesCmac u _ | .tdesEcb u _ | .tdesCbc u _ | .tdesCmac u _
  | .pinXlate u _ | .dukptPin u _ | .dukptDec u _ | .random u _ | .kgen u _ | .kimport u _ | .kexport u _ | .kdel u _
  | .kinfo u _ | .kseal u _ => cipherCode u
  | .sha u _ | .hmacGen u _ | .hmacVer u _ => digestCode u
  | .parse u _ => compositorCode u
  | .engineResponse u _ => platenCode u || cipherCode u || digestCode u || compositorCode u
  | .throttleEnd rs | .thermalClear rs => rs.length == 112
  | .dictionaryWindowRequest r => r.length == 128
  | .apertureRead off n => decide (1 ≤ n.toNat) && decide (n.toNat ≤ 4096) && barHolds off n.toNat
  | .apertureWrite off os => decide (1 ≤ os.length) && decide (os.length ≤ 512) && barHolds off os.length
  | .readReq f => frameOf 1 f
  | .writeReq f | .tbSet f | .steerSw f | .image f | .masterKeyGenerate f | .masterKeyZeroise f | .rootkeyRevoke f
  | .wayenoughWrite f | .paddleCommand f | .changeoverVerify f | .changeoverSwitch f | .changeoverDiscard f
  | .proofRequest f | .subst f => frameOf 3 f
  | .segment f => frameOf 5 f
  | .transferAbort f => frameOf 6 f
  | .wayenough f => frameOf 0 f
  | .authRequest f => frameOf 9 f
  | .authSignature f sig => frameOf 9 f && sig.length == 384
  | .wayenoughCompartment v => decide (1 ≤ v.toNat) && decide (v.toNat ≤ 65533)
  | .unassignedOpcode q w imm => !(decodeSeat q w imm).isOk
  | _ => true

/-- Is a command well formed? -/
def wellFormed (i : Instr) : Bool := seatLegal i && operandsOk i

end Sys2Proof
end

