-- ==== Sys2Proof/Safety.lean ====
section
/-! DEFINITION. The words in which the claims speak: the canonical form of memory, when a seat executes an instruction,
where the machine stands after it, and what a state looks like apart from event counters and sample records. -/

namespace Sys2Proof.Machine

/-- The canonical form of memory: every table of case and bulk has rising keys and lists no default (INVENTORY.md, Memory
and ordering). -/
def Mem.wf (m : Mem) : Bool :=
  smWf 0 m.words && smWf false m.tags && smWf false m.poison && smWf 0 m.gen && smWf 0 m.epoch
    && smWf false m.stripePoison && smWf false m.genLost && smWf 0 m.flips && smWf 0 m.rot && smWf false m.moved

/-- The state without what instructions of seat q count (15 R444) and record (15 R449). -/
def quiet (q : Nat) (s : State) : State := { modSeat s q fun x => { x with samples := [] } with counters := [] }

/-- The state without its counters. -/
def uncounted (s : State) : State := { s with counters := [] }

/-- The seat of an instruction that has a word of its own in the opcode map (04 R137). The rows that are a SYSRD or SYSWR
of one word, and the STC to a fence descriptor, are other names of words that SYSRD, SYSWR and STC decode. -/
def seatOf : Instr → Option SeatNo
  | .add q _ _ _ | .sub q _ _ _ | .and q _ _ _ | .or q _ _ _ | .xor q _ _ _ | .andn q _ _ _ | .slt q _ _ _
  | .sltu q _ _ _ | .min q _ _ _ | .max q _ _ _ | .minu q _ _ _ | .maxu q _ _ _ | .clz q _ _ | .popc q _ _
  | .addco q _ _ _ | .sll q _ _ _ | .srl q _ _ _ | .sra q _ _ _ | .rol q _ _ _ | .slla q _ _ _ | .srla q _ _ _
  | .sraa q _ _ _ | .rola q _ _ _ | .mul q _ _ _ | .mulh q _ _ _ | .mulhu q _ _ _ | .muld q _ _ _ | .div q _ _ _
  | .divu q _ _ _ | .rem q _ _ _ | .remu q _ _ _ | .hswap q _ _ | .hadd q _ _ _ | .hsub q _ _ _ | .hjoin q _ _ _
  | .hsx0 q _ _ | .hsx1 q _ _ | .extu q _ _ _ _ | .exts q _ _ _ _ | .ins q _ _ _ _ | .addi q _ _ _ | .andi q _ _ _
  | .ori q _ _ _ | .xori q _ _ _ | .slti q _ _ _ | .sltiu q _ _ _ | .lih q _ _ _ | .muli q _ _ _ | .li q _ _
  | .addl q _ _ _ | .andl q _ _ _ | .orl q _ _ _ | .xorl q _ _ _ | .opack q _ _ _ | .ounpk q _ _ | .oget q _ _ _ _
  | .oput q _ _ _ _ | .ocnt q _ _ | .ldw q _ _ | .stw q _ _ | .ldd q _ _ | .std q _ _ | .ldc q _ _ | .stc q _ _
  | .ldm q _ _ | .stm q _ _ | .movw q _ _ _ _ | .fillw q _ _ _ | .cgetc q _ _ | .cgetb q _ _ | .cgetl q _ _
  | .cgetp q _ _ | .cgett q _ _ | .cmov q _ _ | .ctest q _ _ _ _ | .cinc q _ _ _ | .cinci q _ _ _ | .csetb q _ _ _
  | .csetbi q _ _ _ | .candr q _ _ _ | .cclg q _ _ | .cseal q _ _ _ | .cunseal q _ _ _ | .cinvoke q _ _ | .b q _ _ _ _
  | .j q _ _ | .jal q _ _ _ | .trap q _ | .ret q | .endAct q | .synci q | .fenceFull q | .fenceAcquire q
  | .fenceRelease q | .fencew q | .sealsync q | .mapsyncAll q | .mapsyncMap q _ | .mapsyncPage q _ _
  | .doorbell q _ _ _ | .callg q _ _ | .lopen q _ _ _ _ | .lclose q _ _ | .lput q _ _ _ | .ltake q _ _ _ _
  | .lgive q _ _ _ | .larm q _ _ _ | .lstat q _ _ _ | .sysrd q _ _ | .syswr q _ _ | .wayen q _ _ _ | .vadd q _ _ _
  | .vsub q _ _ _ | .vand q _ _ _ | .vor q _ _ _ | .vxor q _ _ _ | .vandn q _ _ _ | .vcmpeq q _ _ _ | .vaddw q _ _ _
  | .vsubw q _ _ _ | .vshlw q _ _ _ | .vshrw q _ _ _ | .vld q _ _ | .vst q _ _ | .vins q _ _ _ | .vext q _ _ _
  | .vsplat q _ _ | .cxenc q _ _ _ | .cxdec q _ _ _ | .dgs256 q _ _ | .pmul18 q _ _ _ | .pmac18 q _ _ _ => some q
  | _ => none

/-- The instruction whose word another row shares: SYSRD, SYSWR or STC. -/
def sharedWord : Instr → Option Instr
  | .tbLoRead q rd => some (.sysrd q rd 0o40)
  | .sealLiveWrite q ra => some (.syswr q ra 0o401)
  | .regpass q ra => some (.syswr q ra 0o410)
  | .svXferLoad q ra | .svXferStore q ra => some (.syswr q ra 0o164)
  | .bankSelFetch q ra | .bankSelPlace q ra => some (.syswr q ra 0o165)
  | .bankDataWrite q ra => some (.syswr q ra 0o166)
  | .loadData q ra | .saveData q ra | .loadCode q ra | .release q ra => some (.syswr q ra 0o203)
  | .laneBaseWrite q ra => some (.syswr q ra 0o430)
  | .setasideSet q ra | .setasideClear q ra => some (.syswr q ra 0o440)
  | .paddleReq q ra => some (.syswr q ra 0o461)
  | .measExtend q ra => some (.syswr q ra 0o500)
  | .ethModeWrite q ra => some (.syswr q ra 0o510)
  | .fenceDescriptorWrite q rd m => some (.stc q rd m)
  | _ => none

/-- Seat q executes instruction i in state s, whose fetch leaves s1: the seat may issue, the outputs of a pair-checked
activation have not passed 256 words, when it would have ended (08 R268), the fetch check of 02 R56 passes, and the fields
are legal (04 R130 steps 2 and 3). -/
def Issues (s : State) (q : SeatNo) (i : Instr) (s1 : State) : Prop :=
  canIssue s q.val = true ∧ pairOver s q.val = false ∧ seatLegal i = true ∧
    ∃ p, accessAll q.val [fetchAccess s q.val (seatLen i)] s = .ok p ∧
      s1 = modSeat p.st q.val decoded

/-- The outputs of the pair-checked activation in bank b of seat q, if it holds one, have not passed 256 words, when it would
have ended (08 R268). -/
def PairSound (s : State) (q b : Nat) : Prop :=
  let v := getBank (getSeat s q) b
  v.role ≠ .none → (getPair s (leafOf q) v.pairBuf).full = false

/-- The seat goes on at address a, its progress word clear (05 R159). -/
def goOn (q a : Nat) (s : State) : State :=
  modCur s q fun b => { b with pcc := capSetCursor b.pcc (a % space36), progress := 0 }

/-- The seat goes on at the next instruction, len words on, modulo 2^36. -/
def nextInstr (q len : Nat) (s : State) : State := goOn q (pcOf s q + len) s

/-- What an instruction does, by its seat and the effect on the state after its fetch; none where the conditions of its
normal completion do not hold. -/
abbrev EffectTable := Instr → Option (SeatNo × (State → Option State))

/-- Every instruction of the table that issues, under its conditions, completes: the next state is its effect, and the seat
goes on at the next instruction. Counters and sample records apart, nothing else differs. A pair-checked activation whose
buffered outputs would pass 256 words is the one exception: it ends (08 R268). -/
def Completes (table : EffectTable) : Prop :=
  ∀ (i : Instr) (q : SeatNo) (f : State → Option State) (s s1 r : State),
    table i = some (q, f) → Issues s q i s1 → f s1 = some r → pairOver r q.val = false →
      ∃ t, exec i s = .next t ∧ quiet q.val t = quiet q.val (nextInstr q.val (seatLen i) r)

/-- As Completes, for instructions that place the seat themselves. -/
def CompletesPlaced (table : EffectTable) : Prop :=
  ∀ (i : Instr) (q : SeatNo) (f : State → Option State) (s s1 r : State),
    table i = some (q, f) → Issues s q i s1 → f s1 = some r → pairOver r q.val = false →
      ∃ t, exec i s = .next t ∧ quiet q.val t = quiet q.val r

/-- No w register of seat q, no c register but c13, which an entry to S takes from its vector (07 R220), no word of its stick
and no word of case or bulk differs (05 R141). -/
def WritesNothing (q : Nat) (s t : State) : Prop :=
  t.mem = s.mem ∧ (getSeat t q).stick = (getSeat s q).stick ∧
    ∀ b r, bankW (getBank (getSeat t q) b) r = bankW (getBank (getSeat s q) b) r ∧
      (r ≠ 13 → bankC (getBank (getSeat t q) b) r = bankC (getBank (getSeat s q) b) r)

/-- Of t, only seat q and the counters can differ from s. -/
def SeatAlone (q : Nat) (s t : State) : Prop :=
  { t with seats := [], counters := [] } = { s with seats := [], counters := [] } ∧ ∀ p, p ≠ q → getSeat t p = getSeat s p

/-- The command c completes on s with the effect r, counters apart. -/
def CompletesTo (c : Instr) (s r : State) : Prop := ∃ t, exec c s = .next t ∧ uncounted t = uncounted r

/-- What a command of the block does, where its occasion holds; none where it does not. -/
abbrev EventTable := Instr → State → Option State

/-- Every command of the table completes with its effect where its occasion holds, counters apart. -/
def Happens (table : EventTable) : Prop := ∀ (c : Instr) (s r : State), table c s = some r → CompletesTo c s r

/-- Every command of the table answers with its effect where its occasion holds, counters with it. -/
def Answers (table : EventTable) : Prop := ∀ (c : Instr) (s r : State), table c s = some r → exec c s = .next r

/-- The effect under a condition. -/
def whenever (c : Prop) [Decidable c] (r : State) : Option State := if c then some r else none

end Sys2Proof.Machine
end

