-- ==== Sys2Proof/Safety/GalleyEffects.lean ====
section
/-! DEFINITION. When the galley moves plain words, and what a channel is after a burst, a completion, a write of its words
(13 R397 to R421). -/

namespace Sys2Proof.Machine

/-- The fence admits the galley class, in a direction, to every part of words a to a+n-1 (11 R358, 13 R406). -/
def GalleyReaches (s : State) (dir a n : Nat) : Prop :=
  ∀ b m, a ≤ b → 1 ≤ m → b + m ≤ a + n → ∃ g, fenceCheck s { cls := 3, dir := dir, p := b, n := m } = .ok g

/-- Words a to a+n-1 of case, none poisoned, none with an error that an access would find (10 R321, R322). -/
def SoundCase (s : State) (a n : Nat) : Prop :=
  a + n ≤ caseEnd ∧ ∀ b, a ≤ b → b < a + n → poisonedAt s.mem b = false ∧ smGet 0 s.mem.flips (b / 4) = 0

/-- The words of one burst at case word d, of the left that remain: up to the end of a 64-word block (13 R406). -/
def caseBurst (d left : Nat) : Nat := min left (64 - d % 64)

/-- The words of a COPY's burst from case word a to case word d, of the left that remain: one store burst, of no more words than
the loads bring that the channel may buffer, BUFLIM bursts or one (13 R396, R398, R406). -/
def copyBurst (c : Chan) (a d left : Nat) : Nat := min (caseBurst d left) (64 * max 1 c.buflim - a % 64)

/-- A channel in RUN carries on descriptor x of operation op, untranslated (13 R404), with words still to move: its turn has
come (R396), and it has its proofing unit or a free one (R417). -/
def Runs (s : State) (ch op : Nat) (x : Xfer) : Prop :=
  galleyRuns s = true ∧ (getChan s ch).xfer = some x ∧ (getChan s ch).state = 2 ∧ (getChan s ch).pause = false ∧
    (getChan s ch).priv = true ∧ x.ended = false ∧ xOp x = op ∧ wayOnChannel s ch = false ∧ x.moved < x.total ∧
    chanNext s ch = true ∧ proofFree s x = true

/-- Channel ch of t carries x on by n words: it ends when all have moved, and its status stays. -/
def Carries (t : State) (ch : Nat) (x : Xfer) (n : Nat) : Prop :=
  ∃ y, (getChan t ch).xfer = some y ∧ y.moved = x.moved + n ∧ y.ended = decide (x.moved + n = x.total) ∧
    y.status = x.status ∧ y.words = x.words ∧ (getChan t ch).state = 2

/-- Memory of t is that of s but for words d to d+n-1, which are ws, and the tags of their granules, which are clear. -/
def WordsMoved (s t : State) (d n : Nat) (ws : Nat → Word) : Prop :=
  (∀ i, i < n → memWord t.mem (d + i) = ws i) ∧ (∀ b, b < d ∨ d + n ≤ b → memWord t.mem b = memWord s.mem b) ∧
    (∀ b, memTag t.mem b = (memTag s.mem b && !decide (d / 4 ≤ b / 4 ∧ b / 4 ≤ (d + n - 1) / 4)))

/-- A seat at M whose word store reaches galley word a: the fence admits it, no store of the seat's own holds it, and no
pair holds its outputs back (11 R358, 13 R398). -/
def StoresAtM (s : State) (q : SeatNo) (a : Nat) : Prop :=
  canIssue s q.val = true ∧ levelOf s q.val = .M ∧ (curBank (getSeat s q.val)).role = .none ∧
    inStick (getSeat s q.val) a = false ∧ inCode (getSeat s q.val) a = false ∧
    ∃ g, fenceCheck s (seatReq (statusOfSeat s q.val) 1 a 1 false) = .ok g

/-- CH_CTL of an idle channel after a write of v with ENABLE = 1 and an RLOG from 1 to 12 (13 R399). -/
def enabled (c : Chan) (v : Word) : Chan :=
  { c with enable := true, state := 0, pause := bit v 34, paused := bit v 34 && c.paused, priv := bit v 29,
           cmode := bit v 28, prio := bits v 27 26, rlog := bits v 25 22, buflim := bits v 15 8, mapid := bits v 7 0 }

/-- The completion of a descriptor whose record is due: word 14, the counts, then the record, which commits or is held (13
R409, R410; 09 R292). -/
def recordDone (s : State) (ch : Nat) (c : Chan) (x : Xfer) : Option State :=
  let a := completeCount (unitCount (writeDone s c x) uGalley 8 1) uGalley x.status
  match putOrHold (setChan a ch c) uGalley (some ch) none (chanLane c) (recordWords a ch c x (xOp x)) with
  | (0, t) => some (chanCommitted t ch)
  | (9, t) => some (setChan t ch { getChan t ch with hold := true, state := 4, evCount := c.evCount, evStatus := c.evStatus })
  | _ => none

/-- The galley's completion events: of descriptors, of the drain of a pause, of counter dumps (13 R409 to R413, 15 R445 to
R447). -/
def galleyEventEffect : EventTable
  | .descriptorCompletion chn, s =>
      let ch := chn.val
      let c := getChan s ch
      c.xfer.bind fun x =>
        if galleyRuns s ∧ x.ended ∧ c.state = 2 ∧ wayOnChannel s ch = false ∧ c.cmode = false ∧
            chanLaneOk (setChan (completeCount (unitCount (writeDone s c x) uGalley 8 1) uGalley x.status) ch c) c false then
          recordDone s ch c x
        else none
  | .channelPaused chn, s =>
      let c := getChan s chn.val
      whenever (galleyRuns s ∧ c.pause ∧ (c.state ≤ 2 ∨ c.state = 4) ∧ ¬(c.state = 2 ∧ (c.xfer.map Xfer.ended) = some true))
        (setChan s chn.val { c with paused := true, state := 3 })
  | .counterDump, s =>
      let g := s.galley
      if galleyRuns s ∧ g.dumpK ≠ 0 ∧ s.time % (500 * ((getCox s 0).n + 1)) = 0 ∧
          s.time / (500 * ((getCox s 0).n + 1)) % g.dumpK = 0 ∧ g.dumpAt ≠ some s.time then
        if g.dump.isSome ∨ dumpHeld s ∨ s.power.paddle then
          some { s with galley := { g with skipped := g.skipped + 1, dumpAt := some s.time } }
        else
          let (shadow, t) := (dumpKeys g).foldl shadowSettle (g.shadow, s)
          some { t with galley := { g with
            dump := some { seq := g.dumpSeq % 262144, stamp := s.time, words := dumpWords t shadow (dumpKeys g),
                           lane := BitVec.ofNat 16 (bits g.dumpLane 15 0), base := g.dumpBase.toNat,
                           rlog := bits g.dumpGeo 35 32 },
            dumpSeq := g.dumpSeq + 1, skipped := 0, dumpAt := some s.time } }
      else none
  | .dumpRecordComplete, s =>
      s.galley.dump.bind fun d =>
        if galleyRuns s then
          let slot := d.seq % 2 ^ d.rlog
          match dumpBursts d.words.length s (d.base + slot * ((d.words.length + 63) / 64 * 64)) d.words with
          | (st, t) =>
            let u := { t with galley := { t.galley with dump := none } }
            if (classOf u d.lane.toNat).map (clKind u) = some 5 then
              some (putOrHold u uGalley none none d.lane.toNat [field 30 st ||| field 12 d.seq ||| field 0 (slot % 4096)]).2
            else none
        else none
  | _, _ => none

end Sys2Proof.Machine
end

