-- ==== Sys2Proof/Safety/BlockEffects.lean ====
section
/-! DEFINITION. What the memories, the feeds and monitors, the journal, the boot, changeover and the pins do, and when (10
R321 to R341; 16 R452 to R471; 18 R502 to R519; 19 R529 to R544). -/

namespace Sys2Proof.Machine

/-- The block is out of reset and has its power. -/
abbrev InPower (s : State) : Prop := s.pins.porN = true ∧ dark s.power = false

/-- A corrected error in the row of case word a: the third of one scrub pass of 128 ms makes the row due for repair, and a
later pass begins to count again (10 R321, R323). -/
def singleError (s : State) (a : Nat) : State :=
  let pass := s.time / 128000000
  let v := smGet 0 s.mem.rowErrs (rowOf a)
  { s with mem := { s.mem with
      corrected := s.mem.corrected + 1,
      rowErrs := smSet 0 s.mem.rowErrs (rowOf a) (if v % 4 = 3 then v else if v / 4 = pass then v + 1 else 4 * pass + 1) } }

/-- The memories' own events (10 R321 to R323, R334, R336). -/
def memoryEventEffect : EventTable
  | .caseScrub a errors, s =>
      let p := a.toNat
      if s.pins.porN ∧ dark s.power = false ∧ p < caseEnd ∧ poisonedAt s.mem p = false ∧ s.mem.flips = [] then
        match errors with
        | .latentSingle => some { s with mem := { s.mem with flips := [(p / 4, 1)] } }
        | .latentDouble => some { s with mem := { s.mem with flips := [(p / 4, 2)] } }
        | .none => some s
        | .single => some (singleError s p)
        | .double => some (logEvent 4 (unnamedSource s)
            { s with mem := { s.mem with poison := smSet false s.mem.poison (p / 4) true,
                                         moved := smSet false s.mem.moved (p / 4) false } })
      else none
  | .rowRepair a, s =>
      let p := a.toNat
      let m := s.mem
      let used := smGet 0 m.spares (bankOf p)
      if s.pins.porN ∧ dark s.power = false ∧ p < caseEnd ∧
          (smGet 0 m.rowErrs (rowOf p) % 4 = 3 ∨ rowPoisoned s p) then
        if used < 16 then
          let t := meetWords s (rowGranules p)
          some { t with mem := { t.mem with spares := smSet 0 t.mem.spares (bankOf p) (used + 1),
                                            rowMap := smSet 0 t.mem.rowMap (rowOf p) (used + 1),
                                            rowErrs := smSet 0 t.mem.rowErrs (rowOf p) 0,
                                            moved := (rowGranules p).foldl (fun v b =>
                                              smSet false v (b / 4) (smGet false t.mem.poison (b / 4))) t.mem.moved } }
        else some (logEvent 6 (unnamedSource s) s)
      else none
  | .bulkPatrol stripe found, s =>
      let k := stripe.toNat
      let m := s.mem
      if s.pins.porN ∧ dark s.power = false ∧ 161061274 ≤ k then
        let slots := spillSlots (k - 161061274)
        match found with
        | .good => some s
        | .passesOnReread | .latentReread =>
          some (if slots = [] then s else { s with mem := { m with corrected := m.corrected + 1 } })
        | _ =>
          let t := { s with custody := { s.custody with
            slotPoison := slots.foldl (fun x n => smSet false x n true) s.custody.slotPoison } }
          some (if slots = [] then s else logEvent 4 (unnamedSource t) t)
      else if s.pins.porN ∧ dark s.power = false ∧ k < 161061274 ∧ m.rot = [] ∧
          (smGet false m.stripePoison k = false ∨ found = .metadataLost ∨ found = .latentLost) then
        match found with
        | .latentReread => some (if smGet 0 m.gen k = 0 then s else { s with mem := { m with rot := [(k, 1)] } })
        | .latentFails => some (if smGet 0 m.gen k = 0 then s else { s with mem := { m with rot := [(k, 2)] } })
        | .latentLost => some { s with mem := { m with rot := [(k, 3)] } }
        | .good => some s
        | .passesOnReread => some (if smGet 0 m.gen k = 0 then s else { s with mem := { m with corrected := m.corrected + 1 } })
        | .fails =>
          if smGet 0 m.gen k = 0 then some s
          else some (logEvent 4 (unnamedSource s)
            { s with mem := { m with stripePoison := smSet false m.stripePoison k true } })
        | .metadataLost =>
          some (logEvent 4 (unnamedSource s)
            { s with mem := { m with stripePoison := smSet false m.stripePoison k true,
                                     genLost := smSet false m.genLost k true } })
      else none
  | .hostReadTimeout (.hostPut r), s =>
      let l := leNat (slice r 0 4) % 65536
      let n := leNat (slice r 0 4) / 65536 % 8192
      match classOf s l with
      | some k =>
        let base := 2 ^ 32 * leNat (slice r 8 4)
        if s.pins.porN ∧ dark s.power = false ∧ hostUp s ∧ s.boot.done ∧ r.length = 16 ∧ clHost s k ∧
            (clKind s k = 0 ∨ clKind s k = 2) then
          match hostMessage s (base + leNat (slice r 4 4)) n false with
          | .ok _ => none
          | .error (cause, u) =>
            let (st, t) := putBroken u l (List.replicate n 0) stBroken
            some (hostResult t (base + leNat (slice r 12 4)) (2 ^ 26 * (if st = 0 then cause else st) + l))
        else none
      | none => none
  | .hostReadTimeout (.galleyBurst ch), s =>
      whenever (s.pins.porN ∧ dark s.power = false ∧ hostUp s) (galleyTimeout s ch.val)
  | _, _ => none

/-- The state with a power trigger changed, and what follows a change of triggers (16 R460, R461, R464, R467). -/
def withTrigger (s : State) (f : Power → Power) : State := triggersChanged { s with power := f s.power }

/-- The events of feeds, monitors, temperatures, HOLD_N, paddle mode and the journal (16). Temperatures are in 0.125 °C. -/
def powerEventEffect : EventTable
  | .feedStateChange feed st, s =>
      let p := s.power
      let q := if feed = 0 then { p with feedA := st } else { p with feedB := st }
      let none_ := q.feedA != .good && q.feedB != .good
      let t := errEdge s (withTrigger s fun _ => { q with feedT := none_, lowHolds := q.lowHolds && st == .loss })
      whenever (s.pins.porN ∧ p.dropout = false ∧ (if feed = 0 then p.feedA else p.feedB) ≠ st)
        (if st = .good then t else logEvent 6 (unnamedSource t) t)
  | .monitorOutOfRange (.rail n), s =>
      let p := s.power
      let out := smSet false p.railOut n.val true
      let t := errEdge s (withTrigger s fun p => { p with railOut := out,
                                                          monitorT := (out.any fun e => e.1 != 39) || !p.droopOut.isEmpty })
      whenever (s.pins.porN ∧ p.dropout = false) (logEvent 6 (unnamedSource t) t)
  | .monitorOutOfRange (.droop q), s =>
      let p := s.power
      let out := smSet false p.droopOut q.val true
      let t := errEdge s (withTrigger s fun p => { p with droopOut := out,
                                                          monitorT := (p.railOut.any fun e => e.1 != 39) || !out.isEmpty })
      whenever (s.pins.porN ∧ p.dropout = false) (logEvent 6 q.val t)
  | .monitorOutOfRange (.ageing n), s =>
      whenever (s.pins.porN ∧ s.power.dropout = false) (logEvent 6 (if n.val < 72 then n.val else 256 + 64 + (n.val - 72)) s)
  | .monitorInRange (.ageing _), s => whenever (s.pins.porN ∧ s.power.dropout = false) s
  | .monitorInRange m, s =>
      whenever (s.pins.porN ∧ s.power.dropout = false) (withTrigger s fun p =>
        let p := match m with
          | .rail n => { p with railOut := smSet false p.railOut n.val false }
          | .droop q => { p with droopOut := smSet false p.droopOut q.val false }
          | .ageing _ => p
        { p with monitorT := (p.railOut.any fun e => e.1 != 39) || !p.droopOut.isEmpty })
  | .thermalLimit _ reading, s =>
      whenever (s.pins.porN ∧ s.power.dropout = false ∧ 105 * 8 < reading) (withTrigger s fun p => { p with thermalT := true })
  | .thermalClear readings, s =>
      whenever (s.pins.porN ∧ s.power.dropout = false ∧ readings.length = 112 ∧ ∀ r ∈ readings, r ≤ 100 * 8)
        (withTrigger s fun p => { p with thermalT := false })
  | .throttleStart _ reading, s =>
      whenever (s.pins.porN ∧ s.power.dropout = false ∧ 100 * 8 ≤ reading) { s with power := { s.power with throttle := true } }
  | .throttleEnd readings, s =>
      whenever (s.pins.porN ∧ s.power.dropout = false ∧ readings.length = 112 ∧ ∀ r ∈ readings, r ≤ 97 * 8)
        { s with power := { s.power with throttle := false } }
  | .holdAssert, s =>
      whenever (s.pins.porN ∧ s.power.dropout = false) (withTrigger s fun p => { p with holdT := true })
  | .holdClear, s =>
      whenever (s.pins.porN ∧ s.power.dropout = false) (withTrigger s fun p => { p with holdT := false })
  | .paddleCourseSwitch, s =>
      let p := s.power
      whenever (s.pins.porN ∧ dark p = false ∧ p.paddle ∧ p.courseDue ∧ atBoundary s p.crew)
        (modCox { s with power := { p with courseDue := false } } p.crew fun k => { k with paddleSrc := true })
  | .paddleExit, s =>
      s.power.settleEnd.bind fun t =>
        let a := { s with lanes := { s.lanes with stowed := s.lanes.stowed.map fun e => { e with offFor := offTime s e } } }
        let b := (List.range 72).foldl (fun u q =>
          if (getSeat u q).powered ∨ (getSeat u q).checkStop.isSome ∨ (getSeat u q).gone ∨ ¬(u.boot.done ∨ q = 0) ∨
              ¬(q % 9 < 8 ∨ (positionOf u (leafOf q) q).isSome) then u
          else setSeat u q {}) a
        whenever (s.pins.porN ∧ dark s.power = false ∧ t ≤ s.time)
          { b with power := { b.power with settleEnd := none, exitFrom := some b.time, offFrom := none, domOff := [] } }
  | .paddleExitComplete, s =>
      s.power.exitFrom.bind fun t =>
        let a := (List.range 11).foldl (fun u x => coxWake (modCox u x fun k => { k with paddleSrc := false }) x) s
        whenever (s.pins.porN ∧ dark s.power = false ∧ 200000 + t ≤ s.time ∧ atBoundary s 0)
          (signalHost { a with power := { a.power with exitFrom := none, paddle := false, courseDue := false } } 2)
  | .journalSeal cause, s =>
      let p := s.power
      let due : Bool := match cause with
        | .feeds => p.feedA == .loss && p.feedB == .loss && !p.lowHolds
        | .temperature => p.thermalT && !p.sealedTemp
      if s.pins.porN ∧ p.dropout = false ∧ due ∧ p.sealing = none then
        let t := sealKeys.foldl counterSettle s
        some { t with power := { p with
          sealing := some cause, sealHead := (journalOctets t cause).1,
          journal := (if p.journal = [] then List.replicate 64 0 else p.journal.take 64) ++ (journalOctets t cause).2,
          journalOk := false, lowHolds := p.lowHolds || cause == .feeds, sealSeq := p.sealSeq + 1 } }
      else none
  | .journalSealComplete, s =>
      let p := s.power
      p.sealing.bind fun cause => whenever (s.pins.porN ∧ p.dropout = false)
        { (if cause = .temperature then settleAll s else s) with
            power := { p with sealing := none, journalOk := true, journal := p.sealHead ++ p.journal.drop 64,
                              sealedTemp := p.sealedTemp || cause == .temperature } }
  | _, _ => none

/-- The pins, the endpoint and the test port (19 R529 to R544). -/
def pinEventEffect : EventTable
  | .endpointReset, s =>
      let cause := (Config.openWord s.free).toNat % 4
      let t := { s with free := s.free + 1 }
      some (if cause = 3 ∧ s.pins.perstEn = false then t
        else { t with
          pins := { t.pins with pcieUp := t.pins.pcieUp && cause == 2, aperBase := 0, msixTable := [], msixPend := [] },
          irrix := { t.irrix with
            reqTail := 0, reqHead := 0, rspTail := 0, rspHead := 0, held := [],
            sessions := t.irrix.sessions.map fun x => if x.trClass = 1 then { x with xfer := none } else x,
            way := t.irrix.way.map fun c => if c.tr = some .window then { c with tr := none } else c } })
  | .pcieLinkUp, s => whenever (s.pins.porN ∧ dark s.power = false) { s with pins := { s.pins with pcieUp := true } }
  | .refclkLoss, s =>
      whenever (s.pins.porN ∧ s.power.dropout = false ∧ s.pins.refclk)
        (logEvent 6 (unnamedSource s) { s with pins := { s.pins with refclk := false } })
  | .refclkReturn, s => whenever (s.pins.porN ∧ s.power.dropout = false) { s with pins := { s.pins with refclk := true } }
  | .tbSyncEdge, s =>
      let near := s.time % 1000000000
      let e : Int := if near ≤ 500000000 then near else (near : Int) - 1000000000
      let t := { s with irrix := { s.irrix with ppsCap := s.time, ppsErr := e } }
      if s.pins.porN ∧ s.power.dropout = false then
        if stored s 0x1202 0 ≠ [1] then some t
        else if 10 ≤ s.irrix.edges ∧ 1000000 < e.natAbs then
          some { t with irrix := { t.irrix with edgesIgnored := s.irrix.edgesIgnored + 1 } }
        else
          let rate := syncRate (tbRate s) e (if s.irrix.edges = 0 then 0 else s.time - s.irrix.ppsLast)
          some { t with irrix := { t.irrix with edges := s.irrix.edges + 1, ppsLast := s.time,
                                                values := smSet [] s.irrix.values (entryKey 0x1201 0) (i36 rate) } }
      else none
  | .tbOutPulse, s =>
      whenever (s.pins.porN ∧ s.power.dropout = false ∧ s.time % 1000000000 = 0)
        { s with pins := { s.pins with tbRise := some s.time } }
  | .bypass, s => some { s with pins := { s.pins with tap := { ir := 0, reg := [false], latch := s.pins.tap.latch } } }
  | .idcode, s =>
      some { s with pins := { s.pins with tap := {
        ir := 1, reg := (List.range 32).map (0x1E364A2B : Nat).testBit, latch := s.pins.tap.latch } } }
  | .samplePreload preload, s =>
      some { s with free := s.free + 1, pins := { s.pins with tap := {
        ir := 2, reg := (List.range Config.scanLength).map (Config.scanPin s.free), latch := preload } } }
  | .extest, s =>
      if s.pins.porN then
        some { s with pins := { s.pins with tap := { ir := 3, reg := [false], latch := s.pins.tap.latch } } }
      else
        some { s with free := s.free + 1, pins := { s.pins with tap := {
          ir := 3, reg := (List.range Config.scanLength).map (Config.scanPin s.free), latch := s.pins.tap.latch,
          driving := true } } }
  | .clamp, s =>
      some { s with pins := { s.pins with tap := {
        ir := 4, reg := [false], latch := s.pins.tap.latch, driving := !s.pins.porN } } }
  | .highz, s =>
      some { s with pins := { s.pins with tap := {
        ir := 5, reg := [false], latch := s.pins.tap.latch, highz := !s.pins.porN } } }
  | _, _ => none

/-- Nothing is staged, and no switch is armed (18 R512 to R515). -/
def unstaged (b : Boot) : Boot :=
  { b with keelNew := false, strokeNew := false, bowNew := false, impNew := false, staged := [] }

/-- The switch (18 R514, R515): the imposition's copies swap and the queued lanes are filed again, parses in progress stay on
the old forms, a pending bucket switch is dropped and counted, the staged images run with their measurements and vectors,
and the activations of this instant are old. -/
def switched (s : State) : State :=
  let b := s.boot
  let a := if b.impNew then refile (swapCopies (markOld s)) else markOld s
  let u := { a with
    engines := { a.engines with
      jobs := if b.impNew then a.engines.jobs.map fun j => if j.unit ≤ 0o013 ∧ 0o010 ≤ j.unit then { j with oldForm := true } else j
        else a.engines.jobs },
    eth := { a.eth with switchReq := none, switchDropped := a.eth.switchDropped + if a.eth.switchReq.isSome then 1 else 0 } }
  let u := b.staged.foldl imageSwitch u
  { u with boot := { u.boot with phase := 4, armedAt := none, mhold := false } }

/-- The events of changeover and of proof sheets (18 R509 to R516). -/
def changeoverEventEffect : EventTable
  | .verifyComplete, s =>
      let hs := stagedHeaders s
      let has := fun ty : Nat => hs.any fun e => e.1 == ty
      if InPower s ∧ s.power.dropout = false ∧ s.boot.phase = 1 then
        if stagedOk s then
          let t := loadStaged s
          some { t with boot := { t.boot with standby := 2, phase := 2, keelNew := has 1, strokeNew := has 2, bowNew := has 3,
                                              impNew := has 4, staged := hs.map fun e => { kind := e.1, header := e.2 } } }
        else some { s with boot := { unstaged s.boot with standby := 3, phase := 5 } }
      else none
  | .mHold, s =>
      let n := 500 * ((getCox s 0).n + 1)
      s.boot.armedAt.bind fun t =>
        whenever (InPower s ∧ s.boot.keelNew ∧ s.time % n = 0 ∧ 1000000 + t ≤ s.time + n ∧
            (s.time + n) % (n * (getCox s 0).l) = 0)
          { s with boot := { s.boot with mhold := true } }
  | .changeoverBoundary, s =>
      let n := 500 * ((getCox s 0).n + 1)
      s.boot.armedAt.bind fun t =>
        if InPower s ∧ s.boot.phase = 3 ∧ s.time % (n * (getCox s 0).l) = 0 ∧ 1000000 + t ≤ s.time then
          if s.power.paddle then some { s with boot := { s.boot with mhold := false } }
          else if s.boot.keelNew ∧ ¬s.boot.mhold then some s
          else if s.boot.impNew ∧ ¬classesKeep s s.lanes.clsSb then
            some { s with boot := { unstaged s.boot with standby := 3, phase := 5, armedAt := none, mhold := false } }
          else some (switched s)
        else none
  | .drainEnd, s =>
      let n := s.boot.markerSeq + 1
      if InPower s ∧ s.boot.phase = 4 ∧ oldLive s = 0 ∧ ∀ j ∈ s.engines.jobs, j.oldForm = false then
        let t := clearStandby (advanceRollback (flashPut s (imageSet (stagedSet s) + 0x3FFFFF0)
          (beOctets 4 0x534D524B ++ beOctets 4 n ++ List.replicate 8 0)))
        some { t with boot := { unstaged t.boot with standby := 0, phase := 0, markerSeq := n } }
      else none
  | .proofSheetComplete, s =>
      match (s.irrix.mail :: s.irrix.sessions).find? fun x => x.nonce.isSome, s.custody.identity with
      | some x, some ws =>
        if InPower s ∧ s.boot.tampered = false ∧ drbgRefuses s 3 = false then
          let os := sheetOctets s (x.nonce.getD [])
          let r := identitySign s ws os
          some (modSession r.2 x.trClass x.mgr fun y => { y with nonce := none, sheet := os ++ r.1 })
        else none
      | _, _ => none
  | .bootLaneTimeout, s =>
      whenever (s.pins.porN ∧ s.power.dropout = false ∧ s.boot.done ∧ ¬s.boot.laneOpened ∧ s.boot.result ≠ 8 ∧
          2500000000 ≤ s.time - s.irrix.tbShift)
        (logEvent 2 (unnamedSource s) { s with boot := { s.boot with result := 8 } })
  | _, _ => none

end Sys2Proof.Machine
end

