-- ==== Sys2Proof/Safety/CoxEffects.lean ====
section
/-! DEFINITION. The results of cox instructions as 08 R240 to R246 state them. -/

namespace Sys2Proof.Machine

/-- What one cox instruction does to its cox: the register it writes for the next instruction, the registers it writes one
instruction later, a branch's target if it is taken, the data-store word it writes, and what holds stage X after it. -/
structure CoxResult where
  write   : Option (Reg × Half) := none
  delayed : List (Nat × Half) := []
  target  : Option (Option Nat) := none
  data    : Option (Nat × Half) := none
  waiting : Option Nat := none
  idling  : Bool := false

/-- A result of two registers. -/
def coxPair (x : CoxNo) (rd ra rb : Reg) (f : Nat → Nat → Nat) : Option (CoxNo × (State → Cox → CoxResult)) :=
  some (x, fun _ c =>
    { write := some (rd, BitVec.ofNat 18 (f (hGet c ra.toNat).toNat (hGet c rb.toNat).toNat)) })

/-- A branch. -/
def coxJump (x : CoxNo) (target : BitVec 13) (p : Cox → Bool) : Option (CoxNo × (State → Cox → CoxResult)) :=
  some (x, fun _ c => { target := some (if p c then some target.toNat else none) })

/-- The cox instructions that touch nothing but their cox (R243). Addresses are modulo 4,096, shift counts are imm bits 4-0. -/
def coxResult : Instr → Option (CoxNo × (State → Cox → CoxResult))
  | .coxAdd x rd ra rb => coxPair x rd ra rb fun a b => a + b
  | .coxSub x rd ra rb => coxPair x rd ra rb fun a b => a + 2 ^ 18 - b
  | .coxAnd x rd ra rb => coxPair x rd ra rb fun a b => a &&& b
  | .coxOr x rd ra rb => coxPair x rd ra rb fun a b => a ||| b
  | .coxXor x rd ra rb => coxPair x rd ra rb fun a b => a ^^^ b
  | .shl x rd ra imm => coxPair x rd ra 0 fun a _ => a * 2 ^ (imm.toNat % 32)
  | .shr x rd ra imm => coxPair x rd ra 0 fun a _ => a / 2 ^ (imm.toNat % 32)
  | .coxAddi x rd ra imm => coxPair x rd ra 0 fun a _ => a + imm.toNat
  | .ld x rd ra imm => some (x, fun _ c =>
      { delayed := [(rd.toNat, smGet 0 c.data (((hGet c ra.toNat).toNat + imm.toNat) % 4096))] })
  | .st x rd ra imm => some (x, fun _ c =>
      { data := some (((hGet c ra.toNat).toNat + imm.toNat) % 4096, hGet c rd.toNat) })
  | .beq x ra rb target => coxJump x target fun c => decide (hGet c ra.toNat = hGet c rb.toNat)
  | .bne x ra rb target => coxJump x target fun c => decide (hGet c ra.toNat ≠ hGet c rb.toNat)
  | .bltu x ra rb target => coxJump x target fun c => decide ((hGet c ra.toNat).toNat < (hGet c rb.toNat).toNat)
  | .jmp x target => coxJump x target fun _ => true
  | .bnxt x target => coxJump x target fun c => c.bflag
  | .waits x rd => some (x, fun _ _ => { waiting := some rd.toNat })
  | .idle x => some (x, fun _ _ => { idling := true })
  | .strk x rd => some (x, fun s c =>
      { write := some (rd, BitVec.ofNat 18
          (s.time / (500 * (c.n + 1)) % c.l % 4096 + (if c.set = 8 then 4096 else 0))) })
  | .pend x rd ra => some (x, fun s c =>
      { delayed := [(rd.toNat, BitVec.ofNat 18 ((List.range 16).map fun i =>
          if pendBit s x.val (16 * ((hGet c ra.toNat).toNat % 64) + i) then 2 ^ i else 0).sum)] })
  | .seatst x rd ra => some (x, fun s c =>
      { delayed := [(rd.toNat, if x.val < 3 then BitVec.ofNat 18 (2 ^ 17)
          else seatstWord s x.val ((hGet c ra.toNat).toNat % 8))] })
  | .cnt x _ => some (x, fun _ _ => {})
  | _ => none

/-- The instruction reads no result that a delayed writer just before it has yet to write (R241): a program that the
imposer may sign. -/
def SignedReads (c : Cox) (i : Instr) : Prop := ∀ r ∈ coxReads i, r ≠ 0 → ∀ d ∈ c.delayed, d.1 ≠ r.toNat

/-- What register r of the cox holds after the instruction: a delayed write of the instruction before, else its own write,
else what it held; h0 is 0 (R238, R240). -/
def coxReg (c : Cox) (w : Option (Reg × Half)) (r : Nat) : Half :=
  if r = 0 then 0
  else match c.delayed.reverse.find? fun d => d.1 == r with
  | some d => d.2
  | none =>
    match w with
    | some (rd, v) => if r = rd.toNat then v else hGet c r
    | none => hGet c r

end Sys2Proof.Machine
end

