-- ==== Sys2Proof/Safety/EngineEffects.lean ====
section
/-! DEFINITION. The results of engine requests that succeed, as 12 R368 to R391 state them, and what engines, compositors and
the random unit do of themselves (12 R376 to R394, 14 R422 to R435). -/

namespace Sys2Proof.Machine

/-- The key handle c serves the request for a key of a type with every usage asked for (12 R370 to R374). -/
def KeyServes (s : State) (r : Req) (c : Cap) (types : Nat → Bool) (usage : Nat) : Prop :=
  let n := capCursor c
  c.tag = true ∧ capSeal c = 65535 ∧ holds (capRights c) rKY = true ∧ sealOn s 65535 = true ∧ capBase c ≤ n ∧
    n ≤ capLast c ∧ n < 2 ^ 20 ∧ slotPoisoned s n = false ∧ slotState s n = 1 ∧ types (slotType s n) = true ∧
    slotUsage s n &&& usage = usage ∧ (slotOwner s n = 0 ∨ slotOwner s n = capSeal r.gate)

/-- The handle c names a slot for a custody operation (12 R374, orders 1 to 5). -/
def SlotNamed (s : State) (c : Cap) : Prop :=
  c ≠ capNull ∧ c.tag = true ∧ capSeal c = 65535 ∧ holds (capRights c) rKY = true ∧ sealOn s 65535 = true ∧
    capBase c ≤ capCursor c ∧ capCursor c ≤ capLast c ∧ capCursor c < 2 ^ 20

/-- A platen's result of L words from operands L; A; B; M that pass the checks of 12 R382. -/
def PlatenResult (s : State) (r : Req) (mode : Nat) (odd below : Bool) (f : Nat → Nat → Nat → Nat) (ws : List Word) (t : State) :
    Prop :=
  let n := bits (r.ops.getD 0 0) 6 0
  let a := bigNat ((r.ops.drop 1).take n)
  let b := bigNat ((r.ops.drop (1 + n)).take n)
  let m := bigNat ((r.ops.drop (1 + 2 * n)).take n)
  r.mode = mode ∧ r.k1 = capNull ∧ r.k2 = capNull ∧ 1 ≤ n ∧ n ≤ 86 ∧ r.ops.length = 1 + 3 * n ∧ a < m ∧
    (below = true → b < m) ∧ (odd = true → m % 2 = 1) ∧ t = s ∧ ws = bigWords n (f a b m)

/-- An RSA public operation on x under n and e of l words each (12 R382). -/
def RsaPublic (s : State) (l : Nat) (x n e : List Word) (ws : List Word) (t : State) : Prop :=
  bigNat x < bigNat n ∧ bigNat n % 2 = 1 ∧ t = s ∧ ws = bigWords l (bigNat x ^ bigNat e % bigNat n)

/-- The platens' operations (12 R382, R383). -/
def PlatenAnswers (i : Instr) (s : State) (r : Req) (ws : List Word) (t : State) : Prop :=
  match i with
  | .modadd _ _ => PlatenResult s r 0 false true (fun a b m => (a + b) % m) ws t ∨
      PlatenResult s r 1 false true (fun a b m => (a + m - b) % m) ws t
  | .modmul _ _ => PlatenResult s r 0 true true (fun a b m => a * b % m) ws t
  | .modexp _ _ => PlatenResult s r 0 true false (fun a e m => a ^ e % m) ws t
  | .rsaPub _ _ =>
      let l := r.ops.length / 3
      let key := arenaWords s (capCursor r.k1)
      let h := key.length / 2
      (r.k1 = capNull ∧ r.k2 = capNull ∧ (r.mode = 16 ∨ r.mode = 17) ∧ 1 ≤ l ∧ l ≤ 86 ∧ r.ops.length = 3 * l ∧
        RsaPublic s l (r.ops.take l) ((r.ops.drop l).take l) (r.ops.drop (2 * l)) ws t) ∨
      (r.k1 ≠ capNull ∧ r.k2 = capNull ∧ KeyServes s r r.k1 (· == 7) (if r.mode = 0 then uVERIFY else uENC) ∧
        (r.mode = 0 ∨ r.mode = 1) ∧ 1 ≤ h ∧ h ≤ 86 ∧ r.ops.length = h ∧
        RsaPublic s h r.ops (key.take h) (key.drop h) ws t)
  | .rsaPriv _ _ =>
      let key := arenaWords s (capCursor r.k1)
      ∃ l h y, rsaShape key.length = some (l, h) ∧ r.k1 ≠ capNull ∧ r.k2 = capNull ∧ (r.mode = 0 ∨ r.mode = 1) ∧
        KeyServes s r r.k1 (· == 6) (if r.mode = 0 then uSIGN else uDEC) ∧ r.ops.length = l ∧ 1 ≤ l ∧ l ≤ 86 ∧
        bigNat r.ops < bigNat (key.take l) ∧ bigNat (key.take l) % 2 = 1 ∧ drbgRefuses s 1 = false ∧
        (let part := fun i => bigNat ((key.drop (2 * l + i * h)).take h)
         let n := bigNat (key.take l)
         let b := blinding (beNat (drbgDraw s 1 (5 * l)).1) n
         y = rsaCrt (part 0) (part 1) (part 2) (part 3) (part 4)
           (bigNat r.ops * (b ^ bigNat ((key.drop l).take l) % n) % n) % n * invMod b n % n) ∧
        y ^ bigNat ((key.drop l).take l) % bigNat (key.take l) = bigNat r.ops ∧
        t = (drbgDraw s 1 (5 * l)).2 ∧ ws = bigWords l y
  | _ => False

/-- An operation under the one key K1 (12 R385): its form holds, and the key serves. -/
def OneKey (s : State) (r : Req) (types : Nat → Bool) (usage : Nat) : Prop :=
  r.k1 ≠ capNull ∧ r.k2 = capNull ∧ KeyServes s r r.k1 types usage

/-- A mode over whole blocks of k octets with an IV of iv octets: the octets that come out (12 R385). -/
def BlockResult (s : State) (r : Req) (k iv : Nat) (types : Nat → Bool)
    (enc dec : List Octet → List Octet → List Octet → List Octet) (ws : List Word) (t : State) : Prop :=
  ∃ v d, octetsAt r 0 iv = some v ∧ seqOctets (r.ops.drop ((iv + 3) / 4)) = some d ∧ d.length % k = 0 ∧ t = s ∧
    OneKey s r types (if r.mode % 2 = 0 then uENC else uDEC) ∧
    let key := slotKey s (capCursor r.k1)
    ws = seqWords (if r.mode % 2 = 0 then enc key v d else dec key v d)

/-- A CMAC of a tag of MODE bits 7-4 plus one octets: generated, or verified with no result words (12 R385). -/
def CmacResult (s : State) (r : Req) (hi : Nat) (types : Nat → Bool) (f : List Octet → List Octet → List Octet)
    (ws : List Word) (t : State) : Prop :=
  let len := r.mode / 16 + 1
  4 ≤ len ∧ len ≤ hi ∧ t = s ∧
    ((r.mode % 2 = 0 ∧ OneKey s r types uSIGN ∧ ∃ d, seqOctets r.ops = some d ∧
        ws = seqWords ((f (slotKey s (capCursor r.k1)) d).take len)) ∨
      (r.mode % 2 = 1 ∧ OneKey s r types uVERIFY ∧ ∃ d, let n := r.ops.length - (len + 3) / 4
        (len + 3) / 4 ≤ r.ops.length ∧ seqOctets (r.ops.take n) = some d ∧
          octetsAt r n len = some ((f (slotKey s (capCursor r.k1)) d).take len) ∧ ws = []))

/-- A PIN block sealed in a format under a key, with fill from D2 where the format has any (12 R386). -/
def PinSealed (s : State) (pin : List Nat) (dst : Nat) (key : List Octet) (pan : List Nat) (ws : List Word) (t : State) : Prop :=
  (dst = 0 ∧ t = s ∧ ws = seqWords (pinSeal 0 key pin pan [])) ∨
    (dst ≠ 0 ∧ drbgRefuses s 2 = false ∧ t = (drbgDraw s 2 8).2 ∧
      ws = seqWords (pinSeal dst key pin pan (drbgDraw s 2 8).1))

/-- The cipher engines' operations on data and PIN blocks (12 R385 to R387). -/
def CipherAnswers (i : Instr) (s : State) (r : Req) (ws : List Word) (t : State) : Prop :=
  match i with
  | .aesEcb _ _ => BlockResult s r 16 0 isAes (fun k _ d => ecb (aesEncrypt k) 16 d) (fun k _ d => ecb (aesDecrypt k) 16 d) ws t
  | .aesCbc _ _ => BlockResult s r 16 16 isAes (fun k v d => cbcEnc (aesEncrypt k) 16 v d)
      (fun k v d => cbcDec (aesDecrypt k) 16 v d) ws t
  | .aesCtr _ _ => BlockResult s r 1 16 isAes (fun k v d => aesCtr k v d) (fun k v d => aesCtr k v d) ws t
  | .tdesEcb _ _ => BlockResult s r 8 0 isTdes (fun k _ d => ecb (tdesEncrypt k) 8 d) (fun k _ d => ecb (tdesDecrypt k) 8 d) ws t
  | .tdesCbc _ _ => BlockResult s r 8 8 isTdes (fun k v d => cbcEnc (tdesEncrypt k) 8 v d)
      (fun k v d => cbcDec (tdesDecrypt k) 8 v d) ws t
  | .aesGcm _ _ =>
      let n := (r.ops.getD 3 0).toNat
      let a := (n + 3) / 4
      let rest := r.ops.drop (4 + a)
      ∃ iv aad, octetsAt r 0 12 = some iv ∧ octetsAt r 4 n = some aad ∧ 4 + a ≤ r.ops.length ∧ t = s ∧
        let key := slotKey s (capCursor r.k1)
        (r.mode % 2 = 0 ∧ OneKey s r isAes uENC ∧ ∃ d, seqOctets rest = some d ∧
          ws = seqWords (gcmCrypt key iv d) ++ seqWords (gcmTag key iv aad (gcmCrypt key iv d))) ∨
        (r.mode % 2 = 1 ∧ OneKey s r isAes uDEC ∧ 4 ≤ rest.length ∧ ∃ d, seqOctets (rest.take (rest.length - 4)) = some d ∧
          (gcmTag key iv aad d).length = 16 ∧ seqOctets (rest.drop (rest.length - 4)) = some (gcmTag key iv aad d) ∧
          ws = seqWords (gcmCrypt key iv d))
  | .aesCmac _ _ => CmacResult s r 16 isAes (fun k d => cmac (aesEncrypt k) 16 0x87 d) ws t
  | .tdesCmac _ _ => CmacResult s r 8 isTdes (fun k d => cmac (tdesEncrypt k) 8 0x1B d) ws t
  | .pinXlate _ _ =>
      let src := r.mode / 16
      let dst := r.mode % 16
      let b := if src = 4 then 16 else 8
      ∃ block panOs pan pin, octetsAt r 0 b = some block ∧ seqOctets (r.ops.drop (b / 4)) = some panOs ∧
        (if src = 1 ∧ dst = 1 then panOs = [] ∧ pan = [] else panDigits panOs = some pan) ∧
        isPinFormat src = true ∧ isPinFormat dst = true ∧ r.k1 ≠ capNull ∧ r.k2 ≠ capNull ∧
        KeyServes s r r.k1 (pinTypes src) uPIN ∧ KeyServes s r r.k2 (pinTypes dst) uPIN ∧ (dst = 1 → src = 1) ∧
        pinOpen src (slotKey s (capCursor r.k1)) block pan = some pin ∧
        PinSealed s pin dst (slotKey s (capCursor r.k2)) pan ws t
  | .dukptPin _ _ =>
      let dst := r.mode % 16
      ∃ ksn block panOs pan pin ik, octetsAt r 0 12 = some ksn ∧ octetsAt r 3 16 = some block ∧
        seqOctets (r.ops.drop 7) = some panOs ∧ panDigits panOs = some pan ∧ isPinFormat dst = true ∧ dst ≠ 1 ∧
        r.k1 ≠ capNull ∧ r.k2 ≠ capNull ∧ KeyServes s r r.k1 isDukpt uDERIVE ∧ KeyServes s r r.k2 (pinTypes dst) uPIN ∧
        dukptStart s (capCursor r.k1) ksn = .ok ik ∧
        pinOpen 4 (dukptWorking ik (ksn.take 8) (beNat (ksn.drop 8)) [0x10, 0x00]) block pan = some pin ∧
        PinSealed s pin dst (slotKey s (capCursor r.k2)) pan ws t
  | .dukptDec _ _ =>
      ∃ ksn iv d ik, octetsAt r 0 12 = some ksn ∧ octetsAt r 3 16 = some iv ∧ seqOctets (r.ops.drop 7) = some d ∧
        d.length % 16 = 0 ∧ OneKey s r isDukpt uDERIVE ∧ dukptStart s (capCursor r.k1) ksn = .ok ik ∧ t = s ∧
        ws = seqWords (cbcDec (aesDecrypt (dukptWorking ik (ksn.take 8) (beNat (ksn.drop 8)) [0x30, 0x00])) 16 iv d)
  | .random _ _ =>
      let n := (r.ops.getD 0 0).toNat
      r.k1 = capNull ∧ r.k2 = capNull ∧ r.ops.length = 1 ∧ 1 ≤ n ∧ n ≤ 16384 ∧ drbgRefuses s 2 = false ∧
        t = (drbgDraw s 2 n).2 ∧ ws = seqWords (drbgDraw s 2 n).1
  | _ => False

/-- A digest request's head, when CHAIN is set: the state words and the count (12 R391). -/
def DigestStart (r : Req) (alg : ShaAlg) (st : List Nat) (before : Nat) (data : List Octet) : Prop :=
  let n := chainLen alg
  if r.mode / 16 % 2 = 1 then
    n + 2 ≤ r.ops.length ∧ chainState alg (r.ops.take n) = some st ∧
      before = double (r.ops.getD n 0) (r.ops.getD (n + 1) 0) ∧ seqOctets (r.ops.drop (n + 2)) = some data
  else st = shaInit alg ∧ before = 0 ∧ seqOctets r.ops = some data

/-- The digest engines' operations (12 R391). -/
def DigestAnswers (i : Instr) (s : State) (r : Req) (ws : List Word) (t : State) : Prop :=
  match i with
  | .sha _ _ =>
      ∃ alg st before d, shaOf r.mode = some alg ∧ DigestStart r alg st before d ∧ r.k1 = capNull ∧ r.k2 = capNull ∧
        before + d.length < 2 ^ 72 ∧ t = s ∧
        ((r.mode / 32 % 2 = 0 ∧ ws = seqWords (shaFinish alg st before d)) ∨
          (r.mode / 32 % 2 = 1 ∧ d.length % shaBlock alg = 0 ∧
            ws = chainWords alg (shaBlocks alg st d) ++ [doubleLo (before + d.length), doubleHi (before + d.length)]))
  | .hmacGen _ _ =>
      ∃ alg len d, shaOf r.mode = some alg ∧ hmacLen alg r.mode = some len ∧ seqOctets r.ops = some d ∧
        OneKey s r (· == 8) uSIGN ∧ t = s ∧ ws = seqWords ((hmac alg (slotKey s (capCursor r.k1)) d).take len)
  | .hmacVer _ _ =>
      ∃ alg len d, let n := r.ops.length - (len + 3) / 4
        shaOf r.mode = some alg ∧ hmacLen alg r.mode = some len ∧ (len + 3) / 4 ≤ r.ops.length ∧
        seqOctets (r.ops.take n) = some d ∧ OneKey s r (· == 8) uVERIFY ∧
        octetsAt r n len = some ((hmac alg (slotKey s (capCursor r.k1)) d).take len) ∧ t = s ∧ ws = []
  | _ => False

/-- Custody's operations, from bow side alone but for KINFO (12 R368, R370, R381, R389, R390). w is what the operation writes
when it completes. The label of an imported key is free (log 44). -/
def CustodyAnswers (i : Instr) (s : State) (r : Req) (ws : List Word) (w : Option SlotWrite) (t : State) : Prop :=
  let n := capCursor r.k2
  match i with
  | .kgen _ _ =>
      let h := r.ops.getD 0 0
      ∃ len, capSide r.gate = true ∧ SlotNamed s r.k2 ∧ r.k1 = capNull ∧ r.ops.length = 2 ∧ slotPoisoned s n = false ∧
        slotState s n = 0 ∧ freshLen (bits h 32 28) = some len ∧ drbgRefuses s 0 = false ∧ t = (drbgDraw s 0 len).2 ∧ ws = [] ∧
        let key := (drbgDraw s 0 len).1
        w = some { slot := n, words := [field 33 1 ||| field 28 (bits h 32 28) ||| field 19 (bits h 27 19) |||
          field 0 (bits h 15 0), 0, kcvOf (bits h 32 28) key [], r.ops.getD 1 0] ++ seqWords key ++
          List.replicate (12 - (seqWords key).length) 0 }
  | .kimport _ _ =>
      ∃ blob key os ks, capSide r.gate = true ∧ SlotNamed s r.k2 ∧ 2 ≤ r.ops.length ∧ bits (r.ops.getD 1 0) 35 21 = 0 ∧
        seqOctets (r.ops.drop 2) = some blob ∧ wrapKey s r uUNWRAP = .ok key ∧ (slotPoisoned s n = true ∨ slotState s n = 0) ∧
        kwpUnwrap key blob = some os ∧ blobWords os = some ks ∧ w.isSome = true ∧ ws = [] ∧
        importWords s n (r.ops.getD 0 0) (r.ops.getD 1 0).toNat ks = ({ commit := w }, t)
  | .kexport _ _ =>
      ∃ key, capSide r.gate = true ∧ r.k2 ≠ capNull ∧ KeyServes s r r.k2 (fun _ => true) uEXPORT ∧ r.ops = [] ∧
        wrapKey s r uWRAP = .ok key ∧ t = s ∧ ws = seqWords (kwpWrap key (blobOctets (exportWords s n))) ∧ w = none
  | .kdel _ _ =>
      capSide r.gate = true ∧ SlotNamed s r.k2 ∧ r.k1 = capNull ∧ r.ops = [] ∧ slotPoisoned s n = false ∧ ws = [] ∧ t = s ∧
        w = some { slot := n, words := List.replicate 16 0, aoff := slotAOff s n, arena := List.replicate (slotALen s n) 0 }
  | .kinfo _ _ =>
      SlotNamed s r.k2 ∧ r.k1 = capNull ∧ r.ops = [] ∧ slotPoisoned s n = false ∧
        (capSide r.gate = true ∨ slotOwner s n = 0 ∨ slotOwner s n = capSeal r.gate) ∧ t = s ∧ w = none ∧
        ws = [slotWord s n 0, slotWord s n 1, slotWord s n 2, slotWord s n 3]
  | .kseal _ _ =>
      r.k1 = capNull ∧ r.k2 = capNull ∧ r.ops = [] ∧ capSide r.gate = true ∧ s.custody.mkState = .present ∧ t = s ∧
        w = none ∧ ws = [kcvOf 3 s.custody.mkKey []]
  | _ => False

/-- The unit, lane and operation code of an engine command, and whether it is a custody operation (12 R382 to R391). -/
def engineOf : Instr → Option (UnitCode × LaneNo × Nat × Bool)
  | .modadd u l => some (u, l, 0o100, false)
  | .modmul u l => some (u, l, 0o102, false)
  | .modexp u l => some (u, l, 0o103, false)
  | .rsaPriv u l => some (u, l, 0o110, false)
  | .rsaPub u l => some (u, l, 0o111, false)
  | .aesEcb u l => some (u, l, 0o200, false)
  | .aesCbc u l => some (u, l, 0o201, false)
  | .aesCtr u l => some (u, l, 0o202, false)
  | .aesGcm u l => some (u, l, 0o203, false)
  | .aesCmac u l => some (u, l, 0o204, false)
  | .tdesEcb u l => some (u, l, 0o210, false)
  | .tdesCbc u l => some (u, l, 0o211, false)
  | .tdesCmac u l => some (u, l, 0o212, false)
  | .pinXlate u l => some (u, l, 0o220, false)
  | .dukptPin u l => some (u, l, 0o221, false)
  | .dukptDec u l => some (u, l, 0o222, false)
  | .random u l => some (u, l, 0o230, false)
  | .kgen u l => some (u, l, 0o240, true)
  | .kimport u l => some (u, l, 0o241, true)
  | .kexport u l => some (u, l, 0o242, true)
  | .kdel u l => some (u, l, 0o243, true)
  | .kinfo u l => some (u, l, 0o244, true)
  | .kseal u l => some (u, l, 0o245, true)
  | .sha u l => some (u, l, 0o300, false)
  | .hmacGen u l => some (u, l, 0o301, false)
  | .hmacVer u l => some (u, l, 0o302, false)
  | _ => none

/-- Unit u takes request m of its lane l, which leaves t: the unit runs and has room, the lane is an open one of kind 3 that
it consumes and whose turn it is, in paddle mode of an essential class, the fence admits its descriptor, and m is
at HEAD (12 R375, R378; 09 R280, R553; 16 R464). -/
def EngineHead (s : State) (u l most : Nat) (m : Msg) (t : State) : Prop :=
  unitRuns s u = true ∧ (s.engines.jobs.filter fun j => j.unit == u).length < most ∧
    ∃ k a b, classOf s l = some k ∧ clKind s k = 3 ∧ clUnit s k = u ∧ (s.power.paddle = true → clEss s k = true) ∧
      servesNext s u l k = true ∧ laneReach s l 1 = (true, b) ∧ (laneSt b l).state = lsOpen ∧
      laneHead b l = (some m, a) ∧ t = unitCount (takeMsg (noteServed a u l k) l m true) u 0 1

/-- As EngineHead; and the request's response lane is open, of kind 4 and under the same consumer seal (12 R377). -/
def EngineTakes (s : State) (u l most : Nat) (m : Msg) (t : State) : Prop :=
  EngineHead s u l most m t ∧ rlaneOk t l (bits (m.words.getD 0 0) 15 0) = true

/-- The engines' own events: a response, a source that fails, a reseed (12 R376 to R381, R392 to R394; 14 R433). -/
def engineEventEffect : EventTable
  | .engineResponse unit lane, s =>
      let u := unit.toNat
      if platenCode unit || cipherCode unit || digestCode unit || compositorCode unit then
        (s.engines.jobs.find? fun j => j.unit == u && j.lane == lane).bind fun j =>
          let t := commitSlot { s with engines := { s.engines with jobs := s.engines.jobs.erase j } } j.commit
          if unitRuns s u ∧ responseHeld s u lane = false ∧ jobWaits s.engines.jobs j = false ∧ j.reject = none then
            let a := completeCount t u j.status
            let b := if j.op = 0o110 ∧ j.status = stCheck ∧ j.detail = dVerify then
              unitCount (logEvent 10 (unitSource u) a) u 8 1 else a
            some (putOrHold b u none (some lane) j.rlane.toNat (responseWords j)).2
          else none
      else none
  | .entropyFailure src, s =>
      let c := s.custody
      if src = 0 then
        whenever c.entropy0 (logEvent 6 (unnamedSource s) { s with custody := { c with entropy0 := false } })
      else whenever c.entropy1 (logEvent 6 (unnamedSource s) { s with custody := { c with entropy1 := false } })
  | .drbgReseed inst, s =>
      let i := inst.val
      let c := s.custody
      if 100000000 + smGet 0 c.reseedAt i ≤ s.time ∨ 65536 ≤ smGet 0 c.requests i then
        if c.entropy0 ∨ c.entropy1 then some (drbgReseed s i)
        else some { s with custody := { c with refusing := smSet false c.refusing i true } }
      else none
  | _, _ => none

end Sys2Proof.Machine
end

