-- ==== Sys2Proof/Safety/FrameEffects.lean ====
section
/-! DEFINITION. When an Irrix frame is accepted, what each request does and answers, and what the dictionary server does of
itself (17 R472 to R491, and the rules its entries cite). -/

namespace Sys2Proof.Machine

/-- The frame is accepted in session x, and the state is then a: it is for this module, and its tag and its counter verify
in a live session, or it comes by the mailbox, whose frames carry neither; and it repeats no frame of the last second (17
R472, R473, R481, R482, R485). -/
def Accepted (s : State) (f : Frame) (x : Session) (a : State) : Prop :=
  let c := trClassOf f.transport
  let b := frameCount s 1
  transportUp s f.transport = true ∧ frameForUs s f = true ∧ fFn f ≠ 9 ∧
    ((c = 3 ∧ x = s.irrix.mail ∧ a = b) ∨
      (c ≠ 3 ∧ ∃ y, findSession s c (fMgr f) = some y ∧
        (∀ r ∈ y.recent, r.1 = frameKey f → 1000000000 + r.2.2 < s.time) ∧
        (let ctr := fullCounter y.rxCount (be16 f.octets 54)
         ctr < 2 ^ 32 ∧ tagVerifies y f ctr = true ∧
          x = { y with rxCount := ctr, lastAt := s.time, tr := f.transport, peer := [] } ∧ a = putSession b x)))

/-- The answers to a request go out, each with the session's next counter, and are kept for a repeat (17 R482). -/
def answered (a : State) (f : Frame) (rs : Reply) : State :=
  let c := trClassOf f.transport
  let r := sendReplies c (fMgr f) f.transport [] (fSeq f) rs a
  if c = 3 then r.2
  else modSession r.2 c (fMgr f) fun x =>
    { x with recent := (frameKey f, r.1, r.2.time) :: x.recent.filter fun e => decide (r.2.time ≤ 1000000000 + e.2.2) }

/-- The frame is an expedited write of a value of a type to an entry (17 R475, R476). -/
abbrev WritesEntry (f : Frame) (i sub ty : Nat) (v : List Octet) : Prop :=
  fFn f = 3 ∧ fIndex f = i ∧ fSub f = sub ∧ fType f = ty ∧ fSeg f = false ∧ fLen f ≤ 48 ∧ fValue f = v

/-- A request that succeeds with an OK answer and leaves b. -/
def wroteOk (f : Frame) (b : State) : Option (Reply × State) := some ([(4, frameBody 128 (fIndex f) (fSub f) 0 [])], b)

/-- What an accepted write to a command entry does in session x (17 R487 and the rules that the entry cites): its answer and
the state. A session needs the operator role, bit 1, or the officer role, bit 2, or the observer role, bit 0. -/
def commandEffect (x : Session) (a : State) : Instr → Option (Reply × State)
  | .tbSet f =>
      let n := beNat (fValue f)
      if WritesEntry f 0x1203 0 7 (fValue f) ∧ fLen f = 9 ∧ x.roles.testBit 1 ∧ a.time ≤ n ∧ a.boot.laneOpened = false then
        wroteOk f { a with time := n, irrix := { a.irrix with tbShift := a.irrix.tbShift + (n - a.time) },
                           galley := { a.galley with shadow := a.counters } }
      else none
  | .steerSw f =>
      let b := steeringNow a
      if WritesEntry f 0x4011 0 1 [1] ∧ x.roles.testBit 1 then wroteOk f { b with eth := { b.eth with switchReq := some b.time } }
      else none
  | .image f =>
      let v := fValue f
      let o := smGet 0 x.sel (256 * 0x4002 + 1)
      let at_ := 0x4000000 * (1 - a.boot.setBooted) + o
      if WritesEntry f 0x4002 2 9 v ∧ v ≠ [] ∧ x.roles.testBit 1 ∧ a.boot.phase ≠ 4 ∧ o + v.length ≤ 0x4000000 then
        let flash := if o % 65536 = 0 then smClear a.boot.flash at_ (at_ + 65535) else a.boot.flash
        wroteOk f { a with boot := { a.boot with flash := smSetList 0xFF flash at_ v } }
      else none
  | .masterKeyGenerate f =>
      let r := drbgDraw a 0 32
      if WritesEntry f 0xA001 0 8 [1] ∧ x.roles.testBit 2 ∧ a.custody.mkState ≠ .present ∧ drbgRefuses a 0 = false then
        wroteOk f { r.2 with custody := { r.2.custody with mkState := .present, mkKey := r.1 } }
      else none
  | .masterKeyZeroise f =>
      if WritesEntry f 0xA001 0 8 [2] ∧ x.roles.testBit 2 then
        wroteOk f { a with custody := { a.custody with mkState := .zeroised, mkKey := [] } }
      else none
  | .rootkeyRevoke f =>
      let r := fSub f - 1
      if WritesEntry f 0x9001 (fSub f) 8 [1] ∧ x.roles.testBit 2 ∧ 1 ≤ fSub f ∧ fSub f ≤ 4 ∧ rootLive a r ∧
          ((List.range 4).any fun k => k != r && rootLive a k) then
        wroteOk f { a with boot := { a.boot with otp := smSet 0 a.boot.otp 0o40 (otpWord a 0o40 ||| flag r true) } }
      else none
  | .wayenoughWrite f =>
      let kind := smGet 0 x.sel (256 * 0xF001 + 1)
      let n := smGet 0 x.sel (256 * 0xF001 + 2)
      let r := acceptWay a kind n (some (trClassOf f.transport, fMgr f, fSeq f)) none []
      if WritesEntry f 0xF001 3 1 [1] ∧ x.roles.testBit 1 ∧ r.1 = 0 then wroteOk f r.2 else none
  | .paddleCommand f =>
      let v := fValue f
      if WritesEntry f 0xF002 0 1 v ∧ (v = [0] ∨ v = [1]) ∧ x.roles.testBit 1 then
        wroteOk f (triggersChanged { a with power := { a.power with commandT := v == [1] } })
      else none
  | .changeoverVerify f =>
      if WritesEntry f 0xF003 0 8 [1] ∧ x.roles.testBit 1 ∧ a.boot.phase ≠ 4 then
        wroteOk f { a with boot := { a.boot with standby := 1, phase := 1, armedAt := none, mhold := false } }
      else none
  | .changeoverSwitch f =>
      if WritesEntry f 0xF003 0 8 [2] ∧ x.roles.testBit 1 ∧ a.boot.phase ≠ 4 ∧ a.boot.standby = 2 then
        wroteOk f { a with boot := { a.boot with phase := 3, armedAt := some a.time } }
      else none
  | .changeoverDiscard f =>
      let t := clearStandby a
      if WritesEntry f 0xF003 0 8 [3] ∧ x.roles.testBit 1 ∧ a.boot.phase ≠ 4 then
        wroteOk f { t with boot := { t.boot with standby := 0, phase := 0, armedAt := none, mhold := false, keelNew := false,
                                                 strokeNew := false, bowNew := false, impNew := false, staged := [] } }
      else none
  | .proofRequest f =>
      let v := fValue f
      if WritesEntry f 0xF004 1 9 v ∧ v.length = 32 ∧ x.roles.testBit 0 ∧ a.boot.tampered = false ∧
          a.custody.identity ≠ none ∧ x.nonce = none then
        wroteOk f (modSession a (trClassOf f.transport) (fMgr f) fun x => { x with nonce := some v, sheet := [] })
      else none
  | .subst f =>
      if WritesEntry f 0xF005 0 2 (fValue f) ∧ fLen f = 1 ∧ x.roles.testBit 1 ∧ beNat (fValue f) ≤ 71 then
        wroteOk f (checkStop a (beNat (fValue f)))
      else none
  | .writeReq f =>
      match dictRow (fIndex f) with
      | some r =>
        if WritesEntry f (fIndex f) (fSub f) (rowType r (fSub f)) (fValue f) ∧ r.keeps ∧ r.lo ≤ fSub f ∧ fSub f ≤ r.hi ∧
            x.roles &&& r.role ≠ 0 ∧ typeOk (rowType r (fSub f)) (fValue f) ∧ lengthOk (fIndex f) (fSub f) (fValue f) ∧
            rangeOk a (fIndex f) (fSub f) (fValue f) then
          if Config.persistFails a.free then
            some ([(4, frameBody (128 + 12) (fIndex f) (fSub f) 0 [])], { a with free := a.free + 1 })
          else
            wroteOk f { a with free := a.free + 1, irrix := { a.irrix with
              values := smSet [] a.irrix.values (256 * fIndex f + fSub f) (fValue f) } }
        else none
      | none => none
  | .readReq f =>
      match dictRead a x (fIndex f) (fSub f) with
      | (.ok (ty, v), b) =>
        if fFn f = 1 ∧ fSeg f = false ∧ v.length ≤ 48 then some ([(2, frameBody 128 (fIndex f) (fSub f) ty v)], b) else none
      | _ => none
  | .segment f =>
      x.xfer.bind fun t =>
        let n := fIndex f
        let data := t.data ++ slice f.octets 4 (fSub f)
        if fFn f = 5 ∧ t.seq = fSeq f ∧ t.write = false ∧ fSub f = 0 ∧ t.next < n ∧ n ≤ t.next + 16 ∧ n = segments t.total then
          some ([], modSession a (trClassOf f.transport) (fMgr f) fun x => { x with xfer := none })
        else if fFn f = 5 ∧ t.seq = fSeq f ∧ t.write = true ∧ n = t.next ∧ 1 ≤ fSub f ∧ fSub f ≤ 50 ∧ data.length < t.total then
          some (if (n + 1) % 16 = 0 then [(5, segmentBody (n + 1) [])] else [],
            modSession a (trClassOf f.transport) (fMgr f) fun x =>
              { x with xfer := some { t with data := data, next := n + 1, since := a.time } })
        else none
  | .transferAbort f =>
      x.xfer.bind fun t =>
        if fFn f = 6 ∧ t.seq = fSeq f then
          some ([], modSession a (trClassOf f.transport) (fMgr f) fun x => { x with xfer := none })
        else none
  | .wayenough f =>
      let v := fValue f
      let r := acceptWay a (beNat (v.take 1)) (beNat (v.drop 1)) (some (trClassOf f.transport, fMgr f, fSeq f))
        (some f.transport) (frameKey f)
      if fFn f = 0 ∧ fIndex f = 0xF001 ∧ fSub f = 0 ∧ 1 ≤ fType f ∧ fType f ≤ 11 ∧ x.roles.testBit 1 ∧ v.length = 6 ∧ beNat (v.drop 1) < 2 ^ 36 ∧ r.1 = 0 then
        some ([], r.2)
      else none
  | _ => none

/-- The frame that a command of a request row carries. -/
def requestFrame : Instr → Option Frame
  | .readReq f | .writeReq f | .segment f | .transferAbort f | .wayenough f | .tbSet f | .steerSw f | .image f
  | .masterKeyGenerate f | .masterKeyZeroise f | .rootkeyRevoke f | .wayenoughWrite f | .paddleCommand f
  | .changeoverVerify f | .changeoverSwitch f | .changeoverDiscard f | .proofRequest f | .subst f => some f
  | _ => none

/-- The dictionary server's own events and the mirrors' deliveries (17 R472, R476, R480 to R485, R487 0x1103). -/
def frameEventEffect : EventTable
  | .authRequest f, s =>
      let a := frameCount s 1
      let d := slice f.octets 4 18
      let key := managerRecord a (octAt d 0)
      let c := trClassOf f.transport
      let r := drbgDraw a 3 32
      if transportUp s f.transport ∧ frameForUs s f ∧ c ≠ 3 ∧ fFn f = 9 ∧ fControl f = 1 ∧ key ≠ [] ∧
          octAt d 1 &&& octAt key 0 = octAt d 1 ∧ drbgRefuses a 3 = false then
        let b := dropAuth r.2 c (fMgr f)
        some (sendPlain { b with irrix := { b.irrix with
          auths := { transport := f.transport, mgr := fMgr f, record := octAt d 0, roles := octAt d 1, mnonce := d.drop 2,
                     dnonce := r.1, since := b.time } :: b.irrix.auths } } f [] 9 (authBody 2 0 r.1))
      else none
  | .authTimeout tr mgr, s =>
      (findAuth s (trClassOf tr) mgr.toNat).bind fun a =>
        whenever (1000000000 + a.since < s.time) (dropAuth s (trClassOf tr) mgr.toNat)
  | .sessionIdleTimeout tr mgr, s =>
      let c := trClassOf tr
      (findSession s c mgr.toNat).bind fun x =>
        whenever (c ≠ 3 ∧ 1000000000 * beNat (stored s 0x1102 0) + x.lastAt ≤ s.time)
          { s with irrix := { s.irrix with
            sessions := s.irrix.sessions.filter fun y => !(y.trClass == c && y.mgr == mgr.toNat) } }
  | .transferTimeout tr mgr, s =>
      let c := trClassOf tr
      let m := mgr.toNat
      (findSession s c m).bind fun x => x.xfer.bind fun t =>
        whenever (100000000 + t.since ≤ s.time)
          (sendReplies c m x.tr x.peer t.seq [(6, frameBody (128 + rTimeout) t.index t.sub 0 [])]
            (modSession s c m fun x => { x with xfer := none })).2
  | .heartbeat fp, s =>
      let period := beNat (stored s 0x1103 0)
      let body : List Octet := [0x80, 0, 0, 0, BitVec.ofNat 8 (deviceState s)] ++ beOctets 5 (paddleWord s.power).toNat
        ++ beOctets 9 (s.time - s.irrix.tbShift) ++ List.replicate 35 0
      whenever (s.pins.porN ∧ s.power.dropout = false ∧ portSilent s fp.val = false ∧ period ≠ 0 ∧
          1000000 * period + smGet 0 s.irrix.beats fp.val ≤ s.time)
        { s with free := s.free + 1, irrix := { s.irrix with
            out := { transport := .fieldPort fp,
                     ident := identOf 8 s.pins.node.toNat 255 ((Config.openWord s.free).toNat % 512),
                     octets := plainFrame body } :: s.irrix.out,
            beats := smSet 0 s.irrix.beats fp.val s.time } }
  | .busOff fp, s =>
      whenever (s.pins.porN ∧ s.power.dropout = false ∧ smGet false s.irrix.busOff fp.val = false)
        (frameCount { s with irrix := { s.irrix with busOff := smSet false s.irrix.busOff fp.val true } } 5)
  | .busOffRecovery fp, s =>
      some { s with irrix := { s.irrix with busOff := smSet false s.irrix.busOff fp.val false } }
  | .windowEventDrop, s =>
      (s.irrix.held.find? fun h => h.1 && decide (1000000 + h.2.1 ≤ s.time)).map fun h =>
        frameCount { s with irrix := { s.irrix with held := s.irrix.held.erase h } } 7
  | .rspHeadWrite head, s =>
      match s.irrix.held with
      | [] => whenever (hostReaches s) { s with irrix := { s.irrix with rspHead := head.toNat } }
      | [h] =>
        let a := { s with irrix := { s.irrix with rspHead := head.toNat, held := [] } }
        whenever (hostReaches s ∧ windowFull a.irrix = false)
          (sendFrame a h.1 { transport := .window, ident := beNat (h.2.2.take 4), octets := h.2.2.drop 4 })
      | _ => none
  | .mirrorNeighbour p target, s =>
      whenever (transportUp s (.udp p) ∧ (target = stored s 0x1105 2 ∨ target = stored s 0x1105 3))
        (modPort s p.val fun x => { x with neighbours := (target, stationMac s p.val) :: x.neighbours })
  | .dictionaryWindowRequest record, s =>
      let i := s.irrix
      whenever (hostReaches s ∧ record.length = 128 ∧ i.reqHead % 16 = i.reqTail % 16)
        (windowDrain 15 (arrive
          { s with irrix := { i with
            window := smSetList 0 i.window (128 * (i.reqTail % 16)) record, reqTail := (i.reqTail + 1) % 16,
            reqHead := (i.reqHead + 1) % 16 } }
          { transport := .window, ident := BitVec.ofNat 29 (leNat (slice record 0 4)), octets := slice record 4 64 } []))
  | .mirrorDatagram p src payload, s =>
      if transportUp s (.udp p) then
        if payload.length = 68 then
          some (arrive s { transport := .udp p, ident := BitVec.ofNat 29 (beNat (payload.take 4)), octets := payload.drop 4 } src)
        else some (frameCount s 6)
      else none
  | .mailboxSubmit q, s =>
      whenever (s.irrix.mailReq ∨ canIssue s q.val ∧ levelOf s q.val = .M)
        (arrive { s with irrix := { s.irrix with mailReq := false, mailDone := false, mailTaken := false, mailOut := [] } }
          (mailboxFrame s q) [])
  | _, _ => none

/-- The pending way-enough commands of a target are acted on (17 R491). -/
def acted (kind n : Nat) (t : State) : State :=
  { t with irrix := { t.irrix with way := t.irrix.way.map fun c =>
      if c.kind = kind ∧ c.number = n then { c with acted := true } else c } }

/-- A way-enough command of the target waits for its action. -/
abbrev WayPending (s : State) (kind n : Nat) : Prop :=
  s.pins.porN ∧ s.power.dropout = false ∧ ∃ c ∈ s.irrix.way, c.kind = kind ∧ c.number = n ∧ c.acted = false

/-- The pending way-enough of a target leaves t; where the module's units are off it finds nothing to end (16 R471). -/
def wayRuns (s : State) (kind n : Nat) (t : State) : Option State :=
  whenever (WayPending s kind n) (acted kind n (if dark s.power then s else t))

/-- A way-enough command that completes leaves the unit, which shows its status 2 and its elapsed time; the frame that brought
it is answered, and one of a WAYEN is acknowledged on the event lane (17 R475, R487, R491; 09 R275). -/
def wayCompleted (t : State) (d : WayCmd) : State :=
  let n := (t.time - d.at_) % 2 ^ 36
  let t := { t with irrix := { t.irrix with way := t.irrix.way.erase d, wayStat := 2, wayTime := n } }
  match d.by_, d.tr with
  | some (k, m, seq), some tr =>
    wayAnswer t k m seq tr d.key (frameBody 128 0xF001 0 9 (beOctets 1 d.kind ++ beOctets 5 d.number ++ beOctets 1 2 ++ beOctets 5 n))
  | none, _ => if dark t.power then t else eventMessage t 1 [d.kind, d.number, 2, t.time - d.at_]
  | _, _ => t

/-- What each kind of way-enough does (17 R490; 09 R292, R314; 12 R384, R388, R391; 13 R414;
07 R237). -/
def wayEffect : EventTable
  | .wayenoughLane lane, s => wayRuns s 1 lane.toNat (wayLane s lane.toNat)
  | .wayenoughJob n, s => wayRuns s 2 n.toNat (wayJobs s n.toNat)
  | .wayenoughPlaten n, s => wayRuns s 3 n.toNat (wayJobs s n.toNat)
  | .wayenoughChannel ch, s => wayRuns s 4 ch.val (channelAbort s ch.val)
  | .wayenoughCompartment v, s =>
      let t := (liveLanes s).foldl (fun t l => (laneReach t l 2).2) s
      wayRuns s 5 v.toNat
        (((liveLanes t).filter fun l => descReads t l 2 && capSeal (laneGate t l) == v.toNat).foldl
          (fun t l => endActivation t l stAborted) t)
  | .wayenoughCrew x, s =>
      wayRuns s 6 x.val
        (((liveLanes s).filter fun l => (liveSeats s l).any (seatBeneath x.val)).foldl
          (fun t l => endActivation t l stAborted) s)
  | .wayenoughDevice, s =>
      let a := (liveLanes s).foldl (fun t l => endActivation t l stAborted) s
      let b := (List.range 1024).foldl channelAbort a
      let c := (b.lanes.held.filter fun h => (isPlaten h.unit || isCipher h.unit || isDigest h.unit) && !heldCustody h).foldl
        abortHeldResponse b
      let d := (c.engines.jobs.filter fun j => !j.custody).foldl wayJob c
      wayRuns s 7 0 d
  | .wayenoughComplete, s =>
      (s.irrix.way.find? fun c => c.acted && (dark s.power || !wayWaits s c.kind c.number)).bind fun c =>
        let t := if s.boot.tampered ∧ c.kind = 7 then { settleAll s with power := { s.power with offAll := true } } else s
        whenever (s.pins.porN ∧ s.power.dropout = false)
          ((s.irrix.way.filter fun d => d.acted && d.kind == c.kind && d.number == c.number).foldl wayCompleted t)
  | _, _ => none

end Sys2Proof.Machine
end

