-- ==== Sys2Proof/Safety/Invariants.lean ====
section
/-! DEFINITION. What every step keeps of the capabilities that the block holds (02 R31, R33 to R35), and the events that change
a seat's level or side (03 R86). -/

namespace Sys2Proof.Machine

/-- A tagged value is a capability that 02 allows: BASE at most LAST (R31), no number right beside a memory right (R34), WR and
EX together only with SY (R35), and the reserved bits zero (R29). -/
def CapSound (c : Cap) : Prop :=
  c.tag = true →
    capBase c ≤ capLast c ∧ (hasNumberRight c && hasMemoryRight c) = false ∧
      (holds (capRights c) (rWR + rEX) = true → holds (capRights c) rSY = true) ∧ bits c.w3 3 0 = 0

/-- A bank's PCC, tagged, holds EX too (R33), and its capability registers are sound. -/
def BankSound (b : Bank) : Prop :=
  CapSound b.pcc ∧ (b.pcc.tag = true → holds (capRights b.pcc) rEX = true) ∧ ∀ e ∈ b.c, CapSound e.2

/-- The capabilities of a save set (07 R217). -/
def SetSound (v : SaveSet) : Prop := CapSound v.pcc ∧ CapSound v.granB

/-- Granule g of a seat's stick with its tag (06 R208). -/
def stickGranule (x : Seat) (g : Nat) : Cap :=
  { w0 := smGet 0 x.stick (4 * g), w1 := smGet 0 x.stick (4 * g + 1), w2 := smGet 0 x.stick (4 * g + 2),
    w3 := smGet 0 x.stick (4 * g + 3), tag := smGet false x.stickTag g }

/-- Every capability that a seat holds. -/
def SeatSound (x : Seat) : Prop :=
  (∀ e ∈ x.banks, BankSound e.2) ∧ SetSound x.svStroke ∧ SetSound x.svBow ∧ SetSound x.svM ∧
    ∀ g, CapSound (stickGranule x g)

/-- An output that a pair buffer holds back (08 R266): a plain store has no tag and stays in one granule, a granule store fills
its own, and the tagged granules of a message are whole and sound. -/
def OutSound (o : PairOut) : Prop :=
  (o.kind = 0 → o.tags = [] ∧ o.addr % 4 + o.words.length ≤ 4) ∧
    (o.kind = 1 → o.addr % 4 = 0 ∧ o.words.length = 4 ∧ o.tags.length ≤ 1) ∧
    (o.kind = 1 ∨ o.kind = 2 → ∀ i, o.tags.getD i false = true → 4 * i + 4 ≤ o.words.length ∧ CapSound (granuleOf o.words i true))

/-- Granule g of case or bulk with its stored tag, poisoned or not. -/
def storedGranule (m : Mem) (g : Nat) : Cap := { memCap m (4 * g) with tag := smGet false m.tags g }

/-- Every capability that the block holds is sound: those of the seats, the trap vectors, memory, and the outputs that pair
buffers hold back; and a staged image whose code capability a switch would make (18 R498, R514) lies in case. -/
def CapsSound (s : State) : Prop :=
  (∀ e ∈ s.seats, SeatSound e.2) ∧ (∀ e ∈ s.sys.vectors, CapSound e.2) ∧ (∀ g, CapSound (storedGranule s.mem g)) ∧
    (∀ e ∈ s.coxes, ∀ p ∈ e.2.pairs, ∀ o ∈ p.2.outA ++ p.2.outB ++ p.2.outR, OutSound o) ∧
    ∀ e ∈ s.boot.staged, e.kind ≠ 4 → hLoad e.header + hWords e.header ≤ caseEnd

/-- The commands and entries that may change the level or the side of a seat that runs before and after (03 R86): CINVOKE, RET and
END of the seat; a trap to S, or to M; a switch to another bank, whose STATUS counts from then on (04 R119, R120); and the resets
of the block. x is the seat before, y after. -/
def LevelEvent (c : Instr) (q : SeatNo) (x y : Seat) : Prop :=
  (∃ ca cb, c = .cinvoke q ca cb) ∨ c = .ret q ∨ c = .endAct q ∨
    (y.status.lvl = .S ∧ y.status.side = x.status.side ∧ y.status.bank = x.status.bank ∧ x.status.lvl ≠ .M ∧
      occupied (saveSet y (sideSet y.status.side)) = true) ∨
    (y.status.lvl = .M ∧ y.status.side = x.status.side ∧ y.status.bank = 8 ∧ occupied y.svM = true) ∨
    (y.status.bank < 8 ∧ y.status.bank ≠ x.status.bank ∧ (getBank y y.status.bank).st = .running) ∨
    c = .porAssert ∨ c = .dropout ∨ ∃ node en0 en1, c = .porRelease node en0 en1

end Sys2Proof.Machine
end

