-- ==== Sys2Proof/Safety/SeatResults.lean ====
section
/-! DEFINITION. The results of seat instructions as 05 states them, in numbers: tables from an instruction to its effect,
which the claims compare with the machine. -/

namespace Sys2Proof.Machine

/-- w[rd] takes a value computed from the word registers. -/
def writesW (q : SeatNo) (rd : Reg) (v : (Reg → Word) → Word) : Option (SeatNo × (State → Option State)) :=
  some (q, fun s => some (wSet s q.val rd.toNat (v fun r => wGet s q.val r.toNat)))

/-- 1 if the proposition holds, else 0. -/
def oneIf (p : Prop) [Decidable p] : Word := if p then 1 else 0

/-- The integer and half-word instructions of R143 whose results are one word register. -/
def integerResult : EffectTable
  | .add q rd ra rb => writesW q rd fun w => BitVec.ofNat 36 ((w ra).toNat + (w rb).toNat)
  | .sub q rd ra rb => writesW q rd fun w => BitVec.ofInt 36 ((w ra).toInt - (w rb).toInt)
  | .and q rd ra rb => writesW q rd fun w => w ra &&& w rb
  | .or q rd ra rb => writesW q rd fun w => w ra ||| w rb
  | .xor q rd ra rb => writesW q rd fun w => w ra ^^^ w rb
  | .andn q rd ra rb => writesW q rd fun w => w ra &&& ~~~(w rb)
  | .slt q rd ra rb => writesW q rd fun w => oneIf ((w ra).toInt < (w rb).toInt)
  | .sltu q rd ra rb => writesW q rd fun w => oneIf ((w ra).toNat < (w rb).toNat)
  | .min q rd ra rb => writesW q rd fun w => if (w ra).toInt ≤ (w rb).toInt then w ra else w rb
  | .max q rd ra rb => writesW q rd fun w => if (w ra).toInt ≤ (w rb).toInt then w rb else w ra
  | .minu q rd ra rb => writesW q rd fun w => if (w ra).toNat ≤ (w rb).toNat then w ra else w rb
  | .maxu q rd ra rb => writesW q rd fun w => if (w ra).toNat ≤ (w rb).toNat then w rb else w ra
  | .clz q rd ra => writesW q rd fun w => BitVec.ofNat 36 (36 - (w ra).toNat.size)
  | .popc q rd ra => writesW q rd fun w => BitVec.ofNat 36 ((List.range 36).countP fun k => (w ra).getLsbD k)
  | .addco q rd ra rb => writesW q rd fun w => oneIf (2 ^ 36 ≤ (w ra).toNat + (w rb).toNat)
  | .mul q rd ra rb => writesW q rd fun w => BitVec.ofNat 36 ((w ra).toNat * (w rb).toNat)
  | .mulh q rd ra rb => writesW q rd fun w => BitVec.ofInt 36 ((w ra).toInt * (w rb).toInt / 2 ^ 36)
  | .mulhu q rd ra rb => writesW q rd fun w => BitVec.ofNat 36 ((w ra).toNat * (w rb).toNat / 2 ^ 36)
  | .hswap q rd ra => writesW q rd fun w => BitVec.ofNat 36 ((w ra).toNat % 2 ^ 18 * 2 ^ 18 + (w ra).toNat / 2 ^ 18)
  | .hadd q rd ra rb => writesW q rd fun w =>
      BitVec.ofNat 36 (((w ra).toNat / 2 ^ 18 + (w rb).toNat / 2 ^ 18) % 2 ^ 18 * 2 ^ 18
        + ((w ra).toNat + (w rb).toNat) % 2 ^ 18)
  | .hsub q rd ra rb => writesW q rd fun w =>
      BitVec.ofNat 36 (((w ra).toNat / 2 ^ 18 + 2 ^ 18 - (w rb).toNat / 2 ^ 18) % 2 ^ 18 * 2 ^ 18
        + ((w ra).toNat % 2 ^ 18 + 2 ^ 18 - (w rb).toNat % 2 ^ 18) % 2 ^ 18)
  | .hjoin q rd ra rb => writesW q rd fun w => BitVec.ofNat 36 ((w ra).toNat % 2 ^ 18 * 2 ^ 18 + (w rb).toNat % 2 ^ 18)
  | .hsx0 q rd ra => writesW q rd fun w => BitVec.ofInt 36 (BitVec.ofNat 18 (w ra).toNat).toInt
  | .hsx1 q rd ra => writesW q rd fun w => BitVec.ofInt 36 (BitVec.ofNat 18 ((w ra).toNat / 2 ^ 18)).toInt
  | _ => none

/-- a shifted left by n places: n of 36 or more leaves 0 (R144). -/
def leftBy (a : Word) (n : Nat) : Word := BitVec.ofNat 36 (2 ^ n * a.toNat)

/-- a shifted right by n places, zeros entering (R144). -/
def rightBy (a : Word) (n : Nat) : Word := BitVec.ofNat 36 (a.toNat / 2 ^ n)

/-- a shifted right by n places, copies of bit 35 entering (R144). -/
def arithBy (a : Word) (n : Nat) : Word := BitVec.ofInt 36 (a.toInt / 2 ^ n)

/-- a rotated left by n places modulo 36 (R144). -/
def rotBy (a : Word) (n : Nat) : Word := BitVec.ofNat 36 (a.toNat * 2 ^ (n % 36) + a.toNat / 2 ^ (36 - n % 36))

/-- Shifts and rotations (R143, R144): the count is w[rb] bits 5-0, or aux. -/
def shiftResult : EffectTable
  | .sll q rd ra rb => writesW q rd fun w => leftBy (w ra) ((w rb).toNat % 64)
  | .srl q rd ra rb => writesW q rd fun w => rightBy (w ra) ((w rb).toNat % 64)
  | .sra q rd ra rb => writesW q rd fun w => arithBy (w ra) ((w rb).toNat % 64)
  | .rol q rd ra rb => writesW q rd fun w => rotBy (w ra) ((w rb).toNat % 64)
  | .slla q rd ra aux => writesW q rd fun w => leftBy (w ra) aux.toNat
  | .srla q rd ra aux => writesW q rd fun w => rightBy (w ra) aux.toNat
  | .sraa q rd ra aux => writesW q rd fun w => arithBy (w ra) aux.toNat
  | .rola q rd ra aux => writesW q rd fun w => rotBy (w ra) aux.toNat
  | _ => none

/-- Bit fields (R146): the field at pos of width aux + 1. -/
def fieldResult : EffectTable
  | .extu q rd ra pos aux => writesW q rd fun w =>
      BitVec.ofNat 36 ((w ra).toNat / 2 ^ pos.toNat % 2 ^ (aux.toNat + 1))
  | .exts q rd ra pos aux => writesW q rd fun w =>
      BitVec.ofInt 36 (BitVec.ofNat (aux.toNat + 1) ((w ra).toNat / 2 ^ pos.toNat)).toInt
  | .ins q rd ra pos aux => writesW q rd fun w =>
      let m := BitVec.ofNat 36 (2 ^ (aux.toNat + 1) - 1)
      (w rd &&& ~~~(m <<< pos.toNat)) ||| ((w ra &&& m) <<< pos.toNat)
  | _ => none

/-- Immediates (R148, R149). -/
def immediateResult : EffectTable
  | .addi q rd ra imm => writesW q rd fun w => BitVec.ofInt 36 ((w ra).toInt + imm.toInt)
  | .andi q rd ra imm => writesW q rd fun w => w ra &&& imm.signExtend 36
  | .ori q rd ra imm => writesW q rd fun w => w ra ||| imm.signExtend 36
  | .xori q rd ra imm => writesW q rd fun w => w ra ^^^ imm.signExtend 36
  | .slti q rd ra imm => writesW q rd fun w => oneIf ((w ra).toInt < imm.toInt)
  | .sltiu q rd ra imm => writesW q rd fun w => oneIf ((w ra).toNat < (imm.signExtend 36).toNat)
  | .lih q rd ra imm => writesW q rd fun w => BitVec.ofNat 36 (imm.toNat % 2 ^ 18 * 2 ^ 18 + (w ra).toNat % 2 ^ 18)
  | .muli q rd ra imm => writesW q rd fun w => BitVec.ofInt 36 ((w ra).toInt * imm.toInt)
  | .li q rd imm => writesW q rd fun _ => imm
  | .addl q rd ra imm => writesW q rd fun w => BitVec.ofNat 36 ((w ra).toNat + imm.toNat)
  | .andl q rd ra imm => writesW q rd fun w => w ra &&& imm
  | .orl q rd ra imm => writesW q rd fun w => w ra ||| imm
  | .xorl q rd ra imm => writesW q rd fun w => w ra ^^^ imm
  | _ => none

/-- The 9-bit slot k of a word (R150). -/
def slotAt (a : Word) (k : Nat) : Nat := a.toNat / 2 ^ (9 * k) % 512

/-- The number of presence bits set (R150). -/
def presentCount (a : Word) : Nat := (List.range 4).countP fun k => 256 ≤ slotAt a k

/-- Prefix form (00 R6): the present slots come first and every absent slot is 0. -/
def isPrefix (a : Word) : Bool :=
  (List.range 4).all fun k => if k < presentCount a then 256 ≤ slotAt a k else slotAt a k == 0

/-- Packed octets (R150). -/
def octetResult : EffectTable
  | .opack q rd ra aux => writesW q rd fun w =>
      BitVec.ofNat 36 ((List.range aux.toNat).map fun k =>
        (256 + (w ra).toNat / 2 ^ (8 * (aux.toNat - 1 - k)) % 256) * 2 ^ (9 * k)).sum
  | .ounpk q rd ra => writesW q rd fun w =>
      BitVec.ofNat 36 ((List.range 4).foldl
        (fun v k => if 256 ≤ slotAt (w ra) k then 256 * v + slotAt (w ra) k % 256 else v) 0)
  | .oget q rd ra rb aux => writesW q rd fun w => BitVec.ofNat 36 (slotAt (w ra) (((w rb).toNat + aux.toNat) % 4))
  | .oput q rd ra rb aux => writesW q rd fun w =>
      let k := ((w rb).toNat + aux.toNat) % 4
      BitVec.ofNat 36 ((w rd).toNat - slotAt (w rd) k * 2 ^ (9 * k) + slotAt (w ra) 0 * 2 ^ (9 * k))
  | .ocnt q rd ra => writesW q rd fun w =>
      BitVec.ofNat 36 (presentCount (w ra) + if isPrefix (w ra) then 8 else 0)
  | _ => none

/-- MULD, and the divisions by a divisor that is not zero (R143, R145, R147). -/
def wideProductResult : EffectTable
  | .muld q rd ra rb => some (q, fun s =>
      let p := (wGet s q.val ra.toNat).toNat * (wGet s q.val rb.toNat).toNat
      some (wSet (wSet s q.val rd.toNat (BitVec.ofNat 36 p)) q.val (rd.toNat + 1) (BitVec.ofNat 36 (p / 2 ^ 36))))
  | _ => none

/-- The quotient or remainder of two words; none for a zero divisor (R145). -/
def divides (q : SeatNo) (rd ra rb : Reg) (v : Word → Word → Word) : Option (SeatNo × (State → Option State)) :=
  some (q, fun s =>
    if wGet s q.val rb.toNat = 0 then none
    else some (wSet s q.val rd.toNat (v (wGet s q.val ra.toNat) (wGet s q.val rb.toNat))))

/-- DIV, DIVU, REM and REMU (R145). -/
def divisionResult : EffectTable
  | .div q rd ra rb => divides q rd ra rb fun a b => BitVec.ofInt 36 (a.toInt.tdiv b.toInt)
  | .divu q rd ra rb => divides q rd ra rb fun a b => BitVec.ofNat 36 (a.toNat / b.toNat)
  | .rem q rd ra rb => divides q rd ra rb fun a b => BitVec.ofInt 36 (a.toInt.tmod b.toInt)
  | .remu q rd ra rb => divides q rd ra rb fun a b => BitVec.ofNat 36 (a.toNat % b.toNat)
  | _ => none

end Sys2Proof.Machine
end

