-- ==== Sys2Proof/Safety/SeatEffects.lean ====
section
/-! DEFINITION. The effects of the seat's capability, memory, control, wide and system-word instructions, and the conditions
under which 02, 03, 05 and 07 let them complete. -/

namespace Sys2Proof.Machine

/-- The effect f under a condition. -/
def onlyIf (q : SeatNo) (c : State → Bool) (f : State → State) : Option (SeatNo × (State → Option State)) :=
  some (q, fun s => if c s then some (f s) else none)

/-- w[rd] takes a part of c[ca], whatever the capability is (R160). -/
def readsCap (q : SeatNo) (rd ca : Reg) (f : Cap → Word) : Option (SeatNo × (State → Option State)) :=
  some (q, fun s => some (wSet s q.val rd.toNat (f (cGet s q.val ca.toNat))))

/-- The rights that the bits of a CTEST's aux ask for (R161). -/
def auxRights (aux : Reg) : Nat :=
  [(4, rRD), (3, rWR), (2, rEX), (1, rRC), (0, rWC)].foldl (fun n b => if aux.getLsbD b.1 then n ||| b.2 else n) 0

/-- The access that CTEST tries (R161). -/
def testAccess (c : Cap) (n : Nat) (aux : Reg) : Access :=
  { cap := c, ea := (capCursor c : Int), n := max n 1, need := auxRights aux,
    align := if n = 2 ∨ n = 4 ∨ n = 8 then n else 1 }

/-- The instructions that read a capability register as data, move one or test one (R160, R161). -/
def capReadEffect : EffectTable
  | .cgetc q rd ca => readsCap q rd ca Cap.w0
  | .cgetb q rd ca => readsCap q rd ca Cap.w1
  | .cgetl q rd ca => readsCap q rd ca Cap.w2
  | .cgetp q rd ca => readsCap q rd ca Cap.w3
  | .cgett q rd ca => readsCap q rd ca fun c => oneIf (c.tag = true)
  | .cmov q rd ca => some (q, fun s => some (cSet s q.val rd.toNat (cGet s q.val ca.toNat)))
  | .ctest q rd ca rb aux => some (q, fun s =>
      let a := testAccess (cGet s q.val ca.toNat) (wGet s q.val rb.toNat).toNat aux
      let fails := fun k => (stepFail (levelOf s q.val) (sideOf s q.val) a k).isSome
      some (wSet s q.val rd.toNat (BitVec.ofNat 36 (([1, 2, 3, 4, 5, 6].find? fails).getD 0))))
  | _ => none

/-- May the instruction derive from a capability here: outside ring mode, from a tagged, unsealed capability of the
seat's side (03 R103, 02 R44)? -/
def derivable (s : State) (q : SeatNo) (c : Cap) : Bool :=
  !inRing s q.val && c.tag && capSeal c == 0 && sideUsable (levelOf s q.val) (sideOf s q.val) c

/-- c[rd] takes n, derived from c[ca], when n is a legal derivation (02 R44, R45). -/
def derivesTo (q : SeatNo) (rd ca : Reg) (legal : Cap → Cap → Bool) (n : State → Cap → Cap) :
    Option (SeatNo × (State → Option State)) :=
  onlyIf q (fun s => let c := cGet s q.val ca.toNat; derivable s q c && legal c (n s c))
    fun s => cSet s q.val rd.toNat { n s (cGet s q.val ca.toNat) with tag := true }

/-- CSETB's legality: the new LAST does not pass 2^36 - 1, and R45. -/
def boundsLegal (w : Word) (cs n : Cap) : Bool := decide (capCursor cs + w.toNat < 2 ^ 36) && capLegal cs n

/-- A capability with BASE the cursor and LAST the cursor plus w (02 R45, R47). -/
def boundedTo (c : Cap) (w : Word) : Cap := { c with w1 := c.w0, w2 := c.w0 + w }

/-- The derivations (02 R45 to R47, 05 R160). -/
def deriveEffect : EffectTable
  | .cinc q rd ca rb => derivesTo q rd ca (fun _ _ => true) fun s c => { c with w0 := c.w0 + wGet s q.val rb.toNat }
  | .cinci q rd ca imm => derivesTo q rd ca (fun _ _ => true) fun _ c => { c with w0 := c.w0 + imm.signExtend 36 }
  | .csetb q rd ca rb => some (q, fun s =>
      let c := cGet s q.val ca.toNat
      let w := wGet s q.val rb.toNat
      if derivable s q c && boundsLegal w c (boundedTo c w) then
        some (cSet s q.val rd.toNat { boundedTo c w with tag := true }) else none)
  | .csetbi q rd ca imm => some (q, fun s =>
      let c := cGet s q.val ca.toNat
      let w := imm.signExtend 36
      if derivable s q c && boundsLegal w c (boundedTo c w) then
        some (cSet s q.val rd.toNat { boundedTo c w with tag := true }) else none)
  | .candr q rd ca rb => derivesTo q rd ca capLegal fun s c =>
      capSetRights c (capRights c &&& (wGet s q.val rb.toNat).toNat / 2 ^ 8 % 2 ^ 12)
  | .cclg q rd ca => derivesTo q rd ca capLegal fun _ c => capSetGlobal c false
  | _ => none

/-- What CSEAL asks of a capability cs and a sealing capability ck (02 R59, R62, 07 R548). -/
def mayBeSealed (s : State) (q : SeatNo) (cs ck : Cap) : Bool :=
  let lvl := levelOf s q.val
  let side := sideOf s q.val
  let v := capCursor ck
  !inRing s q.val && cs.tag && ck.tag && capSeal cs == 0 && capSeal ck == 0 && sideUsable lvl side cs
    && sideUsable lvl side ck && holds (capRights ck) rSE && decide (capBase ck ≤ v) && decide (v ≤ capLast ck)
    && decide (1 ≤ v) && decide (v ≤ 65535) && sealAllowed lvl side false v && sealIsLive s v

/-- What CUNSEAL asks (02 R60, R62, 07 R548). -/
def mayUnseal (s : State) (q : SeatNo) (cs ck : Cap) : Bool :=
  let lvl := levelOf s q.val
  let side := sideOf s q.val
  let v := capCursor ck
  !inRing s q.val && cs.tag && ck.tag && capSeal cs != 0 && capSeal ck == 0 && sideUsable lvl side cs
    && sideUsable lvl side ck && holds (capRights ck) rUS && decide (capBase ck ≤ v) && decide (v ≤ capLast ck)
    && v == capSeal cs && sealAllowed lvl side true v && sealIsLive s v

/-- CSEAL and CUNSEAL (02 R59, R60). -/
def sealEffect : EffectTable
  | .cseal q rd ca cb =>
      onlyIf q (fun s => mayBeSealed s q (cGet s q.val ca.toNat) (cGet s q.val cb.toNat))
        fun s => cSet s q.val rd.toNat (capSetSeal (cGet s q.val ca.toNat) (capCursor (cGet s q.val cb.toNat)))
  | .cunseal q rd ca cb =>
      onlyIf q (fun s => mayUnseal s q (cGet s q.val ca.toNat) (cGet s q.val cb.toNat))
        fun s =>
          let cs := cGet s q.val ca.toNat
          cSet s q.val rd.toNat (capSetGlobal (capSetSeal cs 0) (capGlobal cs && capGlobal (cGet s q.val cb.toNat)))
  | _ => none

/-- What CINVOKE asks of a gate pair (02 R61, 03 R94, 07 R548). crossing: the sides differ and the seat is not at M. -/
def gateOpens (s : State) (q : SeatNo) (ca cb : Cap) : Bool :=
  let t := statusOfSeat s q.val
  let v := capSeal ca
  let crossing := t.lvl != .M && capSide ca != t.side
  let sided := fun c => v == crossSeal || sideUsable t.lvl t.side c
  !inRing s q.val && ca.tag && cb.tag && v != 0 && capSeal cb == v
    && (!crossing || crossingForm t (curBank (getSeat s q.val)) ca cb) && sided ca && sided cb
    && holds (capRights ca) (rGT + rEX) && holds (capRights cb) rGT && !holds (capRights cb) rEX && sealIsLive s v
    && decide (capBase ca ≤ capCursor ca) && decide (capCursor ca ≤ capLast ca)

/-- The bank in use of seat q changes by f, and its STATUS by g. -/
def withStatus (s : State) (q : SeatNo) (g : Status → Status) (f : Bank → Bank) : State :=
  modSeat s q.val fun x => { modBank x x.status.bank f with status := g x.status }

/-- CINVOKE by its four cases: at M (03 R100), a call (R90), a crossing into bow side and one back (R96). -/
def invoked (s : State) (q : SeatNo) (ca cb : Cap) : State :=
  let t := statusOfSeat s q.val
  if t.lvl = .M then
    withStatus s q (fun t => { t with side := capSide ca }) fun b =>
      { nullRegs (enterPair b ca cb) [12, 13] with ctx := mkCtx (capSeal ca) (ctxMap b) }
  else if capSide ca = t.side then modCur s q.val fun b => callBank b ca cb
  else if t.side then
    withStatus s q
      (fun t => { t with side := false, wideOn := false,
                         lvl := if bit (curBank (getSeat s q.val)).xctx 9 then Level.S else Level.U })
      fun b => crossBack b ca cb
  else withStatus s q (fun t => { t with side := true, lvl := .U, wideOn := false }) fun b => crossIn b t ca cb

/-- The conditions a branch names (04 R132), on numbers. -/
def branchTaken (cond : BitVec 4) (a b : Word) : Bool :=
  match cond.toNat with
  | 0 => decide (a = b)
  | 1 => decide (a ≠ b)
  | 2 => decide (a.toInt < b.toInt)
  | 3 => decide (b.toInt ≤ a.toInt)
  | 4 => decide (a.toNat < b.toNat)
  | 5 => decide (b.toNat ≤ a.toNat)
  | 6 => decide (a &&& b ≠ 0)
  | 7 => decide (a &&& b = 0)
  | _ => true

/-- What a CALLG asks: the target, its physical word and the gate region that covers it (03 R106); the state after the
target's translation. -/
def gateEntry (s : State) (q : SeatNo) (ra : Reg) (imm : BitVec 19) : Option (Nat × Region × State) :=
  let a := callgAccess s q.val ra imm
  if (boundsFail a).isSome then none
  else
    match translateSpan q.val .fetch false 2 s a.ea.toNat 1 with
    | .ok (r :: _, s) =>
      match gateRegion s r.pa with
      | .ok g =>
        if g.gate && (r.pa - g.start) % 16 == 0 && decide (g.ringlim ≤ (statusOfSeat s q.val).ring.toNat) then
          some (a.ea.toNat, g, s)
        else none
      | _ => none
    | _ => none

/-- The instructions that place the seat's next address (05 R162, R170, 02 R61). -/
def jumpEffect : EffectTable
  | .b q cond ra rb disp => some (q, fun s =>
      if branchTaken cond (wGet s q.val ra.toNat) (wGet s q.val rb.toNat) then
        some (goOn q.val (BitVec.ofInt 36 ((pcOf s q.val : Int) + disp.toInt)).toNat s)
      else some (nextInstr q.val 1 s))
  | .j q ra imm => some (q, fun s => some (goOn q.val (wGet s q.val ra.toNat + imm.signExtend 36).toNat s))
  | .jal q rd ra imm => some (q, fun s =>
      some (goOn q.val (wGet s q.val ra.toNat + imm.signExtend 36).toNat
        (wSet s q.val rd.toNat (BitVec.ofNat 36 (pcOf s q.val + 1)))))
  | .cinvoke q ca cb => some (q, fun s =>
      let a := cGet s q.val ca.toNat
      let b := cGet s q.val cb.toNat
      if gateOpens s q a b then some (goOn q.val (capCursor a) (invoked s q a b)) else none)
  | .callg q ra imm => some (q, fun s =>
      let t := statusOfSeat s q.val
      if t.lvl = .U ∧ t.ringMode then
        (gateEntry s q ra imm).map fun e => goOn q.val e.1 (callGate e.2.2 q.val e.2.1.ringlim)
      else none)
  | _ => none

/-- RET and END, by level (05 R164, R165, 07 R230, R231, 03 R108). -/
def leaveEffect : EffectTable
  | .ret q => some (q, fun s =>
      let x := getSeat s q.val
      match x.status.lvl with
      | .M =>
        if !occupied x.svM || (saveBank x.svM == 8 && !x.svM.pcc.tag) then some (releaseSeat (dropProgress s q.val) q.val)
        else if returnFail x true x.svM = 0 then some (returnPass (dropProgress s q.val) q.val true x.svM 2) else none
      | .S =>
        let v := if x.status.side then x.svBow else x.svStroke
        if returnFail x false v = 0 then some (returnPass (dropProgress s q.val) q.val false v (if x.status.side then 1 else 0)) else none
      | .U =>
        let b := curBank x
        let d := ringDepth b.ringLink
        let fr := ringFrame b.ringLink (d - 1)
        if x.status.ringMode ∧ 1 ≤ d ∧ fr.2 ≤ fr.1 then
          some (goOn q.val (wGet s q.val 31).toNat (flip reloadCode q.val
            (withStatus s q (fun t => { t with ring := BitVec.ofNat 2 fr.1 })
              fun b => { b with ringLink := (b.ringLink &&& 0o7777) ||| field 12 (d - 1) })))
        else none)
  | .endAct q => some (q, fun s =>
      let x := getSeat s q.val
      if x.status.lvl = .M then
        if occupied x.svM ∧ saveBank x.svM ≠ 8 then
          some (endAtM (seatCount (modSeat (dropProgress s q.val) q.val fun x => dropWide x (saveBank x.svM)) q.val 123) q.val (saveBank x.svM))
        else none
      else some (endRunning (seatCount (modSeat s q.val fun x => dropWide x x.status.bank) q.val 123) q.val x.status.bank))
  | _ => none

/-- Drops the TLB and walk-cache entries that two tests name, and records the time a MAPSYNC took, at most 1 us, a free
value (05 R168, 10 R349, R350; log 5). -/
def mapsynced (s : State) (q : SeatNo) (t : TlbEntry → Bool) (w : WalkEntry → Bool) : State :=
  mapsyncTook (modSeat s q.val fun x =>
    { x with tlb := x.tlb.filter fun e => !t e, walks := x.walks.filter fun e => !w e }) q.val

/-- The synchronising instructions (05 R166 to R168, 02 R67), at the levels R162 permits. -/
def syncEffect : EffectTable
  | .synci q => some (q, fun s => some (reloadCode s q.val))
  | .fenceFull q | .fenceAcquire q | .fenceRelease q => some (q, some)
  | .fencew q => onlyIf q (fun s => levelOf s q.val != .U && !fenceAwaits s q.val) id
  | .sealsync q => onlyIf q (fun s => levelOf s q.val == .M && !(s.engines.jobs.any fun j => j.sealWaits.contains q.val)) id
  | .mapsyncAll q => onlyIf q (fun s => levelOf s q.val != .U) fun s => mapsynced s q (fun _ => true) fun _ => true
  | .mapsyncMap q ra => onlyIf q (fun s => levelOf s q.val != .U) fun s =>
      let m := (wGet s q.val ra.toNat).toNat % 256
      mapsynced s q (fun e => e.map == m && !e.glob) fun w => w.map == m
  | .mapsyncPage q ra rb => onlyIf q (fun s => levelOf s q.val != .U) fun s =>
      let m := (wGet s q.val ra.toNat).toNat % 256
      let v := (wGet s q.val rb.toNat).toNat
      mapsynced s q (fun e => tlbMap e m && tlbCovers e v) fun w => w.map == m && w.idx == v / 2 ^ 24
  | _ => none

/-- The state in which an instruction that uses the wide file runs: WIDE_ON set if the bank in use owns the file; none
when it does not own it, or in ring mode (04 R122, 03 R103). -/
def wideReady (s : State) (q : SeatNo) : Option State :=
  let x := getSeat s q.val
  if x.status.ringMode then none
  else if x.status.wideOn then some s
  else if x.wideOwned ∧ x.wideOwner = x.status.bank then
    some (modSeat s q.val fun x => { x with status := { x.status with wideOn := true } })
  else none

/-- vd takes eight words computed on the wide file. -/
def writesV (q : SeatNo) (vd : Reg) (f : State → List Word) : Option (SeatNo × (State → Option State)) :=
  some (q, fun s => (wideReady s q).map fun s => vSet s q.val vd.toNat (f s))

/-- The value of a wide register: word 0 is least significant (04 R121). -/
def wideValue (ws : List Word) : Nat := ws.foldr (fun w n => w.toNat + 2 ^ 36 * n) 0

/-- The eight words of a number modulo 2^288. -/
def wideOf (n : Nat) : List Word := (List.range 8).map fun j => BitVec.ofNat 36 (n / 2 ^ (36 * j))

/-- The wide instructions that touch no memory and use no key (05 R181, R184, R185). -/
def wideEffect : EffectTable
  | .vadd q vd va vb => writesV q vd fun s => List.zipWith (· + ·) (vWords s q.val va.toNat) (vWords s q.val vb.toNat)
  | .vsub q vd va vb => writesV q vd fun s => List.zipWith (· - ·) (vWords s q.val va.toNat) (vWords s q.val vb.toNat)
  | .vand q vd va vb => writesV q vd fun s => List.zipWith (· &&& ·) (vWords s q.val va.toNat) (vWords s q.val vb.toNat)
  | .vor q vd va vb => writesV q vd fun s => List.zipWith (· ||| ·) (vWords s q.val va.toNat) (vWords s q.val vb.toNat)
  | .vxor q vd va vb => writesV q vd fun s => List.zipWith (· ^^^ ·) (vWords s q.val va.toNat) (vWords s q.val vb.toNat)
  | .vandn q vd va vb => writesV q vd fun s =>
      List.zipWith (fun a b => a &&& ~~~b) (vWords s q.val va.toNat) (vWords s q.val vb.toNat)
  | .vcmpeq q rd va vb => some (q, fun s => (wideReady s q).map fun s =>
      wSet s q.val rd.toNat (BitVec.ofNat 36
        ((List.range 8).map fun j => if vGet s q.val va.toNat j = vGet s q.val vb.toNat j then 2 ^ j else 0).sum))
  | .vaddw q vd va vb => writesV q vd fun s =>
      wideOf (wideValue (vWords s q.val va.toNat) + wideValue (vWords s q.val vb.toNat))
  | .vsubw q vd va vb => writesV q vd fun s =>
      wideOf (2 ^ 288 + wideValue (vWords s q.val va.toNat) - wideValue (vWords s q.val vb.toNat))
  | .vshlw q vd va rb => writesV q vd fun s =>
      wideOf (if (wGet s q.val rb.toNat).toNat < 288 then
        2 ^ (wGet s q.val rb.toNat).toNat * wideValue (vWords s q.val va.toNat) else 0)
  | .vshrw q vd va rb => writesV q vd fun s =>
      wideOf (if (wGet s q.val rb.toNat).toNat < 288 then
        wideValue (vWords s q.val va.toNat) / 2 ^ (wGet s q.val rb.toNat).toNat else 0)
  | .vins q vd ra aux => writesV q vd fun s => (vWords s q.val vd.toNat).set aux.toNat (wGet s q.val ra.toNat)
  | .vext q rd va aux => some (q, fun s => (wideReady s q).map fun s =>
      wSet s q.val rd.toNat (vGet s q.val va.toNat aux.toNat))
  | .vsplat q vd ra => writesV q vd fun s => List.replicate 8 (wGet s q.val ra.toNat)
  | .dgs256 q vd va => writesV q vd fun s =>
      digestWords (vWords s q.val vd.toNat) (vWords s q.val va.toNat) (vWords s q.val (va.toNat + 1))
  | .pmul18 q vd va vb => writesV q vd fun s =>
      List.zipWith (fun a b : Word => BitVec.ofNat 36 (a.toNat % 2 ^ 18 * (b.toNat % 2 ^ 18)))
        (vWords s q.val va.toNat) (vWords s q.val vb.toNat)
  | .pmac18 q vd va vb => writesV q vd fun s =>
      List.zipWith (· + ·) (vWords s q.val vd.toNat)
        (List.zipWith (fun a b : Word => BitVec.ofNat 36 (a.toNat % 2 ^ 18 * (b.toNat % 2 ^ 18)))
          (vWords s q.val va.toNat) (vWords s q.val vb.toNat))
  | _ => none

/-- CXENC and CXDEC under a key handle that passes R183, and the memory forms VLD and VST (05 R182, R184). -/
def wideKeyEffect : EffectTable
  | .cxenc q vd va cb => some (q, fun s => (wideReady s q).bind fun s =>
      let c := cGet s q.val cb.toNat
      if (handleCause s c uENC (curSeal (curBank (getSeat s q.val)))).isSome then none
      else some (vSet s q.val vd.toNat
        (wideBlocks (aesEncrypt (slotKey s (capCursor c))) (vWords s q.val va.toNat))))
  | .cxdec q vd va cb => some (q, fun s => (wideReady s q).bind fun s =>
      let c := cGet s q.val cb.toNat
      if (handleCause s c uDEC (curSeal (curBank (getSeat s q.val)))).isSome then none
      else some (vSet s q.val vd.toNat
        (wideBlocks (aesDecrypt (slotKey s (capCursor c))) (vWords s q.val va.toNat))))
  | .vld q rd m => some (q, fun s => (wideReady s q).bind fun s =>
      match accessAll q.val [memAccess s q.val m 8 8 rRD false] s with
      | .ok p => some (memUpdate (vSet p.st q.val rd.toNat p.words) q.val m 8)
      | .error _ => none)
  | .vst q rd m => some (q, fun s => (wideReady s q).bind fun s =>
      match accessAll q.val [memAccess s q.val m 8 8 rWR true] s with
      | .ok p => some (memUpdate (storeRuns p q.val 0 (vWords s q.val rd.toNat)) q.val m 8)
      | .error _ => none)
  | _ => none

/-- The loads: w or c registers take the words read, and the base moves (05 R151, 02 R37). -/
def loadEffect : EffectTable
  | .ldw q rd m => some (q, fun s =>
      match accessAll q.val [memAccess s q.val m 1 1 rRD false] s with
      | .ok p => some (ringClash (wSet (memUpdate p.st q.val m 1) q.val rd.toNat (p.word 0)) q.val m [rd.toNat])
      | .error _ => none)
  | .ldd q rd m => some (q, fun s =>
      match accessAll q.val [memAccess s q.val m 2 2 rRD false] s with
      | .ok p => some (ringClash
          (wSet (wSet (memUpdate p.st q.val m 2) q.val rd.toNat (p.word 0)) q.val (rd.toNat + 1) (p.word 1))
          q.val m [rd.toNat, rd.toNat + 1])
      | .error _ => none)
  | .ldc q rd m => some (q, fun s =>
      if inRing s q.val then none
      else match accessAll q.val [memAccess s q.val m 4 4 rRD false] s with
      | .ok p =>
        let c : Cap := { w0 := p.word 0, w1 := p.word 1, w2 := p.word 2, w3 := p.word 3, tag := true }
        let passes := p.tags.getD 0 false && p.tagOk.getD 0 false && holds (capRights (memAuth s q.val m)) rRC
          && !sweepHit p.st c
        some (cSet (memUpdate p.st q.val m 4) q.val rd.toNat { c with tag := passes })
      | .error _ => none)
  | _ => none

/-- The stores: the words of registers go to the runs of the access, and the base moves (05 R151, 02 R37 to R40, 11 R356,
15 R441). -/
def storeEffect : EffectTable
  | .stw q rd m => some (q, fun s =>
      match accessAll q.val [memAccess s q.val m 1 1 rWR true] s with
      | .ok p => some (memUpdate (storeRuns p q.val 0 [wGet s q.val rd.toNat]) q.val m 1)
      | .error _ => none)
  | .std q rd m => some (q, fun s =>
      match accessAll q.val [memAccess s q.val m 2 2 rWR true] s with
      | .ok p =>
        let counter := isSystem (p.pa 0) && decide (counterBase ≤ p.pa 0) && levelOf s q.val == .M
        let ws := [wGet s q.val rd.toNat, wGet s q.val (rd.toNat + 1)]
        some (memUpdate (if counter then counterW1c p.st (p.pa 0 - counterBase) (ws.getD 1 0)
          else storeRuns p q.val 0 ws) q.val m 2)
      | .error _ => none)
  | .stc q rd m | .fenceDescriptorWrite q rd m => some (q, fun s =>
      let c := cGet s q.val rd.toNat
      let a := { memAccess s q.val m 4 4 rWR true with tagged := c.tag, local_ := !capGlobal c }
      if inRing s q.val then none
      else match accessAll q.val [a] s with
      | .ok p => some (memUpdate (storeGranule p.st q.val (p.pa 0) c) q.val m 4)
      | .error _ => none)
  | _ => none

/-- May the seat read or write system word n now (04 R125)? -/
def sysGranted (s : State) (q : SeatNo) (n : Nat) (write : Bool) (w : Word) : Bool :=
  sysAllowed (statusOfSeat s q.val) n write && (n != 0o164 || !write || xferAllowed (statusOfSeat s q.val) w)
    && holds (capRights (pccGet s q.val)) rSY

/-- SYSRD and TB_LO_READ (04 R125, R127, 05 R179). -/
def sysReadEffect : EffectTable
  | .sysrd q rd sw => onlyIf q (fun s => sysGranted s q sw.toNat false 0) fun s =>
      wSet (sysRead s q.val sw.toNat).2 q.val rd.toNat (sysRead s q.val sw.toNat).1
  | .tbLoRead q rd => onlyIf q (fun s => sysGranted s q 0o40 false 0) fun s =>
      wSet (modCur s q.val fun b => { b with tbHi := BitVec.ofNat 36 (s.time / 2 ^ 36) }) q.val rd.toNat
        (BitVec.ofNat 36 s.time)
  | _ => none

/-- A write of word n that is granted, with a value that passes a test. -/
def writesSys (q : SeatNo) (ra : Reg) (n : Nat) (test : State → Word → Bool) (f : State → Word → State) :
    Option (SeatNo × (State → Option State)) :=
  onlyIf q (fun s => let w := wGet s q.val ra.toNat; sysGranted s q n true w && test s w)
    fun s => f s (wGet s q.val ra.toNat)

/-- A stick command whose copy meets no refusal (06 R210). -/
def stickDone (q : SeatNo) (ra : Reg) (cmd : Nat) : Option (SeatNo × (State → Option State)) :=
  writesSys q ra 0o203 (fun s w => bits w 2 0 == cmd && (stickCommand s q.val cmd).1.isNone)
    fun s _ => (stickCommand s q.val cmd).2

/-- The window of 16 Ki words of case at a is sound, and the fence admits every read of a copy of it (06 R210). -/
def WindowReads (s : State) (a : Nat) : Prop :=
  a + 16384 ≤ caseEnd ∧ ∀ b, a ≤ b → b < a + 16384 →
    poisonedAt s.mem b = false ∧ (fenceCheck s (atMReq 0 b 1 false)).isOk = true

/-- The window of 16 Ki words of case at a is one that the fence admits every write of a copy to (06 R210). -/
def WindowWrites (s : State) (a : Nat) : Prop :=
  a + 16384 ≤ caseEnd ∧ ∀ g tag, g < 4096 → (fenceCheck s (atMReq 1 (a + 4 * g) 4 tag)).isOk = true

/-- SYSWR, and the rows that are a SYSWR of one word (04 R126; 02 R65, R72, R74; 06 R210; 07 R218, R219; 09 R279; 10 R326;
16 R461; 18 R507; 19 R534). -/
def sysWriteEffect : EffectTable
  | .syswr q ra sw => writesSys q ra sw.toNat (fun s w => (sysWrite s q.val sw.toNat w).1.isNone)
      fun s w => (sysWrite s q.val sw.toNat w).2
  | .sealLiveWrite q ra => writesSys q ra 0o401 (fun _ _ => true) fun s w =>
      let v := s.sys.sealIndex
      if v = 0 then s
      else
        let waits := v == 65535 && smGet false s.sys.sealLive v != bit w 0
        { s with
            sys := { s.sys with sealLive := smSet false s.sys.sealLive v (bit w 0) },
            engines := { s.engines with jobs := s.engines.jobs.map fun j =>
              if waits && !j.slots.isEmpty then { j with sealWaits := q.val :: j.sealWaits } else j } }
  | .regpass q ra => writesSys q ra 0o410 (fun _ w => bit w 4) fun s w =>
      (List.range 8).foldl (fun s c => modCox s (3 + c) fun x => { x with passDue := some s.time })
        { s with sys := { s.sys with sealMode := bit w 7, arm := bits w 3 0, regDone := false } }
  | .svXferLoad q ra => writesSys q ra 0o164 (fun _ w => !bit w 5) fun s w => xferWrite s q.val w
  | .svXferStore q ra => writesSys q ra 0o164 (fun _ w => bit w 5) fun s w => xferWrite s q.val w
  | .bankSelFetch q ra => writesSys q ra 0o165 (fun _ w => bits w 13 12 == 1) fun s w =>
      modSeat s q.val fun x => bankSelPut x w
  | .bankSelPlace q ra => writesSys q ra 0o165 (fun _ w => bits w 13 12 == 2) fun s w =>
      modSeat s q.val fun x => bankSelPut x w
  | .bankDataWrite q ra => writesSys q ra 0o166 (fun _ _ => true) fun s w => modSeat s q.val fun x => bankDataPut x w
  | .loadData q ra => stickDone q ra 1
  | .saveData q ra => stickDone q ra 2
  | .loadCode q ra => stickDone q ra 3
  | .release q ra => writesSys q ra 0o203 (fun _ w => bits w 2 0 == 4) fun s _ =>
      modSeat s q.val fun x => { x with stickOn := false, stickUse := false, codeOn := false }
  | .laneBaseWrite q ra => writesSys q ra 0o430 (fun _ _ => true) laneBasePut
  | .setasideSet q ra => writesSys q ra 0o440
      (fun s w => (List.range 8).any fun e => (bits w 7 0).testBit e && !s.sys.setAside.testBit e) setAsidePut
  | .setasideClear q ra => writesSys q ra 0o440
      (fun s w => (List.range 8).any fun e => !(bits w 7 0).testBit e && s.sys.setAside.testBit e) setAsidePut
  | .paddleReq q ra => writesSys q ra 0o461 (fun _ _ => true) fun s w => withPower s fun p => { p with keelT := bit w 0 }
  | .measExtend q ra => writesSys q ra 0o500 (fun _ w => bit w 35) measCmdPut
  | .ethModeWrite q ra => writesSys q ra 0o510 (fun _ _ => true) ethModePut
  | _ => none

end Sys2Proof.Machine
end

