-- ==== Sys2Proof/Safety/LaneEffects.lean ====
section
/-! DEFINITION. The effects of the lane instructions (05 R169, R171 to R180; 09 R285 to R300) when they complete with status
OK, and the conditions of a put (09 R289). -/

namespace Sys2Proof.Machine

/-- The lane result word (05 R171): STATUS, MSG, LEN, LANE. -/
def resultWord (st : Nat) (msg : Bool) (len lane : Nat) : Word :=
  BitVec.ofNat 36 (2 ^ 30 * st + (if msg then 2 ^ 29 else 0) + 2 ^ 16 * len + lane % 2 ^ 16)

/-- w[rd] takes an OK result about a lane after an operation that answers OK. -/
def laneOk (q : SeatNo) (rd : Reg) (lane : State → Nat) (op : State → Option (Nat × State)) :
    Option (SeatNo × (State → Option State)) :=
  some (q, fun s =>
    match op s with
    | some (0, t) => some (wSet t q.val rd.toNat (resultWord 0 false 0 (lane s)))
    | _ => none)

/-- The lane that a capability with LN names, when steps 1 to 4 and 6 of R48 pass (05 R172). -/
def laneCap (s : State) (q : SeatNo) (ca : Reg) : Option Nat :=
  let c := cGet s q.val ca.toNat
  if inRing s q.val || (laneAuth s q.val c).isSome then none else some (capCursor c)

/-- No memory error waits for a read to find it (10 R321, R322, R334). -/
def noUpset (s : State) : Bool := s.mem.flips.isEmpty && s.mem.rot.isEmpty

/-- An OPEN lane of which the unit reaches granule 1 and granule g of the descriptor: its class (05 R173, 09 R280). -/
def openClass (s : State) (l g : Nat) : Option Nat :=
  match classOf s l with
  | some k =>
    if noUpset s && (descAdmits s l 1).isOk && (descAdmits s l g).isOk && (laneSt s l).state == lsOpen then some k else none
  | none => none

/-- The lane instructions that answer OK. -/
def laneEffect : EffectTable
  | .lopen q rd ca cb aux => laneOk q rd (fun s => capCursor (cGet s q.val ca.toNat)) fun s =>
      if inRing s q.val || (openFail s q.val (cGet s q.val ca.toNat) (cGet s q.val cb.toNat) (cGet s q.val aux.toNat)).isSome
      then none
      else some (openStatus s q.val (capCursor (cGet s q.val ca.toNat)) (cGet s q.val cb.toNat) (cGet s q.val aux.toNat))
  | .lclose q rd ca => laneOk q rd (fun s => capCursor (cGet s q.val ca.toNat)) fun s =>
      (laneCap s q ca).map fun l => closeStatus s q.val l
  | .larm q rd ca rb => laneOk q rd (fun s => capCursor (cGet s q.val ca.toNat)) fun s =>
      (laneCap s q ca).bind fun l => (openClass s l 3).map fun _ =>
        let n := (wGet s q.val rb.toNat).toNat
        let x := laneSt s l
        let arm := decide (n ≠ 0) && decide (x.head = x.tail)
        (0, offQueue (setDeadline (setLane s l { x with armed := arm, tof := false }) l (if arm then s.time + n else 0)) l)
  | .lstat q rd ca aux => some (q, fun s => (laneCap s q ca).bind fun l =>
      if noUpset s && descReads s l (aux.toNat / 4) then
        let w := memWord s.mem (descAddr s l + aux.toNat)
        some (wSet s q.val rd.toNat
          (if aux.toNat = 6 ∧ smGet false s.lanes.opened l = false then BitVec.ofNat 36 (w.toNat % 2 ^ 33) else w))
      else none)
  | .lgive q rd ra rb => laneOk q rd (fun s => (wGet s q.val ra.toNat).toNat % 2 ^ 16) fun s =>
      let l := (wGet s q.val ra.toNat).toNat % 2 ^ 16
      let n := (wGet s q.val rb.toNat).toNat
      let x := laneSt s l
      if takeRefused s q.val l ∨ (curBank (getSeat s q.val)).role ≠ .none ∨ x.taken < n then none
      else (openClass s l 2).map fun _ => (0, setLane s l { x with taken := x.taken - n, credit := x.credit + n })
  | .lput q rd ca rb => laneOk q rd (fun s => (wGet s q.val rb.toNat).toNat % 2 ^ 16) fun s =>
      let w := wGet s q.val rb.toNat
      let l := w.toNat % 2 ^ 16
      let n := w.toNat / 2 ^ 16 % 2 ^ 13
      let c := blockCap s q.val ca.toNat
      if n = 0 ∨ putRefused s q.val l then none
      else match accessAll q.val [{ cap := c, ea := (capCursor c : Int), n := n, need := rRD }] (seatCount s q.val 112) with
      | .ok p => some (putStatus p.st q.val l (p.data.getD 0 []) fun k => putTags p.st q.val k c p n)
      | .error _ => none
  | .ltake q rd ca rb _ => some (q, fun s =>
      let l := (wGet s q.val rb.toNat).toNat % 2 ^ 16
      let c := blockCap s q.val ca.toNat
      let a : Access := { cap := c, ea := (capCursor c : Int), n := 1, need := rWR, write := true }
      if (stepsFail (levelOf s q.val) (sideOf s q.val) [a] [1, 2, 3, 4, 5]).isSome ∨ takeRefused s q.val l ∨
          (curBank (getSeat s q.val)).abortTake then none
      else (openClass s l 2).bind fun _ =>
        match takeHead s q.val l with
        | (some m, s) =>
          match takeMessage s q.val l rd c m with
          | .ok d => some d.st
          | .error _ => none
        | (none, _) => none)
  | .doorbell q rd ra rb => laneOk q rd
      (fun s => (doorbellLane s (wGet s q.val ra.toNat).toNat).getD 0) fun s =>
        let r := ringBell s q.val (wGet s q.val ra.toNat).toNat (wGet s q.val rb.toNat)
        if levelOf s q.val = .U ∨ r.2.1 = none then none else some (r.1, r.2.2)
  | .wayen q rd ra rb => laneOk q rd (fun s => (wGet s q.val rb.toNat).toNat) fun s =>
      if levelOf s q.val = .M then
        some (acceptWay s (wGet s q.val ra.toNat).toNat (wGet s q.val rb.toNat).toNat none none [])
      else none
  | _ => none

/-- Words a..a+n-1 of case that a seat at M reaches plainly: no descriptor of the fence and no set-aside eighth covers them,
none is poisoned and no upset waits to be met, the seat's stick and code store do not hold them, and its outputs are not held
back. -/
def PlainSpan (s : State) (q : SeatNo) (a n : Nat) : Prop :=
  levelOf s q.val = .M ∧ inRing s q.val = false ∧ a + n ≤ caseEnd ∧ descsOver s.fence a n = [] ∧
    touchesSetAside s a n = false ∧ (curBank (getSeat s q.val)).role = .none ∧ s.mem.flips = [] ∧ s.mem.rot = [] ∧
    ∀ b, a ≤ b → b < a + n → inStick (getSeat s q.val) b = false ∧ inCode (getSeat s q.val) b = false ∧
      poisonedAt s.mem b = false

/-- As PlainSpan, but every word lies in the window of the seat's bound stick, and may lie in that of its code store (06 R208,
R209). -/
def StickSpan (s : State) (q : SeatNo) (a n : Nat) : Prop :=
  levelOf s q.val = .M ∧ inRing s q.val = false ∧ a + n ≤ caseEnd ∧ descsOver s.fence a n = [] ∧
    touchesSetAside s a n = false ∧ (curBank (getSeat s q.val)).role = .none ∧
    ∀ b, a ≤ b → b < a + n → inStick (getSeat s q.val) b = true

/-- Of the tags of s, those of the granules of words a to a+n-1 are clear in t, and the others stay (02 R37). -/
def TagsCleared (s t : State) (a n : Nat) : Prop :=
  ∀ b, memTag t.mem b = (memTag s.mem b && !decide (n ≠ 0 ∧ a / 4 ≤ b / 4 ∧ b / 4 ≤ (a + n - 1) / 4))

/-- The capability reaches words a..a+n-1 with the rights need (02 R48, steps 1 to 6). -/
def Reaches (c : Cap) (a n need : Nat) : Prop :=
  c.tag = true ∧ capSeal c = 0 ∧ hasNumberRight c = false ∧ holds (capRights c) need = true ∧ capBase c ≤ a ∧
    a + n ≤ capLast c + 1 ∧ a < 2 ^ 36

end Sys2Proof.Machine
end

