-- ==== Sys2Proof/Safety/LaneEventEffects.lean ====
section
/-! DEFINITION. What the Ethernet ports, host puts and the lane unit do of themselves, and when (09 R290 to R312, R553; 19
R533 to R535). -/

namespace Sys2Proof.Machine

/-- A received frame of 60 to 9,216 octets with a good check sequence that is no mirror traffic: the state in which it is
steered, and its bucket (09 R305, R311). -/
def steered (s : State) (p : PortNo) (os : List Octet) (good : Bool) : Option (State × Nat) :=
  let a := unitCount (steeringNow s) p.val 8 1
  let b := bucketOf a os
  if portUp s p.val ∧ good ∧ 60 ≤ os.length ∧ os.length ≤ 9216 ∧ mirrorFrame a os = false then
    some (countWindow a p.val b, b) else none

/-- A frame that the port drops at once: a bad check sequence, too short, too long; or one for the UDP mirror (09 R305,
R308, 17 R484). -/
def unsteered (s : State) (p : PortNo) (os : List Octet) (good : Bool) : Option State :=
  let a := unitCount (steeringNow s) p.val 8 1
  if portUp s p.val = false then none
  else if good = false then some (unitCount a p.val 9 1)
  else if os.length < 60 then some (unitCount a p.val 11 1)
  else if 9216 < os.length then some (unitCount a p.val 10 1)
  else if mirrorFrame a os then some a else none

/-- Where a bucket sends a frame, when that is an ingress lane (09 R306, R307). -/
def ingressLane (s : State) (b : Nat) (os : List Octet) : Option Nat :=
  (steerLane s b (classify os) os).filter fun l =>
    match classOf s l with
    | some k => clKind s k == 0
    | none => false

/-- A frame that a port sends: zeros pad it to 60 octets and its FCS follows (09 R309), and a PTP event message is stamped
where the port's bit of entry 0x1206 is set (19 R533). -/
def frameSent (s : State) (p : PortNo) (os : List Octet) : State :=
  let padded := os ++ List.replicate (60 - os.length) 0
  let out := padded ++ (beOctets 4 (crc crc32 padded)).reverse
  let on := (beNat (entryValue s 0x1206 0 [15])).testBit p.val
  modPort (unitCount s p.val 12 1) p.val fun x =>
    let x := { x with sent := out :: x.sent }
    match ptpOffset os with
    | some o => if on then { x with ptpStamp := s.time, ptpSeq := be16 os (o + 30) } else x
    | none => x

/-- A host put whose message the lane unit reads through the host window: the put's status goes back with the lane number,
through the window too (09 R312, 10 R340). -/
def hostPutDone (s : State) (r : List Octet) : Option State :=
  let l := leNat (slice r 0 4) % 65536
  let n := leNat (slice r 0 4) / 65536 % 8192
  let base := 2 ^ 32 * leNat (slice r 8 4)
  match classOf s l with
  | some k =>
    if r.length = 16 ∧ clHost s k ∧ (clKind s k = 0 ∨ clKind s k = 2) then
      match hostMessage s (base + leNat (slice r 4 4)) n true with
      | .ok (ws, a) =>
        let (st, b) := putLane a l ws
        some (hostResult b (base + leNat (slice r 12 4)) (2 ^ 26 * st + l))
      | .error _ => none
    else none
  | none => none

/-- The events of ports and lanes. -/
def laneEventEffect : EventTable
  | .frameReceive p os good, s =>
      match unsteered s p os good with
      | some t => some t
      | none => (steered s p os good).bind fun (t, b) =>
        match steerLane t b (classify os) os with
        | none => some (bucketCount t p.val b)
        | some _ => (ingressLane t b os).bind fun l =>
          match laneReach t l 1 with
          | (true, t) =>
            match putLane t l (ingressWords t p.val b os) with
            | (0, u) => some u
            | _ => none
          | (false, _) => none
  | .frameTransmit p lane, s =>
      let l := lane.toNat
      if portUp s p.val ∧ (classOf s l).map (clKind s) = some 1 then
        match hwTake s p.val l with
        | (some m, t) =>
          match egressOctets m.words with
          | some os =>
            if os.length ≤ 9216 then some (frameSent t p os) else none
          | none =>
            some (unitCount (notice t l { status := stBadDescriptor, sq := some m.sq, len := m.words.length,
                                          copied := m.words, who := p.val }) p.val 13 1)
        | (none, _) => none
      else none
  | .hostPut r, s => if hostReaches s ∧ s.boot.done then hostPutDone s r else none
  | .heldMessageRetry lane, s =>
      match s.lanes.held with
      | [h] =>
        if moduleRuns s ∧ h.lane = lane ∧ h.channel = none then
          match putLane { s with lanes := { s.lanes with held := [] } } lane.toNat h.words with
          | (0, t) => some t
          | (_, t) => some { t with lanes := { t.lanes with held := h :: t.lanes.held } }
        else none
      | _ => none
  | .laneTimeout lane, s =>
      let l := lane.toNat
      let x := laneSt s l
      whenever (moduleRuns s ∧ noUpset s ∧ (classOf s l).isSome ∧ (descAdmits s l 1).isOk ∧ (descAdmits s l 3).isOk ∧ x.armed ∧
          laneDeadline s l + 200 ≤ s.time)
        (pendRise s
          (laneEvent (laneCount (setDeadline (setLane s l { x with armed := false, tof := true }) l 0) l 2) l false) l)
  | .steeringSwitch, s => s.eth.switchReq.bind fun t =>
      let n := 500 * ((getCox s 0).n + 1)
      whenever (moduleRuns s ∧ t / n < s.time / n)
        { s with eth := { s.eth with bucket := s.eth.bucketSb, bucketSb := s.eth.bucket, switchReq := none } }
  | .imbalanceEvent p bucket, s =>
      let x := getPort s p.val
      let b := bucket.toNat
      whenever (moduleRuns s ∧ x.window = s.time / 1000000 ∧ smGet false x.raised b = false ∧
          beNat (entryValue s 0x4012 (p.val + 1) (beOctets 3 65535)) < smGet 0 x.counts b)
        (eventMessage
          (logEntry 6 (0x100 + p.val) ((List.range 20).map fun i => Config.imbalanceOctet b (smGet 0 x.counts b) (12 + i))
            (unitCount (modPort s p.val fun x => { x with raised := smSet false x.raised b true }) p.val 14 1))
          0 [p.val, b, smGet 0 x.counts b])
  | .linkUp p, s =>
      whenever (moduleRuns s ∧ (portSpeed s p.val = 1 ∨ portSpeed s p.val = 2))
        (modPort s p.val fun x => { x with linkUp := true })
  | .linkLoss p, s => some (modPort s p.val fun x => { x with linkUp := false })
  | _, _ => none

end Sys2Proof.Machine
end

