-- ==== Sys2Proof/Safety/Numbers.lean ====
section
/-! DEFINITION. What the claims say in numbers: the capabilities that a gate leaves, the words that a fetch's translation touches, the
trap of an access, the system words as they read, a message on a lane, and a stow area. -/

namespace Sys2Proof.Machine

/-- c with SEAL 0 (02 R29, R61). -/
def unsealed (c : Cap) : Cap := { c with w3 := c.w3 &&& 0o000003777777 }

/-- l is the link of c under seal v: sealed with it, of GLOBAL 0, and c in every other field (03 R90, R96). -/
def LinkOf (l c : Cap) (v : Nat) : Prop :=
  l.tag = c.tag ∧ l.w0 = c.w0 ∧ l.w1 = c.w1 ∧ l.w2 = c.w2 ∧ capSeal l = v ∧ capGlobal l = false ∧ capSide l = capSide c ∧
    capRights l = capRights c ∧ capRing l = capRing c

/-- A bank's PCC with its cursor at the instruction after a CINVOKE (03 R90). -/
def returnPoint (b : Bank) : Cap := { b.pcc with w0 := b.pcc.w0 + 1 }

/-- The seat without what the fetch of an instruction may change in it: TLB, walk cache, the words of its stick and their tags, the
stale marks of its code store, UNTIMED, and the sampling count. -/
def bareSeat (x : Seat) : Seat :=
  { x with tlb := [], walks := [], stick := [], stickTag := [], stale := [], untimed := false, sampCount := 0, sampTag := false }

/-- The physical words of the entries that an access's translation uses, in which it may set A: those of its first making, and of
each that follows a failed compare-and-set, fuel at most (10 R347). -/
def entriesUsed (q : Nat) (a : Access) : Nat → Bool → State → List Nat
  | fuel, fresh, s =>
    match transAll q fresh [a] s with
    | .error _ => []
    | .ok (rss, s) =>
      let here := rss.flatten.filterMap fun r => r.e.map fun e => pteOf e r.v
      match touchAll q (rss.flatten.map fun r => (r, a.write)) s, fuel with
      | .error s', fuel + 1 => here ++ entriesUsed q a fuel true s'
      | _, _ => here
termination_by structural fuel => fuel

/-- The state after the accesses of the runs are noted, where one of them ends in POISON (06 R211). -/
def runsNoted (q : SeatNo) (rs : List Run) (e : State) : State := (rs.map fun r => (r.pa, false)).foldl (timedNote q.val) e

/-- The access a of an instruction that has issued in s1 raises t, in state e: the first failing step of 02 R48, 1 to 6 on the
capability, 7 in translation, 8 at the fence; a watch range (07 R228); or, of a load, poison with the poisoned word's physical
address (10 R322, R341). -/
def AccessTraps (s1 : State) (q : SeatNo) (a : Access) (t : Trap) (e : State) : Prop :=
  let steps := stepsFail (levelOf s1 q.val) (sideOf s1 q.val) [a] [1, 2, 3, 4, 5, 6]
  (steps = some t ∧ e = s1) ∨
    (steps = none ∧ s1.mem.flips = [] ∧ s1.mem.rot = [] ∧
      (transAll q.val false [a] s1 = .error (t, e) ∨
        ∃ rs u, transAll q.val false [a] s1 = .ok ([rs], u) ∧ let y := getSeat u q.val
          (fenceAll u y.status [(a, rs)] = .error t ∧ e = u) ∨
            ((fenceAll u y.status [(a, rs)]).isOk = true ∧
              ((watched y a = true ∧ t = a.trap 0o26 0 ∧ e = u) ∨
                ∃ p, watched y a = false ∧ a.write = false ∧
                  rs.findSome? (fun r => seatPoison u q.val r.pa r.n false) = some p ∧
                  t = { a.trap 0o16 0 with aux := BitVec.ofNat 36 p } ∧ e = runsNoted q rs u))))

/-- The accesses as of an instruction pass steps 1 to 8 and WATCH, reach the runs rss, and leave the state e (02 R48, R55, 07
R228). -/
def AccessesReach (s1 : State) (q : SeatNo) (as : List Access) (rss : List (List Run)) (e : State) : Prop :=
  stepsFail (levelOf s1 q.val) (sideOf s1 q.val) as [1, 2, 3, 4, 5, 6] = none ∧ transAll q.val false as s1 = .ok (rss, e) ∧
    (fenceAll e (getSeat e q.val).status (as.zip rss)).isOk = true ∧ as.find? (watched (getSeat e q.val)) = none

/-- The M set of a seat after a transfer that stopped for want of bounds at word a: BOUNDS at step 6, with the word that failed
(02 R48, 07 R217). -/
def BoundsAt (t : State) (q : SeatNo) (a : Nat) : Prop :=
  let v := (getSeat t q.val).svM
  occupied v = true ∧ bits v.cause 5 0 = 0o05 ∧ bits v.cause 16 13 = 6 ∧ v.addr = BitVec.ofNat 36 a

/-- The word and capability registers of the bank that seat q used in s stand in t as in s. -/
def BankKept (s t : State) (q : SeatNo) : Prop :=
  let b := (getSeat s q.val).status.bank
  (∀ r, bankW (getBank (getSeat t q.val) b) r = wGet s q.val r) ∧ ∀ r, bankC (getBank (getSeat t q.val) b) r = cGet s q.val r

/-- STATUS as system word 0o0010 reads, of a bank number below 16 (03 R81). -/
def statusNumber (x : Seat) : Nat :=
  let t := x.status
  2048 * t.ring.toNat + (if t.ringMode then 1024 else 0) + (if t.wideOn then 512 else 0) + (if detOn x then 256 else 0)
    + 16 * t.bank + (if t.side then 4 else 0) + match t.lvl with | .U => 0 | .S => 1 | .M => 3

/-- Word i of a granule. -/
def granuleWord (c : Cap) (i : Nat) : Word := [c.w0, c.w1, c.w2, c.w3].getD i 0

/-- Word o of a save set, 0 to 14 (07 R217). -/
def setWord (v : SaveSet) (o : Nat) : Word :=
  (capWords v.pcc ++ capWords v.granB ++ [v.st, v.cause, v.addr, v.aux, v.prog, v.bank, v.atst]).getD o 0

/-- The words that SYSRD gives of a seat and of the block, of those that this claim speaks of; none of the others (04 R126, and the
rule of each). -/
def sysValue (s : State) (q n : Nat) : Option Word :=
  let x := getSeat s q
  let k := getBank x (ctxBank x)
  let v := s.sys
  if n = 0 then some (BitVec.ofNat 36 (256 * q + 16 * (q / 9) + q % 9))
  else if n = 0o10 then (if x.status.bank < 16 then some (BitVec.ofNat 36 (statusNumber x)) else none)
  else if 0o11 ≤ n ∧ n ≤ 0o15 then [k.ctx, k.xctx, k.xretPc, k.xretDb, k.ringLink][n - 0o11]?
  else if n = 0o41 then some (curBank x).tbHi
  else if 0o100 ≤ n ∧ n ≤ 0o156 then
    [x.svStroke, x.svBow, x.svM][(n - 0o100) / 16]?.map fun v => setWord v (n % 16)
  else if 0o160 ≤ n ∧ n ≤ 0o163 then [x.strokeC, x.strokeR, x.bowC, x.bowR][n - 0o160]?
  else if n = 0o167 then (if x.residLim < 2 ^ 36 then some (BitVec.ofNat 36 x.residLim) else none)
  else if 0o170 ≤ n ∧ n ≤ 0o172 then [x.watchBase, x.watchLast, x.watchCtl][n - 0o170]?
  else if n = 0o400 then some (BitVec.ofNat 36 v.sealIndex)
  else if n = 0o401 then some (if v.sealIndex = 0 ∨ smGet false v.sealLive v.sealIndex = true then 1 else 0)
  else if 0o411 ≤ n ∧ n ≤ 0o420 then some (smGet 0 v.sweepQ (n - 0o411))
  else if n = 0o421 then some (BitVec.ofNat 36 v.sealVal)
  else if n = 0o430 then some (BitVec.ofNat 36 (2 ^ 20 * v.laneBase + if v.laneLock then 1 else 0))
  else if n = 0o440 then some (BitVec.ofNat 36 v.setAside)
  else if 0o451 ≤ n ∧ n ≤ 0o453 then [s.galley.dumpBase, s.galley.dumpGeo, s.galley.dumpLane][n - 0o451]?
  else if n = 0o501 then some (smGet 0 v.mr (8 * v.measReg + v.measWord))
  else if n = 0o510 then some v.ethMode
  else if 0o1000 ≤ n ∧ n ≤ 0o1377 then some (smGet 0 v.mapBase (n - 0o1000))
  else none

/-- What a word of sysValue reads after a SYSWR of w, where it read old before; none for a word that is not written so (04 R126, 02
R65, R72, 03 R83, 07 R216, R217, R226, R228, 10 R342, 15 R444). -/
def sysBack (n : Nat) (w old : Word) : Option Word :=
  if n = 0o11 then some (w &&& 0o777774000177)
  else if n = 0o12 then some (w &&& 0o777774001577)
  else if n = 0o13 ∨ n = 0o14 ∨ n = 0o170 ∨ n = 0o171 ∨ n = 0o451 ∨ n = 0o452 ∨ (0o411 ≤ n ∧ n ≤ 0o420) then some w
  else if n = 0o15 then some (w &&& 0o37777)
  else if 0o100 ≤ n ∧ n ≤ 0o156 ∧ n % 16 ≠ 15 then
    some (if n % 16 < 8 ∨ n % 16 = 12 then w else if n % 16 = 8 then w &&& 0o17767 else old)
  else if 0o160 ≤ n ∧ n ≤ 0o163 then some (w &&& 0o541177776)
  else if n = 0o172 then some (w &&& 7)
  else if n = 0o167 ∨ n = 0o400 ∨ n = 0o421 ∨ n = 0o453 then some (w &&& 0o177777)
  else if 0o1000 ≤ n ∧ n ≤ 0o1377 then some (w &&& 0o777777774000)
  else none

/-- The granules that SV_XFER selects, by number: those of the three save sets, then the trap vectors (07 R218). -/
def svGranules (s : State) (q : Nat) : List Cap :=
  let x := getSeat s q
  [x.svStroke.pcc, x.svStroke.granB, x.svBow.pcc, x.svBow.granB, x.svM.pcc, x.svM.granB] ++
    (List.range 5).map fun i => smGet {} s.sys.vectors (6 + i)

/-- The lane unit serves lane l of class k: OPEN, its descriptor in case, and no access of it to its descriptor or its ring refused
(09 R280, R551). -/
def LaneServes (s : State) (l k : Nat) : Prop :=
  classOf s l = some k ∧ noUpset s = true ∧ descAddr s l + 16 ≤ caseEnd ∧
    (∀ g w, g < 4 → w < 2 → (descCheck s l g w).isOk = true) ∧ (ringAdmits s k l).isOk = true ∧
    smGet false s.lanes.fault l = false ∧ (laneSt s l).state = lsOpen

/-- An LTAKE of seat q on lane l of class k that its checks let by: 02 R48 steps 1 to 5, no ABORTED to report, no LANE, outside a
pair (05 R173, R175). -/
def TakeServed (s : State) (q : SeatNo) (ca rb : Reg) (l k : Nat) : Prop :=
  let c := blockCap s q.val ca.toNat
  l = (wGet s q.val rb.toNat).toNat % 2 ^ 16 ∧ LaneServes s l k ∧
    stepsFail (levelOf s q.val) (sideOf s q.val)
      [{ cap := c, ea := (capCursor c : Int), n := 1, need := rWR, write := true }] [1, 2, 3, 4, 5] = none ∧
    (curBank (getSeat s q.val)).abortTake = false ∧ takeRefused s q.val l = false ∧
    (curBank (getSeat s q.val)).role = .none

/-- Word i of a message that begins in the slot at position p of a ring (09 R283, R284). -/
def messageWord (s : State) (k l p i : Nat) : Word := memWord s.mem (slotAddr s k l (p + i / clSS s k) + i % clSS s k)

/-- Granule i of that message, with its tag. -/
def messageGranule (s : State) (k l p i : Nat) : Cap := memCap s.mem (slotAddr s k l (p + 4 * i / clSS s k) + 4 * i % clSS s k)

/-- A committed message of n words, m slots and sequence number sq stands at HEAD of a lane, sound, in a ring clear of the lane's
descriptor; behind it stands another, or nothing (09 R283 to R287). -/
def HeadHolds (s : State) (l k n m sq : Nat) : Prop :=
  let x := laneSt s l
  let r := recAddr s k l x.head
  let next := (x.head + m) % 8192
  x.head ≠ x.tail ∧ bit (memWord s.mem r) 35 = true ∧ n = bits (memWord s.mem r) 12 0 ∧ 1 ≤ n ∧
    m = bits (memWord s.mem r) 33 30 + 1 ∧ sq = bits (memWord s.mem (r + 1)) 17 0 ∧ clChk s k = false ∧
    ringBase s k l + ringLen s k ≤ caseEnd ∧
    (∀ b, ringBase s k l ≤ b → b < ringBase s k l + ringLen s k → poisonedAt s.mem b = false) ∧
    (ringBase s k l + ringLen s k ≤ descAddr s l ∨ descAddr s l + 16 ≤ ringBase s k l) ∧
    (next = x.tail ∨ bit (memWord s.mem (recAddr s k l next)) 35 = true)

/-- The stow area of the activation in bank b of seat q, at word a: aligned, in case, clear of the seat's stick, and open to its reads
and writes (08 R258, R259, 11 R554). -/
def StowAreaSound (s : State) (q b a : Nat) : Prop :=
  a = stowRef s (getBank (getSeat s q) b).lane.toNat ∧ a + 256 ≤ caseEnd ∧ s.mem.flips = [] ∧ s.mem.rot = [] ∧
    (∀ i, i < 256 → inStick (getSeat s q) (a + i) = false) ∧
    ∀ g tag, g < 64 → (fenceCheck s (atMReq 1 (a + 4 * g) 4 tag)).isOk = true ∧
      (fenceCheck s (atMReq 0 (a + 4 * g) 4 false)).isOk = true

end Sys2Proof.Machine
end

