-- ==== Sys2Proof/Safety/SeatEventEffects.lean ====
section
/-! DEFINITION. What happens to a seat beside its instructions, and when: overrun, residence, stow and restore, asynchronous
traps, pair wait, register pass, substitution, sampling (07 R223 to R227, 08 R256 to R271, 02 R74, 15 R448, R449). -/

namespace Sys2Proof.Machine

/-- The seat's residence time so far: what it has run, and since it last started (07 R226). -/
def residTime (s : State) (q : Nat) : Nat :=
  (getSeat s q).residRun + match (getSeat s q).residFrom with | some t => s.time - t | none => 0

/-- A seat that takes an asynchronous trap of cause k at M, with SV_ADDR and SV_AUX (07 R221, R223). -/
def asyncTrap (s : State) (q k : Nat) (addr aux : Word) : State := takeAsync s q { cause := k, addr := addr, aux := aux }

/-- The job at the front of the stow engine, when it may end: no save set is OCCUPIED and the seat is in service (08
R258). -/
def stowReady (s : State) (q : Nat) (stowing : Bool) : Option StowJob :=
  if anyOccupied (getSeat s q) || !seatServes s q then none
  else (getSeat s q).stow.head?.filter fun j => j.stowing == stowing

/-- A stow that has faulted at address p: the bank stays BLOCKED, its post is refused, and cause 24 is pending (08 R262). An
event that came meanwhile on the lane the bank awaits is not lost (08 R249). -/
def stowFailed (s : State) (q : Nat) (v : Bank) (p : Nat) (j : StowJob) : State :=
  let t := modSeatR s q fun x =>
    { dropJob (modBank x j.bank fun v => { v with st := .blocked }) j.bank with
        pendStow := x.pendStow ++ [(v.lane, BitVec.ofNat 36 p)] }
  lateEvent (refuseStowPost t q j) q j.bank v true

/-- A restore that has faulted at address p: cause 24 is pending and the activation ends BROKEN (08 R262). -/
def restoreFailed (s : State) (q : Nat) (p : Nat) (j : StowJob) (e : Stowed) : State :=
  endStowed (freeBank (modSeat s q fun x => { x with pendStow := x.pendStow ++ [(j.lane, BitVec.ofNat 36 p)] }) q j.bank) e
    stBroken

/-- The events of a seat and of its leaf cox. -/
def seatEventEffect : EventTable
  | .activationOverrun lane, s => do
      let c := if lane.toNat ∈ oldLanes s then classesFor s true else s
      let k ← classOf c lane.toNat
      let (q, since) ← actSince s lane.toNat
      whenever (moduleRuns s ∧ since + clMaxact c k < s.time)
        (logEvent 7 q (coxCount (endActivation s lane.toNat stAborted) (leafOf q) 10))
  | .residenceTimeout q, s =>
      let x := getSeat s q.val
      whenever (asyncReady s q.val ∧ x.pendStow = [] ∧ x.pendPair = [] ∧ ¬x.residFired ∧
          x.residLim ≠ 0 ∧ x.residLim ≤ residTime s q.val)
        (asyncTrap (modSeat s q.val fun x => { x with residFired := true }) q.val 0o00 1 0)
  | .stowComplete q, s => do
      let j ← stowReady s q.val true
      let v := getBank (getSeat s q.val) j.bank
      if v.st ≠ .stowing then some (modSeatR s q.val fun x => dropJob x j.bank)
      else match laneReach s v.lane.toNat 3 with
      | (false, t) => some (stowFailed t q.val v (descAddr t v.lane.toNat + 12) j)
      | (true, t) =>
        match stowBank t q.val j.bank with
        | .ok t =>
          let kept := { t with lanes := { t.lanes with stowed := t.lanes.stowed ++ [stowedOf v q.val j.bank] } }
          some (lateEvent (postAfterStow kept q.val j) q.val j.bank v false)
        | .error p => some (stowFailed t q.val v p j)
  | .restoreComplete q, s => do
      let j ← stowReady s q.val false
      let t := modSeatR s q.val fun x => dropJob x j.bank
      if (getBank (getSeat s q.val) j.bank).st ≠ .restoring then some t
      else match s.lanes.stowed.find? fun e => e.lane == j.lane with
      | none => some (laneEnded (freeBank t q.val j.bank) j.lane.toNat)
      | some e =>
        match laneReach t j.lane.toNat 3 with
        | (false, u) => some (restoreFailed u q.val (descAddr u j.lane.toNat + 12) j e)
        | (true, u) =>
          let t := stowMeets u q.val j.lane.toNat
          match restoreBank t q.val j.bank j.lane.toNat (e.since + e.offFor) e.lastMsg e.old with
          | .ok u =>
            let kept := { u with lanes := { u.lanes with stowed := u.lanes.stowed.filter fun y => y.lane != j.lane } }
            some (selectBank (restoredWait kept q.val j.bank e.aborted) q.val)
          | .error p => some (restoreFailed t q.val p j e)
  | .stowDelivery q, s => do
      let (l, p) ← (getSeat s q.val).pendStow.head?
      whenever (asyncReady s q.val)
        (asyncTrap (modSeat s q.val fun x => { x with pendStow := x.pendStow.tail }) q.val 0o24 (BitVec.ofNat 36 l.toNat) p)
  | .pairMismatchDelivery q, s => do
      let l ← (getSeat s q.val).pendPair.head?
      whenever (asyncReady s q.val ∧ (getSeat s q.val).pendStow = [])
        (asyncTrap (modSeat s q.val fun x => { x with pendPair := x.pendPair.tail }) q.val 0o31 (BitVec.ofNat 36 l.toNat) 0)
  | .pairWaitExpiry c buf, s => do
      let p := getPair s (3 + c.val) buf.val
      let t ← p.waitFrom
      whenever (moduleRuns s ∧ p.used ∧ ¬p.toRef ∧ ¬(p.doneA ∧ p.doneB) ∧ t + p.wait ≤ s.time)
        (toReferee s (3 + c.val) buf.val)
  | .registerPass c, s =>
      let h := 3 + c.val
      let t := modCox ((crewSeats h).foldl (fun t q => if seatServes t q then modSeat t q (passSeat s) else t) s) h
        fun x => { x with passDue := none, pairs := x.pairs.map fun e => (e.1, passPair s e.2) }
      whenever (∃ w, (getCox s h).passDue = some w ∧ w / strokeNs (getCox s h) < s.time / strokeNs (getCox s h))
        { t with sys := { t.sys with vectors := passCaps s t.sys.vectors,
                                     regDone := (List.range 8).all fun i => (getCox t (3 + i)).passDue.isNone } }
  | .applySubstitution c, s =>
      let h := 3 + c.val
      whenever (s.pins.porN ∧ ¬dark s.power ∧ atBoundary s h)
        (clearTrig ((getCox s h).pendSub.foldl (substitute h) (modCox s h fun k => { k with pendSub := [] })) h)
  | .sparePowerOn c, s =>
      let h := 3 + c.val
      let q := 9 * c.val + 8
      let k := getCox s h
      whenever (s.pins.porN ∧ ¬dark s.power ∧ ((positionOf s h q).isSome ∨ ¬k.spent ∧ k.pendSub ≠ []) ∧
          (¬s.power.paddle ∨ s.power.crew = h) ∧ ¬(getSeat s q).powered ∧ (getSeat s q).checkStop = none ∧
          ¬(getSeat s q).gone)
        (coxWake (modSeat s q fun x => { x with powered := true, idle := true }) h)
  | .sampleTag q, s =>
      let x := getSeat s q.val
      let v := lfsrSteps 24 x.sampSeed
      whenever (seatServes s q.val ∧ sampleOn x ∧ ¬x.sampTag ∧ x.sampCount ≤ 1)
        (modSeat s q.val fun x =>
          { x with sampTag := true, sampSeed := v, sampCount := 2 ^ (x.sampK - 1) + v % 2 ^ x.sampK })
  | .sampleRecord q, s => do
      let y ← (getSeat s q.val).samples.head?
      let t := { modSeat s q.val (fun x => { x with samples := x.samples.tail }) with free := s.free + 1 }
      let l := (getSeat s q.val).sampLane.toNat
      if s.pins.porN ∧ dark s.power = false then
        if (classOf s l).map (clKind s) = some 5 then some (putOrHold t 0o200 none none l (sampleWords q.val s.free y)).2
        else some t
      else none
  | _, _ => none

end Sys2Proof.Machine
end

