-- ==== Sys2Proof/Certificates/Slice0/Obligations.lean ====
section
/-! DEFINITION. The statements for the provers, from the numbered rules of spec/. -/

open Sys2Proof Sys2Proof.Machine

/-- The command at the front of the queue runs on the state with the queue's rest. -/
def Obligations.StepRunsFrontCommand : Prop :=
  ∀ (s : State) (c : Instr) (cs : List Instr), s.pending = c :: cs → step s = exec c { s with pending := cs }

/-- With no command waiting, one nanosecond passes; at a stroke boundary of crew T the counter store keeps the counts
as they stand; and nothing else changes (the model's choice, log 12). -/
def Obligations.IdleStepIsOneTick : Prop :=
  ∀ s : State, s.pending = [] →
    ((s.time + 1) % (500 * ((getCox s 0).n + 1)) ≠ 0 → step s = .next { s with time := s.time + 1 }) ∧
    ((s.time + 1) % (500 * ((getCox s 0).n + 1)) = 0 →
      step s = .next { s with time := s.time + 1, galley := { s.galley with shadow := s.counters } })

/-- What reset leaves (02 R70, 03 R82, 04 R117, 10 R316, 17 R492): among it the root capabilities c1 to c7 with their
bounds, rights and sides, tagged, unsealed and GLOBAL, the cursor at BASE. The zero word registers and the zero words
of case are the model's choice (logs 1, 2). -/
def Obligations.ResetLeavesRootSeat : Prop :=
  let s := State.reset
  s.pending = [] ∧ s.time = 0 ∧ canIssue s 0 = true ∧
    statusOfSeat s 0 = { ring := 0, ringMode := false, wideOn := false, det := true, bank := 8, side := false, lvl := .M } ∧
    pccGet s 0 = bootRomCap ∧
    (∀ r, wGet s 0 r = 0) ∧
    (let memory := rRD + rWR + rEX + rRC + rWC + rWL + rGT + rSY
     ∀ e : Nat × Bool × Nat × Nat,
       e ∈ [(1, false, 2 ^ 36 - 1, memory), (2, true, 2 ^ 36 - 1, memory), (3, false, 65535, rSE + rUS),
            (4, true, 65535, rSE + rUS), (5, false, 65535, rLN), (6, true, 65535, rLN), (7, true, 1048575, rKY)] →
         let c := cGet s 0 e.1
         c.tag = true ∧ capSeal c = 0 ∧ capGlobal c = true ∧ capCursor c = 0 ∧ capBase c = 0 ∧ capSide c = e.2.1 ∧
           capLast c = e.2.2.1 ∧ capRights c = e.2.2.2) ∧
    (∀ r, 8 ≤ r → cGet s 0 r = capNull) ∧
    (∀ q, 1 ≤ q → q < 72 → canIssue s q = false) ∧
    (∀ a, memWord s.mem a = 0 ∧ memTag s.mem a = false) ∧
    (∀ d i, descWord s.fence d i = 0) ∧ s.power.paddle = false ∧ s.boot.done = false

/-- The state after reset meets the invariants that every step keeps: memory in canonical form, and sound capabilities
(02 R31, R34, R35, R70). That reset memory lists nothing is the model's choice (log 2). -/
def Obligations.ResetMeetsInvariants : Prop := State.reset.mem.wf = true ∧ CapsSound State.reset

/-- No well-formed command stops the block: every one of them answers a next state from every state. An engine command
of a code that is no platen, cipher or digest engine, a PARSE of a code that is no compositor, and an ENGINE_RESPONSE
of a code that is none of these stop with noSuchUnit (09 R277), and nothing else stops any command. The stop, and that
a command without its occasion is a next state, are the model's choices (logs 62, 11). -/
def Obligations.OnlyUnknownUnitsStop : Prop :=
  (∀ (c : Instr) (s : State), wellFormed c = true → ∃ t, exec c s = .next t) ∧
  (∀ (c : Instr) (s : State), (∃ t, exec c s = .next t) ∨ exec c s = .fault .noSuchUnit) ∧
  (∀ (u : UnitCode) (l : LaneNo) (s : State),
    (exec (.parse u l) s = .fault .noSuchUnit ↔ compositorCode u = false) ∧
    (exec (.engineResponse u l) s = .fault .noSuchUnit ↔
      (platenCode u || cipherCode u || digestCode u || compositorCode u) = false)) ∧
  (∀ (i : Instr) (u : UnitCode) (l : LaneNo) (op : Nat) (custody : Bool) (s : State), engineOf i = some (u, l, op, custody) →
    (exec i s = .fault .noSuchUnit ↔ (platenCode u || cipherCode u || digestCode u) = false))

/-- Decoding the word that encodes a legal seat instruction gives that instruction, with every field at every value
the encoding admits (04 R128 to R139); so does decoding the word of a cox instruction (08 R242, R243). -/
def Obligations.SeatDecodeOfEncode : Prop :=
  (∀ (i : Instr) (q : SeatNo), seatOf i = some q → seatLegal i = true →
    decodeSeat q (seatWord i) (seatImm i) = .ok i) ∧
  ∀ (i : Instr) (x : CoxNo) (w : Word), coxWord i = some (x, w) → decodeCox x w = some i

/-- The words of the rows that are a SYSRD or SYSWR of one word, or an STC to a fence descriptor, are the words of
those instructions (04 R137, 05 R179, 11 R356). A word of an unassigned major decodes to no instruction: ILLEGAL below
the attached block, the all-zero word and the KT1836 decimal majors among them, and ATTACHED within it (04 R137,
R138). -/
def Obligations.DecodingAndRefusal : Prop :=
  (∀ (i j : Instr) (q : SeatNo), sharedWord i = some j → seatOf j = some q → seatLegal i = true →
     seatWord i = seatWord j ∧ decodeSeat q (seatWord i) (seatImm i) = .ok j) ∧
  (∀ (q : SeatNo) (w imm : Word), let m := w.toNat / 2 ^ 29
     (m = 0 ∨ (5 ≤ m ∧ m ≤ 7) ∨ (0o020 ≤ m ∧ m ≤ 0o027) ∨ (0o031 ≤ m ∧ m ≤ 0o037) ∨
       (0o041 ≤ m ∧ m ≤ 0o047) ∨ (0o062 ≤ m ∧ m ≤ 0o067) ∨ (0o115 ≤ m ∧ m ≤ 0o117) ∨ m = 0o127 ∨ (0o133 ≤ m ∧ m ≤ 0o157) →
         decodeSeat q w imm = .error cILLEGAL) ∧
     ((0o165 ≤ m ∧ m ≤ 0o167) ∨ (0o171 ≤ m ∧ m ≤ 0o173) ∨ m = 0o175 ∨ m = 0o177 →
         decodeSeat q w imm = .error cATTACHED))

/-- The integer, shift, product and division instructions, EXTU, EXTS and INS, the immediate instructions and the
packed-octet instructions: w[rd] takes the number that 05 R143 to R150 state, MULD the pair of R147, the seat goes on,
and nothing else changes. Rows that complete: ADD, SUB, AND, OR, XOR, ANDN, SLT, SLTU, MIN, MAX, MINU, MAXU, CLZ,
POPC, ADDCO, MUL, MULH, MULHU, HSWAP, HADD, HSUB, HJOIN, HSX0, HSX1, SLL, SRL, SRA, ROL, SLLA, SRLA, SRAA, ROLA, MULD,
DIV, DIVU, REM, REMU, EXTU, EXTS, INS, ADDI, ANDI, ORI, XORI, SLTI, SLTIU, LIH, MULI, LI, ADDL, ANDL, ORL, XORL,
OPACK, OUNPK, OGET, OPUT, OCNT. -/
def Obligations.IntegerResults : Prop :=
  Completes integerResult ∧ Completes shiftResult ∧ Completes wideProductResult ∧ Completes divisionResult ∧
    Completes fieldResult ∧ Completes immediateResult ∧ Completes octetResult

/-- The fetch of an instruction changes no register of any seat, no PCC and no STATUS, and no state of the seat but
this: its TLB gains entries that cover the instruction, its walk cache the level-1 entries for them, and A is set, of
no other words than the entries that the translation of the fetch used (02 R56, 10 R346, R347), in the stick where the
seat keeps them there (06 R208); such an entry in the window of the code store is stale there (R209); UNTIMED and the
sampling count move. Every other word of memory stays, and every tag of a granule that holds no such entry; nothing
becomes poisoned; at M memory, TLB and walk cache stay. No other part of the block changes. No latent memory error is
there for the fetch to find (10 R321, R322, R334). -/
def Obligations.FetchChangesNoRegister : Prop :=
  ∀ (s s1 : State) (q : SeatNo) (i : Instr), Issues s q i s1 → s.mem.flips = [] → s.mem.rot = [] →
    let x := getSeat s q.val
    let y := getSeat s1 q.val
    let used := entriesUsed q.val (fetchAccess s q.val (seatLen i)) 8 false s
    let map := (if x.status.side then 128 else 0) + ctxMap (curBank x)
    let here := fun v => v = pcOf s q.val ∨ v = pcOf s q.val + 1
    (∀ p r, wGet s1 p r = wGet s p r ∧ cGet s1 p r = cGet s p r) ∧
    (∀ p, pccGet s1 p = pccGet s p ∧ statusOfSeat s1 p = statusOfSeat s p) ∧
    bareSeat y = bareSeat x ∧ (∀ p, p ≠ q.val → getSeat s1 p = getSeat s p) ∧
    { s1 with seats := [], counters := [], free := 0, mem := {} } = { s with seats := [], counters := [], free := 0, mem := {} } ∧
    (∀ a, a ∉ used → memWord s1.mem a = memWord s.mem a) ∧
    (∀ a, a ∈ used → memWord s1.mem a = memWord s.mem a ∨ memWord s1.mem a = memWord s.mem a ||| 4) ∧
    (∀ a, (∀ b ∈ used, b / 4 ≠ a / 4) → memTag s1.mem a = memTag s.mem a) ∧
    (∀ a, memTag s1.mem a = true → memTag s.mem a = true) ∧ (∀ a, poisonedAt s1.mem a = poisonedAt s.mem a) ∧
    (∀ k, k < 16384 → smGet 0 y.stick k = smGet 0 x.stick k ∨
      16384 * x.stickBase + k ∈ used ∧ x.stickUse = true ∧ smGet 0 y.stick k = smGet 0 x.stick k ||| 4) ∧
    (∀ g, g < 4096 → smGet false y.stickTag g = smGet false x.stickTag g ∨
      x.stickUse = true ∧ smGet false y.stickTag g = false ∧ ∃ a ∈ used, a / 4 = 4096 * x.stickBase + g) ∧
    (∀ k, k < 16384 → smGet false y.stale k = smGet false x.stale k ∨
      smGet false y.stale k = true ∧ x.codeOn = true ∧ 16384 * x.codeBase + k ∈ used) ∧
    (∀ e ∈ y.tlb, e ∈ x.tlb ∨ e.map / 128 = map / 128 ∧ ∃ v, here v ∧ tlbCovers e v = true) ∧
    (∀ w ∈ y.walks, w ∈ x.walks ∨ w.map = map ∧ ∃ v, here v ∧ w.idx = v / 2 ^ 24) ∧
    (levelOf s q.val = .M → used = [] ∧ s1.mem = s.mem ∧ y.tlb = x.tlb ∧ y.walks = x.walks)

/-- The instructions of R143 to R150 write their word registers and nothing else: every other word register, every
capability and wide register, STATUS, every other seat and all of memory stay as the fetch left them, and PCC moves
only its cursor. -/
def Obligations.RegisterInstructionsFrame : Prop :=
  ∀ (table : EffectTable), table ∈ [integerResult, shiftResult, fieldResult, immediateResult, octetResult, wideProductResult,
      divisionResult] →
    ∀ (i : Instr) (q : SeatNo) (f : State → Option State) (s s1 r : State) (rd : Reg),
      table i = some (q, f) → Issues s q i s1 → f s1 = some r → rd = (seatWord i).extractLsb' 24 5 →
      ∃ t, exec i s = .next t ∧
        (∀ k, k ≠ rd.toNat → ((wideProductResult i).isNone ∨ k ≠ rd.toNat + 1) → wGet t q.val k = wGet s1 q.val k) ∧
        (∀ k, cGet t q.val k = cGet s1 q.val k) ∧ (∀ k j, vGet t q.val k j = vGet s1 q.val k j) ∧
        statusOfSeat t q.val = statusOfSeat s1 q.val ∧
        pccGet t q.val = capSetCursor (pccGet s1 q.val) ((pcOf s1 q.val + seatLen i) % 2 ^ 36) ∧
        SeatAlone q.val s1 t

/-- A write of w0 or c0 is discarded, and any other register reads back what was written, alone (05 R141); c0 reads as
the null capability, of TAG 0 and four words zero (02 R30). -/
def Obligations.RegisterWritesReadBack : Prop :=
  ∀ (s : State) (q r p k : Nat) (w : Word) (c : Cap),
    wGet (wSet s q r w) p k = (if p = q ∧ k = r ∧ r ≠ 0 then w else wGet s p k) ∧
    cGet (cSet s q r c) p k = (if p = q ∧ k = r ∧ r ≠ 0 then c else cGet s p k) ∧
    cGet (wSet s q r w) p k = cGet s p k ∧ wGet (cSet s q r c) p k = wGet s p k ∧
    wGet s q 0 = 0 ∧ cGet s q 0 = { w0 := 0, w1 := 0, w2 := 0, w3 := 0, tag := false }

/-- CGETC, CGETB, CGETL, CGETP, CGETT and CTEST read a capability as data and CMOV copies it with its tag: none of
them traps; CINC, CINCI, CSETB, CSETBI, CANDR and CCLG write the derived capability, and CSEAL and CUNSEAL the sealed
or unsealed one, when the checks of 02 R44, R45, R59 and R60 pass (05 R160, R161). CINCI and CSETBI in ring mode are
the model's reading (log 32). Rows that complete: CGETC, CGETB, CGETL, CGETP, CGETT, CMOV, CTEST, CINC, CINCI, CSETB,
CSETBI, CANDR, CCLG, CSEAL, CUNSEAL. -/
def Obligations.CapabilityResults : Prop :=
  Completes capReadEffect ∧ Completes deriveEffect ∧ Completes sealEffect

/-- No derivation widens authority. A derivation that executes leaves in c[rd], where rd is not c0, a capability whose
bounds lie in the source's, with no right and no GLOBAL that the source lacks, unsealed and of its side (02 R45);
CSEAL and CUNSEAL leave one with the source's bounds, rights, side and cursor and no GLOBAL that it lacks, sealed by
CSEAL and unsealed by CUNSEAL (02 R43, R59, R60). One whose conditions fail writes no register and no word, unless the
M set is occupied and the seat ends in check stop (05 R141). That CINCI and CSETBI fail in ring mode is the model's
reading (log 32). A derivation into c0 is RegisterWritesReadBack's and CapabilityResults'. -/
def Obligations.DerivationsNeverWiden : Prop :=
  ∀ (i : Instr) (q : SeatNo) (f : State → Option State) (s s1 : State) (rd ca : Reg),
    deriveEffect i = some (q, f) ∨ sealEffect i = some (q, f) →
    rd = (seatWord i).extractLsb' 24 5 → ca = (seatWord i).extractLsb' 19 5 → rd ≠ 0 → Issues s q i s1 →
    let c := cGet s1 q.val ca.toNat
    ((f s1).isSome = true → ∃ t, exec i s = .next t ∧
      let n := cGet t q.val rd.toNat
      n.tag = true ∧ capBase c ≤ capBase n ∧ capLast n ≤ capLast c ∧ capRights n &&& (0xFFF - capRights c) = 0 ∧
        (capGlobal n = true → capGlobal c = true) ∧ capSide n = capSide c ∧
        ((deriveEffect i).isSome = true → capSeal n = 0) ∧
        ((sealEffect i).isSome = true → capBase n = capBase c ∧ capLast n = capLast c ∧ capRights n = capRights c ∧
          capCursor n = capCursor c ∧
          ((∃ cb, i = .cseal q rd ca cb) → capSeal n ≠ 0 ∧ capGlobal n = capGlobal c) ∧
          ((∃ cb, i = .cunseal q rd ca cb) → capSeal n = 0))) ∧
    (f s1 = none → ∃ t, exec i s = .next t ∧ (occupied (getSeat s1 q.val).svM = false → WritesNothing q.val s1 t))

/-- B, J, JAL, CINVOKE and CALLG go on where 05 R162 and R170, 02 R61 and 03 R90 to R107 say; RET returns, releases
the seat or returns from a ring, and END ends the activation (05 R164, R165). After the END of a running bank, or at M
of the one that the M set names, the bank is FREE, no save set that names it is OCCUPIED, its wide file is gone, and
the seat is idle or runs its highest bank, if that is READY and no asynchronous trap is pending (05 R165, 07 R224, 08
R254): where no bank of the seat is pair-checked, and the end reports nothing, as its lane is not CLOSING, is reached,
and at M has no reject lane. After a release the M set is not OCCUPIED (07 R231). What CINVOKE and CALLG leave in the
registers is GateResults'. The pair's SIDE, and an END at M under a waiting way-enough, are the model's readings (logs
14, 31). Rows that complete: B, J, JAL, CINVOKE, CALLG, RET, END. -/
def Obligations.ControlResults : Prop :=
  CompletesPlaced jumpEffect ∧ CompletesPlaced leaveEffect ∧
  (∀ (s s1 : State) (q : SeatNo), Issues s q (.endAct q) s1 →
    let x := getSeat s1 q.val
    let b := if x.status.lvl = .M then saveBank x.svM else x.status.bank
    let l := (getBank x b).lane.toNat
    b < 8 → (x.status.lvl = .M → occupied x.svM = true ∧ ∀ k, classOf s1 l = some k →
      clReject s1 k = l ∨ classOf s1 (clReject s1 k) = none) →
    (getBank x b).st = .running → (∀ c, c < 8 → (getBank x c).role = .none) → s1.mem.flips = [] → s1.mem.rot = [] →
    descReads s1 l 1 = true → (laneSt s1 l).state ≠ lsClosing →
    ∃ t, exec (.endAct q) s = .next t ∧
      let y := getSeat t q.val
      (getBank y b).st = .free ∧ (∀ v ∈ [y.svStroke, y.svBow, y.svM], saveBank v = b → occupied v = false) ∧
      (x.wideOwned = true → x.wideOwner = b → y.wideOwned = false) ∧
      ((∀ c, c < 8 → c ≠ b → bankAsks (getBank x c).st = false) → y.idle = true) ∧
      (∀ c, c < 8 → c ≠ b → (getBank x c).st = .ready → (∀ d, c < d → d < 8 → d ≠ b → bankAsks (getBank x d).st = false) →
        (∀ v ∈ [x.svStroke, x.svBow, x.svM], occupied v = true → saveBank v = b) →
        x.pendStow = [] → x.pendPair = [] → residDue s1.time x = false →
        y.idle = false ∧ y.status.bank = c ∧ (getBank y c).st = .running)) ∧
  (∀ (s s1 : State) (q : SeatNo), Issues s q (.ret q) s1 → levelOf s1 q.val = .M →
    let x := getSeat s1 q.val
    occupied x.svM = false ∨ (saveBank x.svM = 8 ∧ x.svM.pcc.tag = false) → (∀ c, c < 8 → (getBank x c).role = .none) →
    ∃ t, exec (.ret q) s = .next t ∧ occupied (getSeat t q.val).svM = false ∧
      ((∀ c, c < 8 → bankAsks (getBank x c).st = false) → (getSeat t q.val).idle = true))

/-- What a CINVOKE whose checks pass leaves in the bank in use, by its four cases: PCC and c14 take the gate pair,
unsealed, and w1 to w31, c1 to c7, every other bank and memory stay. A call links PCC and c14 into c12 and c13 under
CUR_SEAL, or writes null when that is 0, and takes the gate seal (03 R90); a crossing into bow side links them under
seal 65,534 and keeps the caller in XCTX, XRET_PC and XRET_DB; a crossing back takes CUR_SEAL, MAPID and the level
from XCTX (R96); at M c12 and c13 are null and SIDE is the gate's (R100). CALLG leaves the address behind it in w31
and goes on at its target; below its ring it pushes the frame and takes the ring limit (R106, R107). The checks are
those of 02 R61 and 03 R94, R106; that the pair's SIDE is the code gate's, and the state in which a gate word is
found, are the model's readings (logs 14, 67). A CALLG at DEPTH 3 leaves a free value (log 68). Rows that complete:
CINVOKE, CALLG. -/
def Obligations.GateResults : Prop :=
  (∀ (s s1 : State) (q : SeatNo) (ca cb : Reg), let a := cGet s1 q.val ca.toNat
    let x := getSeat s1 q.val
    let o := curBank x
    Issues s q (.cinvoke q ca cb) s1 → gateOpens s1 q a (cGet s1 q.val cb.toNat) = true →
    ∃ t, exec (.cinvoke q ca cb) s = .next t ∧ t.mem = s1.mem ∧
      let y := getSeat t q.val
      let n := getBank y x.status.bank
      n.pcc = unsealed a ∧ bankC n 14 = unsealed (cGet s1 q.val cb.toNat) ∧ (∀ r, bankW n r = bankW o r) ∧
      (∀ r, r < 8 → bankC n r = bankC o r) ∧ (∀ b, b ≠ x.status.bank → getBank y b = getBank x b) ∧ n.ringLink = o.ringLink ∧
      (x.status.lvl = .M → y.status = { x.status with side := capSide a } ∧ bankC n 12 = capNull ∧ bankC n 13 = capNull ∧
        (∀ r, r = 8 ∨ r = 9 ∨ r = 10 ∨ r = 11 ∨ r = 15 → bankC n r = bankC o r) ∧ curSeal n = capSeal a ∧ ctxMap n = ctxMap o ∧
        n.xctx = o.xctx ∧ n.xretPc = o.xretPc ∧ n.xretDb = o.xretDb) ∧
      (x.status.lvl ≠ .M → (∀ r, r = 8 ∨ r = 9 ∨ r = 10 ∨ r = 11 ∨ r = 15 → bankC n r = capNull)) ∧
      (x.status.lvl ≠ .M → capSide a = x.status.side → y.status = x.status ∧ curSeal n = capSeal a ∧ ctxMap n = ctxMap o ∧
        n.xctx = o.xctx ∧ n.xretPc = o.xretPc ∧ n.xretDb = o.xretDb ∧
        (curSeal o = 0 → bankC n 12 = capNull ∧ bankC n 13 = capNull) ∧
        (curSeal o ≠ 0 → LinkOf (bankC n 12) (returnPoint o) (curSeal o) ∧ LinkOf (bankC n 13) (bankC o 14) (curSeal o))) ∧
      (x.status.lvl ≠ .M → x.status.side = false → capSide a = true →
        y.status = { x.status with side := true, lvl := .U, wideOn := false } ∧ curSeal n = 65534 ∧ ctxMap n = 0 ∧
        LinkOf (bankC n 12) (returnPoint o) 65534 ∧ LinkOf (bankC n 13) (bankC o 14) 65534 ∧
        bits n.xctx 35 20 = curSeal o ∧ bit n.xctx 9 = (x.status.lvl == .S) ∧ bit n.xctx 8 = true ∧ bits n.xctx 6 0 = ctxMap o ∧
        n.xctx &&& 0o000003776200 = 0 ∧ n.xretPc = o.pcc.w0 + 1 ∧ n.xretDb = (bankC o 14).w1) ∧
      (x.status.lvl ≠ .M → x.status.side = true → capSide a = false →
        y.status = { x.status with side := false, lvl := if bit o.xctx 9 then .S else .U, wideOn := false } ∧
        curSeal n = bits o.xctx 35 20 ∧ ctxMap n = bits o.xctx 6 0 ∧ bankC n 12 = capNull ∧ bankC n 13 = capNull ∧
        n.xctx = o.xctx &&& 0o777777777377 ∧ n.xretPc = o.xretPc ∧ n.xretDb = o.xretDb)) ∧
  (∀ (s s1 e : State) (q : SeatNo) (ra : Reg) (imm : BitVec 19) (a : Nat) (g : Region), let x := getSeat s1 q.val
    let o := curBank x
    let ring := x.status.ring.toNat
    let d := ringDepth o.ringLink
    Issues s q (.callg q ra imm) s1 → x.status.lvl = .U → x.status.ringMode = true → gateEntry s1 q ra imm = some (a, g, e) →
    ∃ t, exec (.callg q ra imm) s = .next t ∧ (a : Int) = (wGet s1 q.val ra.toNat).toNat + imm.toInt ∧ g.ringlim ≤ ring ∧
      pcOf t q.val = a ∧ wGet t q.val 31 = BitVec.ofNat 36 (pcOf s1 q.val + 1) ∧
      (∀ r, r ≠ 31 → wGet t q.val r = wGet s1 q.val r) ∧ (∀ r, cGet t q.val r = cGet s1 q.val r) ∧
      let y := getSeat t q.val
      let n := curBank y
      (g.ringlim = ring → y.status = x.status ∧ n.ringLink = o.ringLink) ∧
      (g.ringlim < ring → y.status = { x.status with ring := BitVec.ofNat 2 g.ringlim } ∧
        (d < 3 → ringDepth n.ringLink = d + 1 ∧ ringFrame n.ringLink d = (ring, g.ringlim) ∧
          ∀ k, k < d → ringFrame n.ringLink k = ringFrame o.ringLink k)))

/-- What RET restores of a save set that passes R232: at S PCC, c13, STATUS and the progress word, with OCCUPIED
clear; at M the same but for c13, STATUS whole but BANK and WIDE_ON, unless a way-enough of the bank waits for the
return (R237); and the word registers stay (07 R230). That a DET which DET_CTL.FORCE alone gave the trapped activation
is not restored as its own (det && !v.forced) is the model's reading of 06 R206 (log 71). -/
def Obligations.ReturnRestoresSaveSet : Prop :=
  (∀ (s s1 : State) (q : SeatNo), Issues s q (.ret q) s1 → levelOf s1 q.val = .S →
    let x := getSeat s1 q.val
    let v := if x.status.side then x.svBow else x.svStroke
    PairSound s1 q.val (saveBank v) → returnFail x false v = 0 → ∃ t, exec (.ret q) s = .next t ∧
      let y := getSeat t q.val
      let b := saveBank v
      y.status = { ring := BitVec.ofNat 2 (bits v.st 12 11), ringMode := bit v.bank 7, wideOn := false,
                   det := bit v.bank 6 && !v.forced,
                   bank := b, side := bit v.st 2, lvl := lvlOf (bits v.st 1 0) } ∧
      (getBank y b).pcc = v.pcc ∧ bankC (getBank y b) 13 = v.granB ∧ (getBank y b).progress = v.prog ∧
      occupied (if x.status.side then y.svBow else y.svStroke) = false ∧
      (∀ r, bankW (getBank y b) r = bankW (getBank x b) r) ∧
      (∀ r, r ≠ 13 → bankC (getBank y b) r = bankC (getBank x b) r)) ∧
  (∀ (s s1 : State) (q : SeatNo), Issues s q (.ret q) s1 → levelOf s1 q.val = .M →
    let x := getSeat s1 q.val
    let v := x.svM
    let b := saveBank v
    occupied v = true → returnFail x true v = 0 → (getBank x b).abortHeld = false → PairSound s1 q.val b →
    ∃ t, exec (.ret q) s = .next t ∧
      let y := getSeat t q.val
      y.status = { ring := BitVec.ofNat 2 (bits v.st 12 11), ringMode := bit v.st 10, wideOn := false,
                   det := bit v.st 8 && !v.forced,
                   bank := b, side := bit v.st 2, lvl := lvlOf (bits v.st 1 0) } ∧
      (getBank y b).pcc = v.pcc ∧ (getBank y b).progress = v.prog ∧ occupied y.svM = false ∧
      (∀ r, bankW (getBank y b) r = bankW (getBank x b) r ∧ bankC (getBank y b) r = bankC (getBank x b) r))

/-- SYNCI, the FENCE forms, FENCEW, SEALSYNC and MAPSYNC (05 R166 to R168, 02 R67). SYNCI reloads the stale words of
the code store from the stick or case, and no other (06 R209); a word that the fence refuses or that is uncorrectable
arrives as zero, which is the model's reading (log 119). A SEALSYNC before which an operation under a replaced seal
bit has still to complete stays where it is and changes nothing (02 R67), and so does a FENCEW while a store that was
checked before the seat's last write of a descriptor waits in a pair buffer (11 R366). That the FENCE forms only
advance, and what FENCEW waits for, are the model's choice and reading (log 15), which operations SEALSYNC waits for
is its reading (log 88), and the elapsed time of MAPSYNC is free (log 5). Rows that complete: SYNCI, FENCE_FULL,
FENCE_ACQUIRE, FENCE_RELEASE, FENCEW, SEALSYNC, MAPSYNC_ALL, MAPSYNC_MAP, MAPSYNC_PAGE. -/
def Obligations.SynchronisingResults : Prop :=
  Completes syncEffect ∧
  (∀ (s s1 : State) (q : SeatNo), Issues s q (.synci q) s1 → s1.mem.flips = [] → s1.mem.rot = [] →
    let x := getSeat s1 q.val
    ∃ t, exec (.synci q) s = .next t ∧ t.mem = s1.mem ∧
      let y := getSeat t q.val
      y.stale = [] ∧ y.stick = x.stick ∧
      ∀ i, smGet 0 y.code i =
        let a := 16384 * x.codeBase + i
        if i ∈ x.stale.map Prod.fst then
          (if (fenceCheck s1 (atMReq 0 a 1 false)).isOk = true ∧ (inStick x a = true ∨ poisonedAt s1.mem a = false) then
            seatWordAt s1 q.val a else 0)
        else smGet 0 x.code i) ∧
  (∀ (s s1 : State) (q : SeatNo), Issues s q (.sealsync q) s1 → levelOf s1 q.val = .M →
    (∃ j ∈ s1.engines.jobs, q.val ∈ j.sealWaits) →
    ∃ t, exec (.sealsync q) s = .next t ∧ quiet q.val t = quiet q.val s1) ∧
  (∀ (s s1 : State) (q : SeatNo), Issues s q (.fencew q) s1 → levelOf s1 q.val ≠ .U → fenceAwaits s1 q.val = true →
    ∃ t, exec (.fencew q) s = .next t ∧ quiet q.val t = quiet q.val s1)

/-- FENCEW and MAPSYNC at U, and SEALSYNC below M, raise ILLEGAL (05 R162); so does RET at U outside ring mode (R164).
A system word that a seat may not reach raises SYSWORD with the word's number, and an access by code without SY raises
RIGHTS, for SYSRD and SYSWR (04 R125); that SV_ADDR then records PCC's cursor is the model's choice (log 116). Which
sets a write of SV_XFER may select is not this statement's. A division by zero raises DIVZERO at the instruction's own
address (R145) and, unless the M set is occupied and the seat ends in check stop, writes no register and no word
(R141). -/
def Obligations.RefusedInstructionsTrap : Prop :=
  (∀ (i : Instr) (q : SeatNo) (s s1 : State),
     ((i = .fencew q ∨ i = .mapsyncAll q ∨ (∃ ra, i = .mapsyncMap q ra) ∨ ∃ ra rb, i = .mapsyncPage q ra rb) ∧ levelOf s1 q.val = .U ∨
       i = .sealsync q ∧ levelOf s1 q.val ≠ .M ∨
       i = .ret q ∧ levelOf s1 q.val = .U ∧ inRing s1 q.val = false) →
     Issues s q i s1 → ∃ t, exec i s = .next t ∧
       quiet q.val t = quiet q.val (takeTrap (modCur s1 q.val fun b => { b with progress := 0 }) q.val
         { cause := 0o17, addr := (pccGet s q.val).w0, aux := seatWord i })) ∧
  (∀ (s s1 : State) (q : SeatNo) (rd : Reg) (sw : BitVec 12), Issues s q (.sysrd q rd sw) s1 →
     (sysAllowed (statusOfSeat s1 q.val) sw.toNat false = false →
       ∃ t, exec (.sysrd q rd sw) s = .next t ∧
         quiet q.val t = quiet q.val (takeTrap (modCur s1 q.val fun b => { b with progress := 0 }) q.val
           { cause := 0o27, addr := BitVec.ofNat 36 sw.toNat })) ∧
     (sysAllowed (statusOfSeat s1 q.val) sw.toNat false = true → holds (capRights (pccGet s1 q.val)) rSY = false →
       ∃ t, exec (.sysrd q rd sw) s = .next t ∧
         quiet q.val t = quiet q.val (takeTrap (modCur s1 q.val fun b => { b with progress := 0 }) q.val
           { cause := 0o04, addr := (pccGet s1 q.val).w0 }))) ∧
  (∀ (s s1 : State) (q : SeatNo) (ra : Reg) (sw : BitVec 12), Issues s q (.syswr q ra sw) s1 →
     (sysAllowed (statusOfSeat s1 q.val) sw.toNat true = false →
       ∃ t, exec (.syswr q ra sw) s = .next t ∧
         quiet q.val t = quiet q.val (takeTrap (modCur s1 q.val fun b => { b with progress := 0 }) q.val
           { cause := 0o27, addr := BitVec.ofNat 36 sw.toNat })) ∧
     (sysAllowed (statusOfSeat s1 q.val) sw.toNat true = true → sw ≠ 0o164 →
       holds (capRights (pccGet s1 q.val)) rSY = false →
       ∃ t, exec (.syswr q ra sw) s = .next t ∧
         quiet q.val t = quiet q.val (takeTrap (modCur s1 q.val fun b => { b with progress := 0 }) q.val
           { cause := 0o04, addr := (pccGet s1 q.val).w0 }))) ∧
  (∀ (i : Instr) (q : SeatNo) (rd ra rb : Reg) (s s1 : State),
    (i = .div q rd ra rb ∨ i = .divu q rd ra rb ∨ i = .rem q rd ra rb ∨ i = .remu q rd ra rb) →
    Issues s q i s1 → wGet s1 q.val rb.toNat = 0 →
    ∃ t, exec i s = .next t ∧
      quiet q.val t = quiet q.val (takeTrap (modCur s1 q.val fun b => { b with progress := 0 }) q.val
        { cause := 0o22, addr := (pccGet s1 q.val).w0 }) ∧
      (occupied (getSeat s1 q.val).svM = false → WritesNothing q.val s1 t))

/-- TRAP raises CALL with SV_ADDR its immediate and SV_PCC its own address (05 R163), and a word with no instruction
raises the cause of its decode (04 R130). Rows that complete: TRAP, UNASSIGNED_OPCODE. -/
def Obligations.TrapAndUnassignedWordsTrap : Prop :=
  (∀ (q : SeatNo) (imm : BitVec 19) (s s1 : State), Issues s q (.trap q imm) s1 →
    ∃ t, exec (.trap q imm) s = .next t ∧
      quiet q.val t = quiet q.val (takeTrap (modCur s1 q.val fun b => { b with progress := 0 }) q.val
        { cause := 0o30, addr := imm.signExtend 36 }) ∧
      let x := getSeat s1 q.val
      let set := fun y : Seat => if trapToM x { cause := 0o30, addr := imm.signExtend 36 } then y.svM
        else if x.status.side then y.svBow else y.svStroke
      (x.status.bank < 8 ∨ trapToM x { cause := 0o30, addr := imm.signExtend 36 } = true ∧ x.status.bank = 8) →
        mHeld s1 = false → occupied (set x) = false →
        (set (getSeat t q.val)).pcc = pccGet s1 q.val ∧ (set (getSeat t q.val)).addr = imm.signExtend 36 ∧
          bits (set (getSeat t q.val)).cause 5 0 = 0o30) ∧
  (∀ (q : SeatNo) (w imm : Word) (k : Nat) (s : State) (p : Passed), canIssue s q.val = true → pairOver s q.val = false →
    decodeSeat q w imm = .error k → w.toNat / 2 ^ 29 ≠ 0o030 →
    accessAll q.val [fetchAccess s q.val 1] s = .ok p →
    ∃ t, exec (.unassignedOpcode q w imm) s = .next t ∧
      quiet q.val t = quiet q.val (takeTrap
        (modCur (modSeat p.st q.val decoded) q.val fun b => { b with progress := 0 }) q.val
        { cause := if inRing s q.val then 0o17 else k, addr := (pccGet s q.val).w0, aux := w }))

/-- Taking a trap to S writes the side's save set, with STATUS as it reads, DET_CTL.FORCE included (07 R217, 06 R206),
and enters S at the side's vector (07 R213 to R220). That the words of a vector without EX arrive in PCC without their
tag is the model's reading of 02 R33 (log 89). -/
def Obligations.TrapEntersSupervisor : Prop :=
  ∀ (s : State) (q : Nat) (t : Trap), trapToM (getSeat s q) t = false → (getSeat s q).status.bank < 8 →
    let x := getSeat s q
    let v0 := if x.status.side then x.svBow else x.svStroke
    occupied v0 = false →
    let y := getSeat (takeTrap s q t) q
    let v := if x.status.side then y.svBow else y.svStroke
    v.pcc = (curBank x).pcc ∧ v.granB = bankC (curBank x) 13 ∧ v.st = statusWord (liveStatus x) ∧ v.addr = t.addr ∧
      v.aux = t.aux ∧ v.prog = t.prog ∧ bits v.cause 5 0 = t.cause % 64 ∧ occupied v = true ∧
      saveBank v = x.status.bank ∧
      y.status = { x.status with lvl := .S, ringMode := false, ring := 0, wideOn := false } ∧
      (let c := smGet {} s.sys.vectors (if x.status.side then 8 else 6)
       (curBank y).pcc = { c with tag := c.tag && holds (capRights c) rEX }) ∧
      bankC (curBank y) 13 = smGet {} s.sys.vectors (if x.status.side then 9 else 7) ∧
      (∀ r, bankW (curBank y) r = bankW (curBank x) r) ∧ y.svM = x.svM

/-- Taking a trap to M writes the M set and enters M in bank T at the M vector; a DOUBLE is taken to M when the S set
is OCCUPIED, and with the M set OCCUPIED the seat goes into check stop (07 R213 to R223, R234). That the words of a
vector without EX arrive in PCC without their tag is the model's reading of 02 R33 (log 89). A seat in check stop
issues nothing, is idle, and has no post waiting for its stow engine; ERR_N is low, and its cox has the substitution
to apply, or an unused spare spent, in a crew where no other check stop is in effect (07 R235, 08 R271, 16 R468). -/
def Obligations.TrapEntersMonitor : Prop :=
  (∀ (s : State) (q : Nat) (t : Trap), mHeld s = false → occupied (getSeat s q).svM = false →
     (getSeat s q).status.bank ≤ 8 →
     let x := getSeat s q
     let double := !trapToM x t
     (double = true → occupied (if x.status.side then x.svBow else x.svStroke) = true) →
     let y := getSeat (takeTrap s q t) q
     y.svM.pcc = (curBank x).pcc ∧ y.svM.st = statusWord (liveStatus x) ∧ y.svM.addr = t.addr ∧ y.svM.aux = t.aux ∧
       bits y.svM.cause 5 0 = (if double then 0o25 else t.cause % 64) ∧ occupied y.svM = true ∧
       saveBank y.svM = x.status.bank ∧
       y.status = { x.status with lvl := .M, bank := 8, ringMode := false, ring := 0, wideOn := false } ∧
       (let c := smGet {} s.sys.vectors 10
        (getBank y 8).pcc = { c with tag := c.tag && holds (capRights c) rEX }) ∧
       (∀ r, bankW (getBank y x.status.bank) r = bankW (curBank x) r) ∧
       y.svStroke = x.svStroke ∧ y.svBow = x.svBow) ∧
  (∀ (s : State) (q : Nat) (t : Trap), levelOf s q = .M → occupied (getSeat s q).svM = true →
     takeTrap s q t = checkStop s q ∧
     ((getSeat s q).checkStop = none → (getCox s (leafOf q)).pendSub = [] →
       (∀ r ∈ crewSeats (leafOf q), (getSeat s r).checkStop = none) →
       let u := takeTrap s q t
       (getSeat u q).checkStop.isSome = true ∧ (getSeat u q).idle = true ∧ (getSeat u q).stow = [] ∧
         canIssue u q = false ∧ errLow u = true ∧ (q ∈ (getCox u (leafOf q)).pendSub ∨ (getCox u (leafOf q)).spent = true)))

/-- The wide instructions on registers write the stated words when the bank in use owns the wide file, CXENC and CXDEC
under a key handle that passes R183, VLD and VST under an access that passes 02 R48 (05 R181 to R185); one of a bank
that does not own the wide file raises WIDE_OFF and has no effect (04 R122). The cipher is PRESUMED from its standard
(log 10). Rows that complete: VADD, VSUB, VAND, VOR, VXOR, VANDN, VCMPEQ, VADDW, VSUBW, VSHLW, VSHRW, VINS, VEXT,
VSPLAT, DGS256, PMUL18, PMAC18, CXENC, CXDEC, VLD, VST. -/
def Obligations.WideResults : Prop :=
  Completes wideEffect ∧ Completes wideKeyEffect ∧
  (∀ (i : Instr) (q : SeatNo) (f : State → Option State) (s s1 : State),
     wideEffect i = some (q, f) ∨ wideKeyEffect i = some (q, f) → Issues s q i s1 → inRing s1 q.val = false →
     (statusOfSeat s1 q.val).wideOn = false →
     ((getSeat s1 q.val).wideOwned = false ∨ (getSeat s1 q.val).wideOwner ≠ (statusOfSeat s1 q.val).bank) →
     ∃ t, exec i s = .next t ∧
       quiet q.val t = quiet q.val (takeTrap (modCur s1 q.val fun b => { b with progress := 0 }) q.val
         { cause := 0o21, addr := (pccGet s1 q.val).w0 }))

/-- LDW, LDD and LDC under an access that passes 02 R48 write what they read, and STW, STD, STC and
FENCE_DESCRIPTOR_WRITE store their words (05 R151, 02 R37, R38, 11 R356). What a ring-mode LDW or LDD leaves that
updates the base it loads is a free value (log 13). Rows that complete: LDW, LDD, LDC, STW, STD, STC,
FENCE_DESCRIPTOR_WRITE. -/
def Obligations.LoadAndStoreResults : Prop :=
  Completes loadEffect ∧ Completes storeEffect

/-- A load at M through a capability that reaches plain words of case gives what memory holds there, and memory stays
as it is: LDW one word, LDD a pair, LDC a granule with its tag when the capability has RC and no armed range matches
(05 R151, 02 R37, R48). A load from the window of the bound stick gives what the stick holds, whatever case holds
there (06 R208). The base moves in modes 1 and 2 alone (04 R135). Rows that complete: LDW, LDD, LDC. -/
def Obligations.PlainLoadsReadMemory : Prop :=
  ∀ (s s1 : State) (q : SeatNo) (rd : Reg) (m : MemOp) (a : Nat),
    (Issues s q (.ldw q rd m) s1 → memEa s1 q.val m 1 = a → memBadIndex s1 q.val m = false → PlainSpan s1 q a 1 →
      Reaches (cGet s1 q.val m.ca.toNat) a 1 rRD →
      ∃ t, exec (.ldw q rd m) s = .next t ∧ t.mem = s1.mem ∧
        wGet t q.val rd.toNat = (if rd = 0 then 0 else memWord s1.mem a) ∧
        (∀ r, r ≠ rd.toNat → wGet t q.val r = wGet s1 q.val r) ∧
        (∀ r, (r ≠ m.ca.toNat ∨ m.updates = false) → cGet t q.val r = cGet s1 q.val r)) ∧
    (Issues s q (.ldd q rd m) s1 → memEa s1 q.val m 2 = a → memBadIndex s1 q.val m = false → a % 2 = 0 →
      PlainSpan s1 q a 2 → Reaches (cGet s1 q.val m.ca.toNat) a 2 rRD →
      ∃ t, exec (.ldd q rd m) s = .next t ∧ t.mem = s1.mem ∧
        wGet t q.val rd.toNat = (if rd = 0 then 0 else memWord s1.mem a) ∧
        wGet t q.val (rd.toNat + 1) = memWord s1.mem (a + 1) ∧
        (∀ r, r ≠ rd.toNat → r ≠ rd.toNat + 1 → wGet t q.val r = wGet s1 q.val r)) ∧
    (Issues s q (.ldc q rd m) s1 → memEa s1 q.val m 4 = a → memBadIndex s1 q.val m = false → a % 4 = 0 →
      PlainSpan s1 q a 4 → Reaches (cGet s1 q.val m.ca.toNat) a 4 rRD → rd ≠ 0 →
      ∃ t, exec (.ldc q rd m) s = .next t ∧ t.mem = s1.mem ∧
        let c := cGet t q.val rd.toNat
        c.w0 = memWord s1.mem a ∧ c.w1 = memWord s1.mem (a + 1) ∧ c.w2 = memWord s1.mem (a + 2) ∧
          c.w3 = memWord s1.mem (a + 3) ∧
          (c.tag = true ↔ memTag s1.mem a = true ∧ holds (capRights (cGet s1 q.val m.ca.toNat)) rRC = true ∧
            sweepHit s1 { c with tag := true } = false) ∧
          ∀ r, wGet t q.val r = wGet s1 q.val r) ∧
    (Issues s q (.ldw q rd m) s1 → memEa s1 q.val m 1 = a → memBadIndex s1 q.val m = false → StickSpan s1 q a 1 →
      Reaches (cGet s1 q.val m.ca.toNat) a 1 rRD →
      ∃ t, exec (.ldw q rd m) s = .next t ∧ t.mem = s1.mem ∧ (getSeat t q.val).stick = (getSeat s1 q.val).stick ∧
        wGet t q.val rd.toNat = (if rd = 0 then 0 else smGet 0 (getSeat s1 q.val).stick (a % 16384)) ∧
        (∀ r, r ≠ rd.toNat → wGet t q.val r = wGet s1 q.val r))

/-- A store at M through a capability that reaches plain words of case writes those words and no other, and clears the
tag of their granule: STW one word, STD a pair, STC a granule, whose tag is the capability's (05 R151, 02 R37 to R39).
A store to the window of the bound stick writes the stick and leaves memory (06 R208), and one to the code store's
window marks its word stale there, which keeps its old encoding (06 R209). Rows that complete: STW, STD, STC. -/
def Obligations.PlainStoresWriteMemory : Prop :=
  ∀ (s s1 : State) (q : SeatNo) (rd : Reg) (m : MemOp) (a : Nat),
    (Issues s q (.stw q rd m) s1 → memEa s1 q.val m 1 = a → memBadIndex s1 q.val m = false → PlainSpan s1 q a 1 →
      Reaches (cGet s1 q.val m.ca.toNat) a 1 rWR →
      ∃ t, exec (.stw q rd m) s = .next t ∧
        (∀ b, memWord t.mem b = if b = a then wGet s1 q.val rd.toNat else memWord s1.mem b) ∧
        (∀ b, memTag t.mem b = (decide (b / 4 ≠ a / 4) && memTag s1.mem b)) ∧
        (∀ r, wGet t q.val r = wGet s1 q.val r)) ∧
    (Issues s q (.std q rd m) s1 → memEa s1 q.val m 2 = a → memBadIndex s1 q.val m = false → a % 2 = 0 →
      PlainSpan s1 q a 2 → Reaches (cGet s1 q.val m.ca.toNat) a 2 rWR →
      ∃ t, exec (.std q rd m) s = .next t ∧
        (∀ b, memWord t.mem b = if b = a then wGet s1 q.val rd.toNat
          else if b = a + 1 then wGet s1 q.val (rd.toNat + 1) else memWord s1.mem b) ∧
        (∀ b, memTag t.mem b = (decide (b / 4 ≠ a / 4) && memTag s1.mem b)) ∧
        (∀ r, wGet t q.val r = wGet s1 q.val r)) ∧
    (Issues s q (.stc q rd m) s1 → memEa s1 q.val m 4 = a → memBadIndex s1 q.val m = false → a % 4 = 0 →
      PlainSpan s1 q a 4 → Reaches (cGet s1 q.val m.ca.toNat) a 4 rWR →
      let c := cGet s1 q.val rd.toNat
      (c.tag = true → holds (capRights (cGet s1 q.val m.ca.toNat)) rWC = true ∧
        (capGlobal c = true ∨ holds (capRights (cGet s1 q.val m.ca.toNat)) rWL = true)) →
      ∃ t, exec (.stc q rd m) s = .next t ∧
        (∀ b, memWord t.mem b = if b = a then c.w0 else if b = a + 1 then c.w1 else if b = a + 2 then c.w2
          else if b = a + 3 then c.w3 else memWord s1.mem b) ∧
        (∀ b, memTag t.mem b = if b / 4 = a / 4 then c.tag else memTag s1.mem b) ∧
        (∀ r, wGet t q.val r = wGet s1 q.val r)) ∧
    (Issues s q (.stw q rd m) s1 → memEa s1 q.val m 1 = a → memBadIndex s1 q.val m = false → StickSpan s1 q a 1 →
      Reaches (cGet s1 q.val m.ca.toNat) a 1 rWR →
      ∃ t, exec (.stw q rd m) s = .next t ∧ t.mem = s1.mem ∧
        let x := getSeat s1 q.val
        let y := getSeat t q.val
        (∀ i, smGet 0 y.stick i = if i = a % 16384 then wGet s1 q.val rd.toNat else smGet 0 x.stick i) ∧
        (∀ g, smGet false y.stickTag g = (decide (g ≠ a % 16384 / 4) && smGet false x.stickTag g)) ∧
        y.code = x.code ∧ (∀ i, smGet false y.stale i = (smGet false x.stale i || (inCode x a && decide (i = a % 16384)))) ∧
        (∀ p, p ≠ q.val → getSeat t p = getSeat s1 p) ∧ ∀ r, wGet t q.val r = wGet s1 q.val r)

/-- LDM loads the selected registers from consecutive words, in ascending order, and STM stores them, each over plain
words of case at M and on a fresh start (05 R152, R159). MOVW copies a block of words to a block that does not overlap
it, in either direction, and FILLW fills one: over plain words of case at M, on a fresh start, with no trap and no
pre-emption pending that stops them part-way (R158). No other word changes, and no register (05 R154, R159); STM, MOVW
and FILLW clear the tag of every granule in which they write a word, and no other (02 R37). One whose capability ends
after j of the words moves those j and traps BOUNDS on the next, with what is left in SV_PROG, where the trap enters
M: a MOVW upwards (02 R48, R54; 05 R157, R159). Rows that complete: LDM, STM, MOVW, FILLW. -/
def Obligations.BlockTransferResults : Prop :=
  (∀ (s s1 : State) (q : SeatNo) (rd : Reg) (m : MemOp) (a : Nat),
     let rs := (List.range 32).filter fun r => decide (1 ≤ r) && (wGet s1 q.val rd.toNat).getLsbD r
     memEa s1 q.val m rs.length = a → memBadIndex s1 q.val m = false → PlainSpan s1 q a rs.length →
     bit (curBank (getSeat s1 q.val)).progress 35 = false → interrupted s1 q.val = false →
     (Issues s q (.ldm q rd m) s1 → rd.toNat ∉ rs → Reaches (cGet s1 q.val m.ca.toNat) a rs.length rRD →
       ∃ t, exec (.ldm q rd m) s = .next t ∧ t.mem = s1.mem ∧
         (∀ k (h : k < rs.length), wGet t q.val rs[k] = memWord s1.mem (a + k)) ∧
         (∀ r, r ∉ rs → wGet t q.val r = wGet s1 q.val r)) ∧
     (Issues s q (.stm q rd m) s1 → Reaches (cGet s1 q.val m.ca.toNat) a rs.length rWR →
       ∃ t, exec (.stm q rd m) s = .next t ∧
         (∀ k (h : k < rs.length), memWord t.mem (a + k) = wGet s1 q.val rs[k]) ∧
         (∀ b, b < a ∨ a + rs.length ≤ b → memWord t.mem b = memWord s1.mem b) ∧ TagsCleared s1 t a rs.length ∧
         (∀ r, wGet t q.val r = wGet s1 q.val r))) ∧
  (∀ (s s1 : State) (q : SeatNo) (rd ra rb aux : Reg) (n a b : Nat),
     n = (wGet s1 q.val rb.toNat).toNat % 2 ^ 35 → a = capCursor (cGet s1 q.val rd.toNat) → PlainSpan s1 q a n →
     Reaches (cGet s1 q.val rd.toNat) a n rWR → bit (curBank (getSeat s1 q.val)).progress 35 = false → interrupted s1 q.val = false →
     (Issues s q (.movw q rd ra rb aux) s1 → b = capCursor (cGet s1 q.val ra.toNat) → PlainSpan s1 q b n →
       Reaches (cGet s1 q.val ra.toNat) b n rRD → (a + n ≤ b ∨ b + n ≤ a) →
       ∃ t, exec (.movw q rd ra rb aux) s = .next t ∧
         (∀ k, k < n → memWord t.mem (a + k) = memWord s1.mem (b + k)) ∧
         (∀ x, x < a ∨ a + n ≤ x → memWord t.mem x = memWord s1.mem x) ∧ TagsCleared s1 t a n ∧
         (∀ r, wGet t q.val r = wGet s1 q.val r ∧ cGet t q.val r = cGet s1 q.val r)) ∧
     (Issues s q (.fillw q rd ra rb) s1 →
       ∃ t, exec (.fillw q rd ra rb) s = .next t ∧
         (∀ k, k < n → memWord t.mem (a + k) = wGet s1 q.val ra.toNat) ∧
         (∀ x, x < a ∨ a + n ≤ x → memWord t.mem x = memWord s1.mem x) ∧ TagsCleared s1 t a n ∧
         (∀ r, wGet t q.val r = wGet s1 q.val r ∧ cGet t q.val r = cGet s1 q.val r))) ∧
  (∀ (s s1 : State) (q : SeatNo) (rd : Reg) (m : MemOp) (a j : Nat), let c := cGet s1 q.val m.ca.toNat
     let rs := (List.range 32).filter fun r => decide (1 ≤ r) && (wGet s1 q.val rd.toNat).getLsbD r
     let left := fun p : Word => p.getLsbD 35 = true ∧ ∀ r, r < 35 → p.getLsbD r = decide (r ∈ rs.drop j)
     memEa s1 q.val m rs.length = a → memBadIndex s1 q.val m = false → PlainSpan s1 q a j → j < rs.length →
     capLast c + 1 = a + j → bit (curBank (getSeat s1 q.val)).progress 35 = false → interrupted s1 q.val = false →
     occupied (getSeat s1 q.val).svM = false → mHeld s1 = false →
     (Issues s q (.ldm q rd m) s1 → rd.toNat ∉ rs → Reaches c a j rRD → a < 2 ^ 36 →
       ∃ t, exec (.ldm q rd m) s = .next t ∧ t.mem = s1.mem ∧ BoundsAt t q (a + j) ∧ left (getSeat t q.val).svM.prog ∧
         let n := getBank (getSeat t q.val) (statusOfSeat s1 q.val).bank
         (∀ k (h : k < rs.length), bankW n rs[k] = if k < j then memWord s1.mem (a + k) else wGet s1 q.val rs[k]) ∧
         (∀ r, r ∉ rs → bankW n r = wGet s1 q.val r) ∧ ∀ r, bankC n r = cGet s1 q.val r) ∧
     (Issues s q (.stm q rd m) s1 → Reaches c a j rWR → a < 2 ^ 36 →
       ∃ t, exec (.stm q rd m) s = .next t ∧ BoundsAt t q (a + j) ∧ left (getSeat t q.val).svM.prog ∧ BankKept s1 t q ∧
         (∀ k (h : k < rs.length), k < j → memWord t.mem (a + k) = wGet s1 q.val rs[k]) ∧
         (∀ b, b < a ∨ a + j ≤ b → memWord t.mem b = memWord s1.mem b) ∧ TagsCleared s1 t a j)) ∧
  (∀ (s s1 : State) (q : SeatNo) (rd ra rb aux : Reg) (n a b j : Nat), let c := cGet s1 q.val rd.toNat
     n = (wGet s1 q.val rb.toNat).toNat % 2 ^ 35 → a = capCursor c → PlainSpan s1 q a j → j < n → capLast c + 1 = a + j →
     Reaches c a j rWR → bit (curBank (getSeat s1 q.val)).progress 35 = false → interrupted s1 q.val = false →
     occupied (getSeat s1 q.val).svM = false → mHeld s1 = false →
     (Issues s q (.movw q rd ra rb aux) s1 → aux = 0 → b = capCursor (cGet s1 q.val ra.toNat) → PlainSpan s1 q b n →
       Reaches (cGet s1 q.val ra.toNat) b n rRD → (a + j ≤ b ∨ b + n ≤ a) →
       ∃ t, exec (.movw q rd ra rb aux) s = .next t ∧ BoundsAt t q (a + j) ∧
         (getSeat t q.val).svM.prog = BitVec.ofNat 36 (2 ^ 35 + (n - j)) ∧ BankKept s1 t q ∧
         (∀ k, k < j → memWord t.mem (a + k) = memWord s1.mem (b + k)) ∧
         (∀ x, x < a ∨ a + j ≤ x → memWord t.mem x = memWord s1.mem x) ∧ TagsCleared s1 t a j) ∧
     (Issues s q (.fillw q rd ra rb) s1 →
       ∃ t, exec (.fillw q rd ra rb) s = .next t ∧ BoundsAt t q (a + j) ∧
         (getSeat t q.val).svM.prog = BitVec.ofNat 36 (2 ^ 35 + (n - j)) ∧ BankKept s1 t q ∧
         (∀ k, k < j → memWord t.mem (a + k) = wGet s1 q.val ra.toNat) ∧
         (∀ x, x < a ∨ a + j ≤ x → memWord t.mem x = memWord s1.mem x) ∧ TagsCleared s1 t a j))

/-- An access that fails R48 traps with the cause and step of the first failing step (02 R48, R55, R39): a capability
step 1 to 6, translation at step 7, the fence at step 8, with cause FENCE. One that passes them and falls in an armed
watch range traps WATCH (07 R228), and a load that passes and meets poison traps POISON with the poisoned word's
physical address (10 R322): so for LDW, LDD, LDC, VLD, STW, STD, STC, VST and LPUT. Unless the M set is occupied and
the seat ends in check stop, no register and no word is written (05 R141). An LPUT of no words, and an LTAKE, make
steps 1 to 5 of one word first; an LPUT that R173 refuses raises LANE behind the checks of its source (05 R173, R174),
behind POISON as the model chooses (log 110). An LTAKE that finds a message makes its steps and the fence's check word
by word over the whole message; where one fails, the message stays, and what was diverted before stands (log 102): at
M the lane is as the take found it (05 R175). -/
def Obligations.FailedAccessTraps : Prop :=
  let traps := fun (i : Instr) (q : SeatNo) (s e : State) (t : Trap) => ∃ u, exec i s = .next u ∧
    quiet q.val u = quiet q.val (takeTrap (modCur e q.val fun b => { b with progress := 0 }) q.val t)
  let silent := fun (i : Instr) (q : SeatNo) (s s1 : State) => ∀ u, exec i s = .next u →
    occupied (getSeat s1 q.val).svM = false → WritesNothing q.val s1 u
  (∀ (a : Access) (q : SeatNo) (s e : State) (t : Trap), transAll q.val false [a] s = .error (t, e) → t.step = 7) ∧
  (∀ (a : Access) (rs : List Run) (s : State) (x : Status) (t : Trap), fenceAll s x [(a, rs)] = .error t →
    t.cause = 0o12 ∧ t.step = 8) ∧
  (∀ (s s1 e : State) (q : SeatNo) (rd : Reg) (m : MemOp) (i : Instr) (a : Access) (t : Trap), let v := cGet s1 q.val rd.toNat
    (i = .ldw q rd m ∧ a = memAccess s1 q.val m 1 1 rRD false ∨
      i = .stw q rd m ∧ a = memAccess s1 q.val m 1 1 rWR true ∨
      i = .ldd q rd m ∧ a = memAccess s1 q.val m 2 2 rRD false ∨
      i = .std q rd m ∧ a = memAccess s1 q.val m 2 2 rWR true ∨
      inRing s1 q.val = false ∧ (i = .ldc q rd m ∧ a = memAccess s1 q.val m 4 4 rRD false ∨
        (i = .stc q rd m ∨ i = .fenceDescriptorWrite q rd m) ∧
          a = { memAccess s1 q.val m 4 4 rWR true with tagged := v.tag, local_ := !capGlobal v } ∨
        (statusOfSeat s1 q.val).wideOn = true ∧ (i = .vld q rd m ∧ a = memAccess s1 q.val m 8 8 rRD false ∨
          i = .vst q rd m ∧ a = memAccess s1 q.val m 8 8 rWR true))) →
    Issues s q i s1 → AccessTraps s1 q a t e → traps i q s e t ∧ silent i q s s1) ∧
  (∀ (s s1 e : State) (q : SeatNo) (rd ca rb : Reg) (a : Access) (t : Trap), let i := Instr.lput q rd ca rb
    let w := wGet s1 q.val rb.toNat
    let l := bits w 15 0
    let c := blockCap s1 q.val ca.toNat
    Issues s q i s1 → a = { cap := c, ea := (capCursor c : Int), n := bits w 28 16, need := rRD } → a.n ≠ 0 →
    (AccessTraps s1 q a t e → traps i q s e t ∧ silent i q s s1) ∧
    (∀ rs, AccessesReach s1 q [a] [rs] e → s1.mem.flips = [] → s1.mem.rot = [] →
      rs.findSome? (fun r => seatPoison e q.val r.pa r.n false) = none → putRefused s1 q.val l = true → descReads s1 l 1 = true →
      traps i q s e { cause := 0o32, addr := BitVec.ofNat 36 l } ∧ silent i q s s1)) ∧
  (∀ (s s1 : State) (q : SeatNo) (rd ca rb aux : Reg) (i : Instr) (a : Access) (t : Trap), let c := blockCap s1 q.val ca.toNat
    (i = .lput q rd ca rb ∧ bits (wGet s1 q.val rb.toNat) 28 16 = 0 ∧ a = { cap := c, ea := (capCursor c : Int), n := 1, need := rRD } ∨
      i = .ltake q rd ca rb aux ∧ a = { cap := c, ea := (capCursor c : Int), n := 1, need := rWR, write := true }) →
    Issues s q i s1 → stepsFail (levelOf s1 q.val) (sideOf s1 q.val) [a] [1, 2, 3, 4, 5] = some t →
    traps i q s s1 t ∧ silent i q s s1) ∧
  (∀ (s s1 s2 e : State) (q : SeatNo) (rd ca rb aux : Reg) (l k : Nat) (m : Msg) (t : Trap), let i := Instr.ltake q rd ca rb aux
    let c := blockCap s1 q.val ca.toNat
    let a : Access := { cap := c, ea := (capCursor c : Int), n := m.words.length, need := rWR, write := true, each := true }
    Issues s q i s1 → TakeServed s1 q ca rb l k → takeHead s1 q.val l = (some m, s2) → AccessTraps s2 q a t e →
    traps i q s e t ∧
      (levelOf s1 q.val = .M → occupied (getSeat s1 q.val).svM = false → ∀ u, exec i s = .next u →
        laneSt u l = laneSt s2 l ∧ WritesNothing q.val s2 u))

/-- SYSRD, SYSWR and every row that is a SYSWR of one word do what their rule says and go on; what their words hold is
SystemWordEffects. The stick commands of 06 R210, in numbers, over a window of case that is sound and open to them: a
LOAD_DATA and a LOAD_CODE leave the window's words in the stick, with their tags, and in the code store; a SAVE_DATA
writes the stick's words and tags into case and nothing beyond the window, and with no window bound does nothing; a
RELEASE unbinds both. Model's choices: what a save leaves in use (log 73), the bank that M's words mean (log 17), the
turn of a pass (log 29), jobs that wait on seal 65,535 (log 88), PCC without EX (log 89), and the frames that a link
drop cuts (log 109). Rows that complete: SYSRD, TB_LO_READ, SYSWR, SEAL_LIVE_WRITE, REGPASS, SV_XFER_LOAD,
SV_XFER_STORE, BANK_SEL_FETCH, BANK_SEL_PLACE, BANK_DATA_WRITE, LOAD_DATA, SAVE_DATA, LOAD_CODE, RELEASE,
LANE_BASE_WRITE, SETASIDE_SET, SETASIDE_CLEAR, PADDLE_REQ, MEAS_EXTEND, ETH_MODE_WRITE. -/
def Obligations.SystemWordResults : Prop :=
  Completes sysReadEffect ∧ Completes sysWriteEffect ∧
  ∀ (s s1 : State) (q : SeatNo) (ra : Reg), let x := getSeat s1 q.val
    let w := wGet s1 q.val ra.toNat
    let d := 16384 * x.stickBase
    let c := 16384 * x.codeBase
    s1.mem.flips = [] → s1.mem.rot = [] → sysGranted s1 q 0o203 true w = true →
    (Issues s q (.loadData q ra) s1 → bits w 2 0 = 1 → WindowReads s1 d →
      ∃ t, exec (.loadData q ra) s = .next t ∧ t.mem = s1.mem ∧
        let y := getSeat t q.val
        y.stickOn = true ∧ y.stickUse = true ∧ (∀ i, i < 16384 → smGet 0 y.stick i = memWord s1.mem (d + i)) ∧
        (∀ g, g < 4096 → smGet false y.stickTag g = memTag s1.mem (d + 4 * g)) ∧ y.code = x.code ∧ y.codeOn = x.codeOn) ∧
    (Issues s q (.loadCode q ra) s1 → bits w 2 0 = 3 → WindowReads s1 c →
      ∃ t, exec (.loadCode q ra) s = .next t ∧ t.mem = s1.mem ∧
        let y := getSeat t q.val
        y.codeOn = true ∧ y.stale = [] ∧ (∀ i, i < 16384 → smGet 0 y.code i = memWord s1.mem (c + i)) ∧
        y.stick = x.stick ∧ y.stickTag = x.stickTag ∧ y.stickOn = x.stickOn) ∧
    (Issues s q (.saveData q ra) s1 → bits w 2 0 = 2 → x.stickOn = true → WindowWrites s1 d →
      ∃ t, exec (.saveData q ra) s = .next t ∧ (getSeat t q.val).stickOn = true ∧ (getSeat t q.val).stickUse = false ∧
        (∀ i, i < 16384 → memWord t.mem (d + i) = smGet 0 x.stick i) ∧
        (∀ g, g < 4096 → memTag t.mem (d + 4 * g) = smGet false x.stickTag g) ∧
        ∀ b, b < d ∨ d + 16384 ≤ b → memWord t.mem b = memWord s1.mem b ∧ memTag t.mem b = memTag s1.mem b) ∧
    (Issues s q (.saveData q ra) s1 → bits w 2 0 = 2 → x.stickOn = false →
      ∃ t, exec (.saveData q ra) s = .next t ∧ t.mem = s1.mem ∧ (getSeat t q.val).stick = x.stick) ∧
    (Issues s q (.release q ra) s1 → bits w 2 0 = 4 →
      ∃ t, exec (.release q ra) s = .next t ∧ t.mem = s1.mem ∧ (getSeat t q.val).stickOn = false ∧
        (getSeat t q.val).codeOn = false)

/-- What reads and writes of system words do, in numbers. A read gives the word's value and changes nothing else; a
written word reads back whole or under its mask, and no other word changes (04 R126, R127). SV_XFER moves one granule
with its tag (07 R218); BANK_SEL and BANK_DATA reach the registers of another bank (07 R219), whose PCC takes a tag
with EX alone (log 89). LANE_BASE refuses a BASE above 23, or another BASE while a lane is open, and zeroes the new
array (09 R279), by writes that the fence admits here (log 119 has the rest); CASE_SETASIDE zeroes each eighth that
changes (10 R326); MEAS_CMD extends a register by SHA-256 (18 R507); a port whose ETH_MODE fields change loses its
link (19 R535). -/
def Obligations.SystemWordEffects : Prop :=
  ∀ (s s1 : State) (q : SeatNo) (rd ra : Reg) (sw : BitVec 12), let x := getSeat s1 q.val
    let n := sw.toNat
    let w := wGet s1 q.val ra.toNat
    let writes := fun (i : Instr) (n : Nat) => Issues s q i s1 ∧ sysGranted s1 q n true w = true
    let steady := fun t : State => t.mem = s1.mem ∧ (∀ r, wGet t q.val r = wGet s1 q.val r) ∧ ∀ r, cGet t q.val r = cGet s1 q.val r
    (∀ v, Issues s q (.sysrd q rd sw) s1 → sysGranted s1 q n false 0 = true → sysValue s1 q.val n = some v →
      ∃ t, exec (.sysrd q rd sw) s = .next t ∧ t.mem = s1.mem ∧ (∀ r, cGet t q.val r = cGet s1 q.val r) ∧
        (∀ m, sysValue t q.val m = sysValue s1 q.val m) ∧
        ∀ r, wGet t q.val r = if r = rd.toNat ∧ r ≠ 0 then v else wGet s1 q.val r) ∧
    (sysGranted s1 q 0o40 false 0 = true → ∀ i, i = .tbLoRead q rd ∨ i = .sysrd q rd 0o40 → Issues s q i s1 →
      ∃ t, exec i s = .next t ∧ t.mem = s1.mem ∧ (∀ r, cGet t q.val r = cGet s1 q.val r) ∧
        sysValue t q.val 0o41 = some (BitVec.ofNat 36 (s1.time / 2 ^ 36)) ∧
        ∀ r, wGet t q.val r = if r = rd.toNat ∧ r ≠ 0 then BitVec.ofNat 36 s1.time else wGet s1 q.val r) ∧
    (∀ b old, writes (.syswr q ra sw) n → sysValue s1 q.val n = some old → sysBack n w old = some b →
      ∃ t, exec (.syswr q ra sw) s = .next t ∧ steady t ∧ sysValue t q.val n = some b ∧
        ∀ m, m ≠ n → (n = 0o400 → m ≠ 0o401) → sysValue t q.val m = sysValue s1 q.val m) ∧
    (writes (.svXferLoad q ra) 0o164 → bit w 5 = false →
      ∃ t, exec (.svXferLoad q ra) s = .next t ∧ t.mem = s1.mem ∧ svGranules t q.val = svGranules s1 q.val ∧
        (∀ r, wGet t q.val r = wGet s1 q.val r) ∧
        ∀ r, cGet t q.val r = if r = 11 ∧ bits w 4 0 ≤ 10 then (svGranules s1 q.val).getD (bits w 4 0) {} else cGet s1 q.val r) ∧
    (writes (.svXferStore q ra) 0o164 → bit w 5 = true →
      ∃ t, exec (.svXferStore q ra) s = .next t ∧ steady t ∧
        svGranules t q.val = (svGranules s1 q.val).set (bits w 4 0) (cGet s1 q.val 11)) ∧
    (writes (.bankSelFetch q ra) 0o165 → bits w 13 12 = 1 →
      ∃ t, exec (.bankSelFetch q ra) s = .next t ∧ t.mem = s1.mem ∧
        let y := getSeat t q.val
        let b := bits w 11 8
        let r := bits w 4 0
        y.bankSel = w &&& 0o7777 ∧ (∀ i j, bankW (getBank y i) j = bankW (getBank x i) j) ∧
        (∀ i j, (i ≠ 8 ∨ j ≠ 11) → bankC (getBank y i) j = bankC (getBank x i) j) ∧
        (bit w 7 = false → bankC (getBank y 8) 11 = bankC (getBank x 8) 11) ∧
        (bit w 7 = true → bankC (getBank y 8) 11 =
          if 8 ≤ b ∨ 16 < r then {} else if r = 16 then (getBank x b).pcc else bankC (getBank x b) r)) ∧
    (writes (.bankSelPlace q ra) 0o165 → bits w 13 12 = 2 → x.status.bank = 8 →
      ∃ t, exec (.bankSelPlace q ra) s = .next t ∧ t.mem = s1.mem ∧
        let y := getSeat t q.val
        let b := bits w 11 8
        let r := bits w 4 0
        let c := bankC (getBank x 8) 11
        y.bankSel = w &&& 0o7777 ∧ (∀ i j, bankW (getBank y i) j = bankW (getBank x i) j) ∧
        (∀ i j, bankC (getBank y i) j = if bit w 7 = true ∧ i = b ∧ b < 8 ∧ j = r ∧ 1 ≤ r ∧ r < 16 then c else bankC (getBank x i) j) ∧
        ∀ i, i < 8 → (getBank y i).pcc =
          if bit w 7 = true ∧ i = b ∧ r = 16 then { c with tag := c.tag && holds (capRights c) rEX } else (getBank x i).pcc) ∧
    (writes (.bankDataWrite q ra) 0o166 → x.status.bank = 8 →
      ∃ t, exec (.bankDataWrite q ra) s = .next t ∧ t.mem = s1.mem ∧
        let y := getSeat t q.val
        let b := bits x.bankSel 11 8
        let r := bits x.bankSel 4 0
        let k := bits x.bankSel 6 5
        let cap := bit x.bankSel 7
        let put := fun old new : Cap => new.tag = false ∧ ∀ i, i < 4 → granuleWord new i = if i = k then w else granuleWord old i
        (∀ i j, bankW (getBank y i) j = if cap = false ∧ i = b ∧ b < 8 ∧ j = r ∧ r ≠ 0 then w else bankW (getBank x i) j) ∧
        (∀ i j, if cap = true ∧ i = b ∧ b < 8 ∧ j = r ∧ 1 ≤ r ∧ r < 16 then put (bankC (getBank x i) j) (bankC (getBank y i) j)
          else bankC (getBank y i) j = bankC (getBank x i) j) ∧
        ∀ i, i < 8 → if cap = true ∧ i = b ∧ r = 16 then put (getBank x i).pcc (getBank y i).pcc
          else (getBank y i).pcc = (getBank x i).pcc) ∧
    (writes (.laneBaseWrite q ra) 0o430 →
      let v := s1.sys
      let b := bits w 35 20
      let kept := fun t : State => t.mem = s1.mem ∧ t.sys.laneBase = v.laneBase ∧ t.sys.laneLock = v.laneLock
      let opened := fun e => e ∈ s1.lanes.opened
      (v.laneLock = true → ∃ t, exec (.laneBaseWrite q ra) s = .next t ∧ kept t ∧ t.lanes.refused = s1.lanes.refused) ∧
      (v.laneLock = false → 23 < b →
        ∃ t, exec (.laneBaseWrite q ra) s = .next t ∧ kept t ∧ t.lanes.refused = s1.lanes.refused + 1) ∧
      (v.laneLock = false → b = v.laneBase → b ≤ 23 → ∃ t, exec (.laneBaseWrite q ra) s = .next t ∧ t.mem = s1.mem ∧
        t.sys.laneBase = b ∧ t.sys.laneLock = bit w 0 ∧ t.lanes.refused = s1.lanes.refused) ∧
      (v.laneLock = false → b ≠ v.laneBase → b ≤ 23 → noUpset s1 = true → (∀ e, opened e → descReads s1 e.1 1 = true) →
        ((s1.lanes.fault ≠ [] ∨ ∃ e, opened e ∧ (laneSt s1 e.1).state ≠ lsClosed) →
          ∃ t, exec (.laneBaseWrite q ra) s = .next t ∧ kept t ∧ t.lanes.refused = s1.lanes.refused + 1) ∧
        (s1.lanes.fault = [] → (∀ e, opened e → (laneSt s1 e.1).state = lsClosed) →
          (fenceCheck s1 { cls := 6, dir := 1, p := 2 ^ 20 * b, n := 2 ^ 20 }).isOk = true →
          ∃ t, exec (.laneBaseWrite q ra) s = .next t ∧ t.sys.laneBase = b ∧ t.sys.laneLock = bit w 0 ∧
            t.lanes.refused = s1.lanes.refused ∧ (∀ l, (laneSt t l).state = lsClosed) ∧
            ∀ a, if 2 ^ 20 * b ≤ a ∧ a < 2 ^ 20 * (b + 1) then memWord t.mem a = 0 ∧ memTag t.mem a = false
              else memWord t.mem a = memWord s1.mem a ∧ memTag t.mem a = memTag s1.mem a))) ∧
    (∀ i, i = .setasideSet q ra ∨ i = .setasideClear q ra → writes i 0o440 →
      let old := s1.sys.setAside
      let new := bits w 7 0
      (∃ e, e < 8 ∧ new.testBit e = decide (i = .setasideSet q ra) ∧ old.testBit e = !decide (i = .setasideSet q ra)) →
      ∃ t, exec i s = .next t ∧ t.sys.setAside = new ∧
        ∀ a, if a / 3145728 < 8 ∧ old.testBit (a / 3145728) ≠ new.testBit (a / 3145728) then
            memWord t.mem a = 0 ∧ memTag t.mem a = false
          else memWord t.mem a = memWord s1.mem a ∧ memTag t.mem a = memTag s1.mem a) ∧
    (writes (.measExtend q ra) 0o500 → bit w 35 = true →
      let v := s1.sys
      let i := bits w 2 0
      let ins := (List.range 8).map (smGet 0 v.measIn)
      let full := ins.all fun x => (List.range 4).all (slotPresent x)
      let digest := sha .sha256 (allOctets ((List.range 8).map fun n => smGet 0 v.mr (8 * i + n)) ++ allOctets ins)
      let locked := v.measLock && decide (i ≤ 4)
      ∃ t, exec (.measExtend q ra) s = .next t ∧ steady t ∧ t.sys.measReg = i ∧ t.sys.measWord = bits w 5 3 ∧
        t.sys.measLock = (v.measLock || bit w 34) ∧ t.sys.measIn = v.measIn ∧
        t.sys.measIgnored = (if locked || full then v.measIgnored else v.measIgnored + 1) ∧
        (∀ n, (n < 8 * i ∨ 8 * i + 8 ≤ n ∨ locked = true ∨ full = false) → smGet 0 t.sys.mr n = smGet 0 v.mr n) ∧
        (locked = false → full = true → ∀ n k, n < 8 → k < 4 → slotPresent (smGet 0 t.sys.mr (8 * i + n)) k = true ∧
          slotOctet (smGet 0 t.sys.mr (8 * i + n)) k = digest.getD (4 * n + k) 0)) ∧
    (writes (.ethModeWrite q ra) 0o510 →
      ∃ t, exec (.ethModeWrite q ra) s = .next t ∧ t.sys.ethMode = w &&& 0o177777 ∧
        ∀ p, p < 4 → (getPort t p).linkUp =
          (decide (bits w (4 * p + 3) (4 * p) = bits s1.sys.ethMode (4 * p + 3) (4 * p)) && (getPort s1 p).linkUp)) ∧
    (writes (.paddleReq q ra) 0o461 →
      ∃ t, exec (.paddleReq q ra) s = .next t ∧ t.power.keelT = bit w 0 ∧ (bit w 0 = true → t.power.paddle = true))

/-- The lane instructions, DOORBELL and WAYEN that answer OK: the result word, and the state of the operation (05 R169
to R180). A successful LOPEN leaves the fields of 09 R296: the ring capability, CREDIT the initial one, STATE OPEN,
CLASS, STOWREF, the gate, everything else zero, STOW_ST zero; said for an LOPEN at M whose stow area does not overlap
the descriptor. A successful LCLOSE leaves STATE CLOSED or CLOSING, HEAD at TAIL, TOF, WAIT, ARMED and the deadline
zero, the gate untagged, the lane unmarked (09 R297, R551). What a pair-checked activation is answered, and the order
of LOPEN's checks, are the model's readings (logs 16, 27). TakeAndDoorbellResults says in numbers what LTAKE, DOORBELL
and WAYEN do. Rows that complete: LOPEN, LCLOSE, LARM, LSTAT, LGIVE, LPUT, LTAKE, DOORBELL, WAYEN. -/
def Obligations.LaneInstructionResults : Prop :=
  Completes laneEffect ∧
  (∀ (s s1 : State) (q : SeatNo) (rd ca cb aux : Reg) (k : Nat),
    let l := capCursor (cGet s1 q.val ca.toNat)
    let gate := cGet s1 q.val cb.toNat
    let p := capCursor (cGet s1 q.val aux.toNat)
    let d := descAddr s1 l
    Issues s q (.lopen q rd ca cb aux) s1 → inRing s1 q.val = false → levelOf s1 q.val = .M →
    openFail s1 q.val (cGet s1 q.val ca.toNat) gate (cGet s1 q.val aux.toNat) = none → classOf s1 l = some k → k < 1024 →
    noUpset s1 = true → d + 16 ≤ caseEnd → (∀ g w, g < 4 → w < 2 → (descCheck s1 l g w).isOk = true) →
    smGet false s1.lanes.fault l = false → (laneSt s1 l).state = lsClosed → (ringAdmits s1 k l).isOk = true →
    p + 256 ≤ caseEnd → (p + 256 ≤ d ∨ d + 16 ≤ p) →
    ∃ t, exec (.lopen q rd ca cb aux) s = .next t ∧ wGet t q.val rd.toNat = (if rd = 0 then 0 else resultWord 0 false 0 l) ∧
      laneSt t l = { credit := clIcred s1 k, state := lsOpen, cls := k } ∧ laneGate t l = gate ∧ stowRef t l = p ∧
      laneDeadline t l = 0 ∧ memTag t.mem d = true ∧ memWord t.mem d = BitVec.ofNat 36 (ringBase s1 k l) ∧
      memWord t.mem (d + 2) = BitVec.ofNat 36 (ringBase s1 k l + ringLen s1 k - 1) ∧
      ((fenceCheck s1 (atMReq 1 (p + 0o143) 1 false)).isOk = true → memWord t.mem (p + 0o143) = 0)) ∧
  (∀ (s s1 : State) (q : SeatNo) (rd ca : Reg) (l k : Nat),
    Issues s q (.lclose q rd ca) s1 → laneCap s1 q ca = some l → classOf s1 l = some k → noUpset s1 = true →
    descAddr s1 l + 16 ≤ caseEnd → (∀ g w, g < 4 → w < 2 → (descCheck s1 l g w).isOk = true) →
    smGet false s1.lanes.fault l = false → (laneSt s1 l).state = lsOpen → (∀ h ∈ s1.lanes.held, h.lane.toNat ≠ l) →
    (∀ e ∈ s1.lanes.stowed, e.lane.toNat ≠ l) →
    ∃ t, exec (.lclose q rd ca) s = .next t ∧ wGet t q.val rd.toNat = (if rd = 0 then 0 else resultWord 0 false 0 l) ∧
      let x := laneSt t l
      (x.state = lsClosed ∨ x.state = lsClosing) ∧ x.head = x.tail ∧ x.tof = false ∧ x.wait = false ∧ x.armed = false ∧
        laneDeadline t l = 0 ∧ (laneGate t l).tag = false ∧ smGet false t.lanes.fault l = false)

/-- LTAKE, DOORBELL and WAYEN in numbers. A take at M over plain memory leaves the message's words and their tags at
the cursor, its result in w[rd], and the lane with HEAD and TAKEN past its slots and TSEQ after its number (05 R175,
09 R291, R295, 02 R37); a lane with no message answers TIMEOUT and clears TOF, or blocks the activation, which keeps
its bank, registers and PCC (08 R256), or answers OK with MSG 0. A doorbell of kind 6 puts one word in the slot at
RESV, with its record (05 R169, 09 R283 to R285), or answers NO_CREDIT or BAD_DESCRIPTOR; of a seat with no doorbell
lane the result's LANE is free (log 5). A way-enough command is pending with the time of its acceptance, or answers
NO_CREDIT at eight pending, or BAD_DESCRIPTOR without a target (05 R180, 17 R491). What a refused write of granule 1
does is log 111 and stays outside: the lane unit reaches its descriptor here. -/
def Obligations.TakeAndDoorbellResults : Prop :=
  ∀ (s s1 : State) (q : SeatNo) (rd ca cb aux : Reg) (l k : Nat), let seat := getSeat s1 q.val
    let result := fun (t : State) (w : Word) => ∀ r, wGet t q.val r = if r = rd.toNat ∧ r ≠ 0 then w else wGet s1 q.val r
    let x := laneSt s1 l
    let g := descAddr s1 l + 4
    let beside := fun (t : State) (b : Nat) => memWord t.mem b = memWord s1.mem b
    (Issues s q (.ltake q rd ca cb aux) s1 → TakeServed s1 q ca cb l k →
      (∀ n m sq : Nat, let c := cGet s1 q.val ca.toNat
        let d := capCursor c
        HeadHolds s1 l k n m sq → PlainSpan s1 q d n → Reaches c d n rWR → (d + n ≤ g - 4 ∨ g + 12 ≤ d) →
        (d + n ≤ ringBase s1 k l ∨ ringBase s1 k l + ringLen s1 k ≤ d) →
        ∃ t, exec (.ltake q rd ca cb aux) s = .next t ∧ result t (resultWord 0 true n l) ∧
          (∀ r, cGet t q.val r = cGet s1 q.val r) ∧ (∀ i, i < n → memWord t.mem (d + i) = messageWord s1 k l x.head i) ∧
          (∀ b, (b < d ∨ d + n ≤ b) → (b < g ∨ g + 4 ≤ b) → beside t b) ∧
          (∀ b, memTag t.mem b =
            if d / 4 ≤ b / 4 ∧ b / 4 ≤ (d + n - 1) / 4 then
              let i := b / 4 - d / 4
              let v := messageGranule s1 k l x.head i
              decide (d % 4 = 0 ∧ 4 * i + 4 ≤ n) && v.tag && holds (capRights c) rWC && (capGlobal v || holds (capRights c) rWL)
            else memTag s1.mem b && decide (b / 4 ≠ g / 4)) ∧
          laneSt t l = { x with head := (x.head + m) % 8192, taken := (x.taken + m) % 8192, tseq := (sq + 1) % 262144 }) ∧
      (x.head = x.tail → x.tof = true → ∃ t, exec (.ltake q rd ca cb aux) s = .next t ∧ result t (resultWord 6 false 0 l) ∧
        (∀ r, cGet t q.val r = cGet s1 q.val r) ∧ laneSt t l = { x with tof := false } ∧
        ∀ b, b < g ∨ g + 4 ≤ b → beside t b) ∧
      (let blocks := aux = 1 ∧ levelOf s1 q.val ≠ .M ∧ anyOccupied seat = false
       x.head = x.tail → x.tof = false →
        (¬blocks → ∃ t, exec (.ltake q rd ca cb aux) s = .next t ∧ result t (resultWord 0 false 0 l) ∧
          (∀ r, cGet t q.val r = cGet s1 q.val r) ∧ t.mem = s1.mem) ∧
        (blocks → ∃ t, exec (.ltake q rd ca cb aux) s = .next t ∧ laneSt t l = { x with wait := true } ∧
          (∀ b, b < g ∨ g + 4 ≤ b → beside t b) ∧
          let y := getSeat t q.val
          let b := seat.status.bank
          (getBank y b).st = .blocked ∧ (getBank y b).waitLane.toNat = l ∧ (getBank y b).pcc = (getBank seat b).pcc ∧
            (∀ i j, bankW (getBank y i) j = bankW (getBank seat i) j ∧ bankC (getBank y i) j = bankC (getBank seat i) j) ∧
            ((∀ i, i < 8 → i ≠ b → (getBank seat i).st = .free) → y.idle = true)))) ∧
    (Issues s q (.doorbell q rd ca cb) s1 → levelOf s1 q.val ≠ .U →
      let n := (wGet s1 q.val ca.toNat).toNat
      let w := wGet s1 q.val cb.toNat
      let up := n ≤ 71 ∧ (getSeat s1 n).powered = true ∧ (getSeat s1 n).checkStop = none
      (doorbellLane s1 n = none → ∃ t, exec (.doorbell q rd ca cb) s = .next t ∧ t.mem = s1.mem ∧
        (rd ≠ 0 → bits (wGet t q.val rd.toNat) 35 16 = 2 ^ 14) ∧ ∀ r, r ≠ rd.toNat → wGet t q.val r = wGet s1 q.val r) ∧
      (doorbellLane s1 n = some l →
        ((¬up ∨ (classOf s1 l = some k ∧ clKind s1 k ≠ 6) ∨ (noUpset s1 = true ∧ descReads s1 l 1 = true ∧ x.state ≠ lsOpen)) →
          ∃ t, exec (.doorbell q rd ca cb) s = .next t ∧ t.mem = s1.mem ∧ result t (resultWord 1 false 0 l)) ∧
        (up → LaneServes s1 l k → clKind s1 k = 6 → (curBank seat).role = .none →
          (x.credit = 0 → ∃ t, exec (.doorbell q rd ca cb) s = .next t ∧ t.mem = s1.mem ∧ result t (resultWord 9 false 0 l)) ∧
          (1 ≤ x.credit → x.credit ≤ 4096 → (s1.power.paddle = true → clEss s1 k = true) →
            (clAdmit s1 k = 0 ∨ smGet 0 s1.lanes.admitted k < clAdmit s1 k) → x.armed = false → clChk s1 k = false →
            ringBase s1 k l + ringLen s1 k ≤ caseEnd → (ringBase s1 k l + ringLen s1 k ≤ g - 4 ∨ g + 12 ≤ ringBase s1 k l) →
            ∃ t, exec (.doorbell q rd ca cb) s = .next t ∧ result t (resultWord 0 false 0 l) ∧
              let y := laneSt t l
              let a := slotAddr s1 k l x.resv
              let r := recAddr s1 k l x.resv
              y.tail = (x.tail + 1) % 8192 ∧ y.resv = (x.resv + 1) % 8192 ∧ y.credit = x.credit - 1 ∧ y.seq = (x.seq + 1) % 262144 ∧
                y.head = x.head ∧ memWord t.mem a = w ∧ bits (memWord t.mem r) 35 30 = 0o60 ∧ bits (memWord t.mem r) 12 0 = 1 ∧
                bits (memWord t.mem (r + 1)) 17 0 = x.seq ∧
                ∀ b, b ≠ a → (b < r ∨ r + 4 ≤ b) → (b < g ∨ g + 4 ≤ b) → beside t b)))) ∧
    (Issues s q (.wayen q rd ca cb) s1 → levelOf s1 q.val = .M →
      let kind := (wGet s1 q.val ca.toNat).toNat
      let n := (wGet s1 q.val cb.toNat).toNat
      let u := n / 65536 % 256
      let target := (kind = 1 ∧ n < 65536 ∧ (classOf s1 n).isSome = true) ∨
        (kind = 2 ∧ n < 2 ^ 25 ∧ (isCipher u = true ∨ isDigest u = true)) ∨ (kind = 3 ∧ n < 2 ^ 25 ∧ isPlaten u = true) ∨
        (kind = 4 ∧ n < 1024) ∨ (kind = 5 ∧ 1 ≤ n ∧ n ≤ 65533) ∨ (kind = 6 ∧ n ≤ 10) ∨ (kind = 7 ∧ n = 0)
      let way := s1.irrix.way
      ∃ t, exec (.wayen q rd ca cb) s = .next t ∧
        (¬target → result t (resultWord 1 false 0 n) ∧ t.irrix.way = way) ∧
        (target → 8 ≤ way.length → result t (resultWord 9 false 0 n) ∧ t.irrix.way = way) ∧
        (target → way.length < 8 → wGet t q.val rd.toNat = (if rd = 0 then 0 else resultWord 0 false 0 n) ∧
          ∃ c, t.irrix.way = way ++ [c] ∧ c.kind = kind ∧ c.number = n ∧ c.at_ = s1.time))

/-- The status of a put, in the order of 09 R289: no class, a descriptor beyond the fence or a lane not OPEN answers
BAD_DESCRIPTOR, as does a message of no words or of more than 16 slots; a class without ESS in paddle mode, too little
credit, and an admission limit that is reached answer NO_CREDIT. A put that is refused for its length, for credit, for
paddle mode or for the limit writes no word of memory. One that passes every check answers OK, when its ring passes
the fence and its class asks for no check; that the put itself answers FENCE where its ring does not is the model's
choice (log 25). No memory error waits to be met. -/
def Obligations.PutRefusals : Prop :=
  ∀ (s : State) (l : Nat) (ws : List Word) (ts : List Bool), s.mem.flips = [] → s.mem.rot = [] →
    (classOf s l = none → putLaneTags s l ws ts = (stBadDescriptor, s)) ∧
    ∀ k, classOf s l = some k →
      let r := putLaneTags s l ws ts
      let x := laneSt s l
      let n := (ws.length + clSS s k - 1) / clSS s k
      let sized := 1 ≤ ws.length ∧ ws.length ≤ 16 * clSS s k
      let paddled := s.power.paddle = true ∧ clEss s k = false
      let limited := clAdmit s k ≠ 0 ∧ clAdmit s k ≤ smGet 0 s.lanes.admitted k
      let unwritten := r.2.mem = s.mem ∧ r.2.seats = s.seats
      (descReads s l 1 = false → r.1 = stBadDescriptor) ∧
      (descReads s l 1 = true →
        (x.state ≠ lsOpen → r = (stBadDescriptor, s)) ∧
        (x.state = lsOpen →
          (¬sized → r.1 = stBadDescriptor ∧ unwritten) ∧
          (sized → paddled → r.1 = stNoCredit ∧ unwritten) ∧
          (sized → ¬paddled → x.credit < n → r.1 = stNoCredit ∧ unwritten) ∧
          (sized → ¬paddled → n ≤ x.credit → x.credit ≤ 4096 → limited → r.1 = stNoCredit ∧ unwritten) ∧
          (sized → ¬paddled → n ≤ x.credit → x.credit ≤ 4096 → ¬limited →
            ((descCheck s l 1 1).isOk = false → r.1 = stBadDescriptor) ∧
            ((descCheck s l 1 1).isOk = true → (ringAdmits s k l).isOk = false → r.1 = stFence) ∧
            ((descCheck s l 1 1).isOk = true → (ringAdmits s k l).isOk = true → clChk s k = false → r.1 = stOK))))

/-- Granule 1 of a lane descriptor reads back as written, and the other lanes' descriptors stay (09 R281, R282): over
a descriptor in case. -/
def Obligations.LaneDescriptorReadsBack : Prop :=
  ∀ (s : State) (l j : Nat) (x : LaneSt), descAddr s l + 16 ≤ caseEnd →
    smGet false s.lanes.fault l = false →
    x.head < 8192 → x.tail < 8192 → x.taken < 8192 → x.credit < 8192 → x.resv < 8192 → x.state < 8 → x.cls < 1024 →
    x.seq < 2 ^ 18 → x.tseq < 2 ^ 18 →
    laneSt (setLane s l x) l = x ∧ (j ≠ l → laneSt (setLane s l x) j = laneSt s j) ∧
      ∀ b, b < descAddr s l + 4 ∨ descAddr s l + 8 ≤ b → memWord (setLane s l x).mem b = memWord s.mem b

/-- An activation entry whose gate pair passes leaves the bank as 03 R89 states: w1 the lane, every other word
register 0, c14 the data gate unsealed and the other capabilities null, PCC the code gate unsealed, CTX the seal and
the class's map, no crossing and no ring call open, and the seat at U on the gate's side, in ring mode as the class
says, by the class table of its post (18 R515); u is the state after the reads of the pair. -/
def Obligations.ActivationEntryState : Prop :=
  ∀ (s u : State) (q : SeatNo) (b k : Nat) (ga gb : Cap),
    let l := (getBank (getSeat s q.val) b).lane.toNat
    let c := classesFor u (getBank (getSeat u q.val) b).old
    entryBank s q.val = some b → classOf (classesFor s (getBank (getSeat s q.val) b).old) l = some k →
    entryPair s q.val l = .ok ((ga, gb), u) →
    ∃ t, exec (.activationEntry q) s = .next t ∧
      let x := getSeat t q.val
      let v := getBank x b
      (∀ r, bankW v r = if r = 1 then BitVec.ofNat 36 l else 0) ∧
      (∀ r, bankC v r = if r = 14 then capSetSeal gb 0 else capNull) ∧
      v.pcc = capSetSeal ga 0 ∧ v.ctx = mkCtx (capSeal ga) (clMap c k) ∧ v.progress = 0 ∧ v.st = .running ∧
      bit v.xctx 8 = false ∧ ringDepth v.ringLink = 0 ∧
      x.status.ring = (if clRing c k then BitVec.ofNat 2 (capRing ga) else 0) ∧
      x.idle = false ∧ x.status.lvl = .U ∧ x.status.bank = b ∧ x.status.side = capSide ga ∧
      x.status.ringMode = clRing c k ∧ x.status.wideOn = false ∧ detOn x = ((getSeat u q.val).force || clDet c k) ∧
      t.mem = u.mem ∧ (∀ p, p ≠ q.val → getSeat t p = getSeat u p)

/-- A pre-emption makes the running bank READY with its registers and STATUS kept, and a READY bank above it runs at
once, where no asynchronous trap is pending (06 R204, 07 R224, R225, 08 R254). -/
def Obligations.PreemptionSwitchesBank : Prop :=
  ∀ (s : State) (q : SeatNo) (b : Nat),
    let x := getSeat s q.val
    let p := x.status.bank
    seatServes s q.val = true → x.idle = false → p < b → b < 8 → topBank x = some b → anyOccupied x = false →
    x.pendStow = [] → x.pendPair = [] → residDue s.time x = false → (curBank x).st = .running →
    ∃ t, exec (.preemption q) s = .next t ∧
      let y := getSeat t q.val
      (getBank y p).st = .ready ∧ (getBank y p).status = x.status ∧
      (∀ r, bankW (getBank y p) r = bankW (curBank x) r ∧ bankC (getBank y p) r = bankC (curBank x) r) ∧
      ((getBank x b).st = .ready → y.idle = false ∧ y.status.bank = b ∧ (getBank y b).st = .running ∧
        y.status.wideOn = false) ∧
      ((getBank x b).st = .posted → y.idle = true ∧ (getBank y b).st = .posted) ∧ t.mem = s.mem

/-- Overrun, residence timeout, stow and restore, the deliveries of STOW and PAIR_MISMATCH, the pair wait's expiry,
register passes, substitution, a spare's switching on, and sampling do what their rules say where their occasion holds
(07 R226, R227; 08 R257 to R271; 02 R74; 15 R448, R449). A register pass clears the tag of every matching value, and
nothing else of it, in c1 to c15 and PCC of every bank, in the save sets, MV_ATTEMPT and the trap vectors, of the
crew's seats that serve, and of no other seat of it (02 R74). A stow writes the bank into its area as 08 R259 lays it
out, and a restore gives the bank back, with what the bank's words hold under their masks (08 R258 to R261); that they
fail at the descriptor's address, where the fence refuses the descriptor, is the model's choice (log 75), as is that a
PCC without EX comes back without its tag (log 89). The pipeline's figures in a sample are free, and the resumed
LTAKE, the referee's comparison and the CHECKSTOP trigger are the model's readings (logs 8, 26, 51, 52). Rows that
complete: ACTIVATION_OVERRUN, RESIDENCE_TIMEOUT, STOW_COMPLETE, RESTORE_COMPLETE, STOW_DELIVERY,
PAIR_MISMATCH_DELIVERY, PAIR_WAIT_EXPIRY, REGISTER_PASS, APPLY_SUBSTITUTION, SPARE_POWER_ON, SAMPLE_TAG,
SAMPLE_RECORD. -/
def Obligations.SeatEventsHappen : Prop :=
  Happens seatEventEffect ∧
  ∀ (s : State) (c : LeafNo), let h := 3 + c.val
    let clear := fun v : Cap => { v with tag := v.tag && !passHit s v }
    (∃ w, (getCox s h).passDue = some w ∧ w / strokeNs (getCox s h) < s.time / strokeNs (getCox s h)) →
    ∃ t, exec (.registerPass c) s = .next t ∧ (getCox t h).passDue = none ∧ t.mem = s.mem ∧
      (smWf {} s.sys.vectors = true → ∀ i, smGet {} t.sys.vectors i = clear (smGet {} s.sys.vectors i)) ∧
      ∀ q ∈ crewSeats h, let x := getSeat s q
        let y := getSeat t q
        (seatServes s q = false → y = x) ∧
        (seatServes s q = true →
          y.svStroke.pcc = clear x.svStroke.pcc ∧ y.svStroke.granB = clear x.svStroke.granB ∧
          y.svBow.pcc = clear x.svBow.pcc ∧ y.svBow.granB = clear x.svBow.granB ∧
          y.svM.pcc = clear x.svM.pcc ∧ y.svM.granB = clear x.svM.granB ∧ y.status = x.status ∧
          (smWf {} x.banks = true → ∀ b, (getBank y b).pcc = clear (getBank x b).pcc ∧
            (∀ n, bankW (getBank y b) n = bankW (getBank x b) n) ∧
            (smWf {} (getBank x b).c = true → ∀ n, bankC (getBank y b) n = clear (bankC (getBank x b) n)))) ∧
  ∀ (s : State) (q : SeatNo) (b a since : Nat) (last : Option (Nat × Nat)) (old : Bool), let x := getSeat s q.val
    let v := getBank x b
    let l := v.lane.toNat
    let wide := x.wideOwned && x.wideOwner == b
    b < 8 → v.status.bank < 16 → StowAreaSound s q.val b a → (a + 256 ≤ descAddr s l ∨ descAddr s l + 16 ≤ a) →
    ∃ t u, stowBank s q.val b = .ok t ∧ restoreBank t q.val b l since last old = .ok u ∧
      (let w := fun i => memWord t.mem (a + i)
       let st := w 0o143
       memCap t.mem (a + 4) = v.pcc ∧ (∀ r, 1 ≤ r → r ≤ 15 → memCap t.mem (a + 4 + 4 * r) = bankC v r) ∧
        (∀ r, 1 ≤ r → r ≤ 31 → w (0o103 + r) = bankW v r) ∧ bit st 35 = true ∧ bit st 34 = wide ∧ bits st 33 27 = q.val ∧
        bits st 26 24 = b ∧ statusOf st = v.status ∧ w 0o144 = v.ctx ∧ w 0o145 = v.xctx ∧ w 0o146 = v.xretPc ∧
        w 0o147 = v.xretDb ∧ w 0o150 = v.ringLink ∧ w 0o151 = v.progress ∧ w 0o152 = v.tbHi ∧ (w 0o153).toNat = v.waitLane.toNat ∧
        (wide = true → ∀ i, i < 128 → w (0o200 + i) = smGet 0 x.wide i) ∧
        ∀ e, e < a + 4 ∨ a + (if wide then 256 else 128) ≤ e → memWord t.mem e = memWord s.mem e) ∧
      let y := getSeat u q.val
      let k := getBank y b
      k.st = .ready ∧ k.lane = v.lane ∧ k.status = v.status ∧ (∀ r, r < 32 → bankW k r = bankW v r) ∧
        (∀ r, r < 16 → bankC k r = bankC v r) ∧ k.pcc = { v.pcc with tag := v.pcc.tag && holds (capRights v.pcc) rEX } ∧
        curSeal k = curSeal v ∧ ctxMap k = ctxMap v ∧ k.xctx = v.xctx &&& 0o777774001577 ∧ k.xretPc = v.xretPc ∧
        k.xretDb = v.xretDb ∧ k.ringLink = v.ringLink &&& 0o37777 ∧ k.progress = v.progress ∧ k.tbHi = v.tbHi ∧
        k.waitLane = v.waitLane ∧ bit (memWord u.mem (a + 0o143)) 35 = false ∧
        (∀ e, e ≠ a + 0o143 → memWord u.mem e = memWord t.mem e) ∧
        (wide = true → y.wideOwned = true ∧ y.wideOwner = b ∧ ∀ i, i < 128 → smGet 0 y.wide i = smGet 0 x.wide i)

/-- The cox instructions that touch only their cox (08 R240 to R246): the registers, the delayed writes, the program
counter with its delay slot, the data store and what holds stage X; the other stores, the picks and the relays stay,
and so does everything else but the counters. One that reads a result which the instruction before it has yet to write
acts as OR h0, h0, h0 and adds one to the cox's counter 9 (R241). CNT adds one, modulo 2^54, to the cox's event
counter of its immediate, 0 to 47 (R243, 15 R436). Rows that complete: COX_ADD, COX_SUB, COX_AND, COX_OR, COX_XOR,
SHL, SHR, COX_ADDI, LD, ST, BEQ, BNE, BLTU, JMP, BNXT, WAITS, IDLE, STRK, PEND, SEATST, CNT. -/
def Obligations.CoxInstructionResults : Prop :=
  (∀ (i : Instr) (x : CoxNo) (f : State → Cox → CoxResult) (s : State), coxResult i = some (x, f) → coxActs s x.val = true →
     (SignedReads (getCox s x.val) i → ∃ t, exec i s = .next t ∧
       let c := getCox s x.val
       let k := getCox t x.val
       let r := f s c
       (∀ n, hGet k n = coxReg c r.write n) ∧ k.delayed = r.delayed ∧
       k.pc = c.branch.getD ((c.pc + 1) % 8192) ∧ k.branch = (if c.slot then none else r.target.join) ∧
       k.slot = (r.target.isSome && !c.slot) ∧
       (∀ a, smGet 0 k.data a = match r.data with
         | some (b, v) => if a = b then v else smGet 0 c.data a
         | none => smGet 0 c.data a) ∧
       k.waiting = r.waiting ∧ k.idling = r.idling ∧ k.prog = c.prog ∧ k.course = c.course ∧ k.map = c.map ∧
       k.picks = c.picks ∧ k.relays = c.relays ∧ k.pairs = c.pairs ∧
       (∀ y, y ≠ x.val → getCox t y = getCox s y) ∧
       { t with coxes := [], counters := [] } = { s with coxes := [], counters := [] }) ∧
     (¬SignedReads (getCox s x.val) i → ∃ t, exec i s = .next t ∧
       let c := getCox s x.val
       let k := getCox t x.val
       let key := (0o110000 + 0o200 * x.val) / 2 + 9
       (∀ n, hGet k n = coxReg c none n) ∧ k.delayed = [] ∧ k.pc = c.branch.getD ((c.pc + 1) % 8192) ∧ k.branch = none ∧
       k.data = c.data ∧ k.waiting = none ∧ k.idling = false ∧
       smGet 0 t.counters key % 2 ^ 54 = (smGet 0 s.counters key + 1) % 2 ^ 54)) ∧
  (∀ (x : CoxNo) (imm : BitVec 18) (s : State), coxActs s x.val = true → imm.toNat ≤ 47 →
     ∃ t, exec (.cnt x imm) s = .next t ∧
       let key := (0o110000 + 0o200 * x.val) / 2 + imm.toNat
       smGet 0 t.counters key % 2 ^ 54 = (smGet 0 s.counters key + 1) % 2 ^ 54 ∧
       ∀ k, k ≠ key → smGet 0 t.counters k = smGet 0 s.counters k)

/-- PICK takes the head of a ready queue, which the cox then holds, and an empty queue gives 0; RELAY hands a held
pick to a member's relay queue of at most 64, and TAKER takes the oldest relay; a pick unused for 14 ns returns to the
head of its queue, where its lane still belongs there (08 R243, R248 to R250). The 14 ns are 16 cox cycles in whole ns
(log 61); where TAKER puts the tag for an odd rd is the model's choice (log 97). Rows that complete: PICK, RELAY,
TAKER, PICK_RETURN. -/
def Obligations.CoxQueueResults : Prop :=
  ∀ (x : CoxNo) (rd ra rb : Reg) (s : State), let c := getCox s x.val
    (∀ i, coxActs s x.val = true → SignedReads c (.pick x rd ra) → i = (hGet c ra.toNat).toNat % 1024 →
      ∃ t, exec (.pick x rd ra) s = .next t ∧
        match readyGet s x.val i with
        | [] => (getCox t x.val).delayed = [(rd.toNat, 0)] ∧ (getCox t x.val).picks = c.picks ∧ t.lanes = s.lanes
        | e :: es =>
          (getCox t x.val).delayed = [(rd.toNat, BitVec.ofNat 18 (2 ^ 17 + (if e.2 then 2 ^ 16 else 0) + e.1.toNat))] ∧
          (getCox t x.val).picks = c.picks ++ [{ lane := e.1, stowed := e.2, home := x.val, pend := i, at_ := s.time }] ∧
          readyGet t x.val i = es ∧ ∀ y j, readyKey y j ≠ readyKey x.val i → readyGet t y j = readyGet s y j) ∧
    (∀ p m, coxActs s x.val = true → SignedReads c (.relay x rd ra rb) → x.val < 3 → heldPick c (hGet c ra.toNat) = some p →
      memberOf x.val ((hGet c rd.toNat).toNat % 8) = some m → (getCox s m).relays.length < 64 →
      ∃ t, exec (.relay x rd ra rb) s = .next t ∧ (getCox t x.val).picks = c.picks.erase p ∧
        (getCox t m).relays = (getCox s m).relays ++ [(pickWord p.lane p.stowed, hGet c rb.toNat &&& 0o3777)] ∧
        (getCox t m).idling = false) ∧
    (∀ r rs, coxActs s x.val = true → 1 ≤ x.val → c.relays = r :: rs →
      ∃ t, exec (.taker x rd) s = .next t ∧ (getCox t x.val).relays = rs ∧
        (getCox t x.val).delayed = [(rd.toNat, r.1), ((rd.toNat + 1) % 32, r.2)] ∧
        (getCox t x.val).picks.length = c.picks.length + 1) ∧
    (∀ p, moduleRuns s = true → c.picks.find? (fun y => y.lane == p.lane) = some p → p.at_ + 14 ≤ s.time →
      ∃ t, exec (.pickReturn x p.lane) s = .next t ∧ (getCox t x.val).picks = c.picks.erase p ∧
        readyGet t p.home p.pend = (if mayQueue (dropPick s x.val p) p.lane.toNat p.stowed then [(p.lane, p.stowed)] else []) ++
          readyGet s p.home p.pend)

/-- POST of a held pick to a seat that accepts it: a FREE bank becomes POSTED with the lane (or RESTORING for a stowed
activation), a BLOCKED one STOWING; the pick is used up. A post to a seat that does not accept it returns the pick to
the head of its queue, where its lane still belongs there (08 R243, R248 to R250, R255, R256). POSTP of a held pick
under a triple whose seats A and B accept posts both to them as a pair, under the first free pair buffer, with its
pair wait (08 R243, R264, R265). The seat of a relayed pick is the model's reading of R272 (log 63); that POSTP asks
no pair flag of the class, and names the referee's seat at once, are its choices (log 98). Rows that complete: POST,
POSTP. -/
def Obligations.PostResults : Prop :=
  (∀ (x : CoxNo) (rd ra rb : Reg) (s : State) (p : Pick) (k : Nat), let c := getCox s x.val
     let q := postTarget s x.val k p ((hGet c rd.toNat).toNat % 8)
     let b := (hGet c rb.toNat).toNat % 8
     coxActs s x.val = true → SignedReads c (.post x rd ra rb) → 3 ≤ x.val → heldPick c (hGet c ra.toNat) = some p →
     classOf s p.lane.toNat = some k →
     clPair s k = false → q < 72 →
     (postable (getSeat s q) b = true → ∃ t, exec (.post x rd ra rb) s = .next t ∧
       (getCox t x.val).picks = c.picks.erase p ∧
       let v := getBank (getSeat t q) b
       ((getBank (getSeat s q) b).st = .free → p.stowed = false →
         v.st = .posted ∧ v.lane = p.lane ∧ v.role = .none ∧ v.since = s.time) ∧
       ((getBank (getSeat s q) b).st = .free → p.stowed = true → v.st = .restoring ∧ v.lane = p.lane) ∧
       ((getBank (getSeat s q) b).st = .blocked → v.st = .stowing) ∧
       (∀ a, a ≠ b → getBank (getSeat t q) a = getBank (getSeat s q) a) ∧
       (∀ y, y ≠ q → getSeat t y = getSeat s y)) ∧
     (postable (getSeat s q) b = false → ∃ t, exec (.post x rd ra rb) s = .next t ∧
       (getCox t x.val).picks = c.picks.erase p ∧ t.seats = s.seats ∧
       readyGet t p.home p.pend = (if mayQueue (dropPick s x.val p) p.lane.toNat p.stowed then [(p.lane, p.stowed)] else []) ++
         readyGet s p.home p.pend)) ∧
  (∀ (x : CoxNo) (rd ra rb : Reg) (s : State) (p : Pick) (k i : Nat), let c := getCox s x.val
     let w := tripleWord c ((hGet c rd.toNat).toNat % 16)
     let a := mapSeat s x.val (bits w 2 0)
     let b := mapSeat s x.val (bits w 5 3)
     let r := mapSeat s x.val (bits w 8 6)
     let n := (hGet c rb.toNat).toNat % 8
     coxActs s x.val = true → SignedReads c (.postp x rd ra rb) → 3 ≤ x.val → heldPick c (hGet c ra.toNat) = some p →
     classOf s p.lane.toNat = some k →
     (List.range 8).find? (fun i => !(getPair s x.val i).used) = some i → p.stowed = false → a < 72 → b < 72 → r < 72 →
     a ≠ b → (getBank (getSeat s a) n).st = .free → (getBank (getSeat s b) n).st = .free →
     postable (getSeat s a) n = true → postable (getSeat s b) n = true →
     ∃ t, exec (.postp x rd ra rb) s = .next t ∧ (getCox t x.val).picks = c.picks.erase p ∧
       let u := getPair t x.val i
       u.used = true ∧ u.lane = p.lane ∧ u.seatA = a ∧ u.seatB = b ∧ u.ref = r ∧ u.prio = n ∧ u.since = s.time ∧
       u.wait = (if bits w 35 18 = 0 then clMaxact s k else 100 * bits w 35 18) ∧
       (getBank (getSeat t a) n).st = .posted ∧ (getBank (getSeat t a) n).role = .seatA ∧
       (getBank (getSeat t b) n).st = .posted ∧ (getBank (getSeat t b) n).role = .seatB ∧
       (getBank (getSeat t a) n).lane = p.lane ∧ (getBank (getSeat t b) n).lane = p.lane)

/-- At each multiple of the stroke length, once, a running cox that WAITS takes the row address of the stroke that
begins, and one that does not misses it: its boundary flag is set, IDLE ends, and its event counter of missed strokes
rises by one, modulo 2^54 (15 R436, R444); the admission counts of the crew's classes return to zero (08 R244 to R246,
09 R290). The row of a stroke in paddle mode is the model's reading (log 54). -/
def Obligations.StrokeBoundaryResult : Prop :=
  ∀ (x : CoxNo) (s : State), let c := getCox s x.val
    s.pins.porN = true → dark s.power = false → s.boot.done = true → s.time % (500 * (c.n + 1)) = 0 →
    c.lastStroke ≠ some (s.time / (500 * (c.n + 1))) →
    ∃ t, exec (.strokeBoundary x) s = .next t ∧
      let k := getCox t x.val
      k.lastStroke = some (s.time / (500 * (c.n + 1))) ∧
      (∀ n, clHome s n = x.val → smGet 0 t.lanes.admitted n = 0) ∧
      (coxRuns s x.val = true →
        (∀ rd, c.waiting = some rd → k.waiting = none ∧ k.bflag = false ∧ k.delayed = [(rd, rowAddress s c)]) ∧
        (c.waiting = none → k.bflag = true ∧ k.idling = false)) ∧
      (let missed := (0o110000 + 0o200 * x.val) / 2 + 1
       smGet 0 t.counters missed % 2 ^ 54 =
         (smGet 0 s.counters missed + if coxRuns s x.val = true ∧ c.waiting = none then 1 else 0) % 2 ^ 54) ∧
      t.mem = s.mem

/-- The ports, host puts and the lane unit: received frames are steered to a lane, or dropped; egress frames leave; a
host message is put; a held message is offered again; a missed deadline is reported; the bucket tables swap; an
imbalance is reported; links come and go (09 R290 to R312, R553; 19 R533 to R535). The galley's completions: a
descriptor's record goes to its lane and HEAD passes it, or is held and the channel is in HOLD; a pause takes hold; a
counter dump takes its snapshot or is skipped, and its record's word goes to DUMP_LANE (13 R409 to R413, 15 R445 to
R447). Which frames are stamped is PRESUMED (log 35); a dump's snapshot takes pipeline events with free addends (log
55), and the turn of a lane and of a channel is the model's (log 20); that an egress message which the fence denies
stays on its lane, the host put outside the window, and the words of an imbalance event are the model's choices (logs
64, 82, 83). Rows that complete: DESCRIPTOR_COMPLETION, CHANNEL_PAUSED, COUNTER_DUMP, DUMP_RECORD_COMPLETE,
FRAME_RECEIVE, FRAME_TRANSMIT, HOST_PUT, HELD_MESSAGE_RETRY, LANE_TIMEOUT, STEERING_SWITCH, IMBALANCE_EVENT, LINK_UP,
LINK_LOSS. -/
def Obligations.LaneAndGalleyEvents : Prop := Answers laneEventEffect ∧ Answers galleyEventEffect

/-- DESCRIPTOR_FETCH on an enabled idle channel whose ring holds a descriptor reads its 16 words, and the checks of 13
R403 decide in their order: a bad form, or a part of a span outside the host window, ends it BAD_DESCRIPTOR, a failed
capability step k ends it CAPABILITY with that step, and an untranslated plain descriptor that the fence admits is in
RUN with nothing moved (13 R396, R400, R401, R403, R407). What the host window asks of an untranslated page is the
model's reading (log 85). -/
def Obligations.DescriptorFetchResults : Prop :=
  ∀ (s : State) (chn : ChannelNo) (g : Region), let ch := chn.val
    let c := getChan s ch
    let a := chanEntry c
    let x := xferOf s (memWords s.mem a 16) ((List.range 4).map fun i => g.tagcap && memTag s.mem (a + 4 * i))
    galleyRuns s = true → c.enable = true → c.state = 0 → c.pause = false → c.head ≠ c.tail → c.xfer = none →
    wayOnChannel s ch = false → chanNext s ch = true → s.mem.flips = [] → s.mem.rot = [] →
    fenceCheck s { cls := 3, dir := 0, p := a, n := 16 } = .ok g → SoundCase s a 16 →
    ∃ t, exec (.descriptorFetch chn) s = .next t ∧ t.mem = s.mem ∧ (getChan t ch).state = 2 ∧
      ∃ y, (getChan t ch).xfer = some y ∧ y.words = memWords s.mem a 16 ∧ y.moved = 0 ∧
        (xFormBad c x = true ∨ hostSpanBad s c x = true → y.ended = true ∧ y.status = stBadDescriptor ∧ y.step = 0) ∧
        (∀ k, xFormBad c x = false → hostSpanBad s c x = false → xCapStep c x = some k → y.ended = true ∧ y.status = stCapability ∧ y.step = k) ∧
        (xFormBad c x = false → xCapStep c x = none → c.priv = true → xOct x = 0 →
          (∀ p, p ∈ xSpans x → GalleyReaches s (if p.write then 1 else 0) p.ea p.n) →
          y.ended = false ∧ y.status = 0 ∧ y.total = xLen x)

/-- One burst of each data operation over plain words of case on an untranslated channel: COPY moves words and clears
the tags of their granules, PROOF takes them into the check value, ZERO writes zeros, TAG_SWEEP clears the matching
tags of its granules and keeps their words; no other word of memory changes (13 R402 to R406, R416 to R421). A COPY
with INDEX moves the element that its index word names, or counts it failed at step 6 where it lies outside SRC, and
writes the element's status word (R408); one in OCTMODE 1 writes host octets as a prefix-form sequence, and one in
OCTMODE 2 posts the octets of such a sequence to the host (R407, 10 R341). That a command is one burst is the model's
choice (log 36); that its words are what the channel's buffer bursts bring, the destination burst stored in parts
where they are fewer, and that a step of octets ends at a destination word, are its readings (log 20). Rows that
complete: COPY, PROOF, ZERO, TAG_SWEEP. -/
def Obligations.GalleyBurstResults : Prop :=
  ∀ (s : State) (chn : ChannelNo) (x : Xfer), let ch := chn.val
    let a := capCursor x.srcCap + x.moved
    let d := capCursor x.dstCap + x.moved
    let left := x.total - x.moved
    (let n := copyBurst (getChan s ch) a d left
     Runs s ch 0 x → xIndex x = false → xOct x = 0 → SoundCase s a n → SoundCase s d n → GalleyReaches s 0 a n →
     GalleyReaches s 1 d n → ∃ t, exec (.copy chn) s = .next t ∧ Carries t ch x n ∧
      WordsMoved s t d n fun i => memWord s.mem (a + i)) ∧
    (let n := caseBurst a left
     Runs s ch 1 x → xOct x = 0 → 1 ≤ xPalg x → SoundCase s a n → GalleyReaches s 0 a n →
      ∃ t, exec (.proof chn) s = .next t ∧ Carries t ch x n ∧ t.mem = s.mem ∧
        ∃ y, (getChan t ch).xfer = some y ∧
          y.crc = crcUpdate (xAlg x) x.crc ((List.range n).flatMap fun i => beOctets 5 (memWord s.mem (a + i)).toNat)) ∧
    (let n := caseBurst d left
     Runs s ch 2 x → SoundCase s d n → GalleyReaches s 1 d n →
      ∃ t, exec (.zero chn) s = .next t ∧ Carries t ch x n ∧ WordsMoved s t d n fun _ => 0) ∧
    (let n := caseBurst d left
     Runs s ch 3 x → d % 4 = 0 → n % 4 = 0 → SoundCase s d n → GalleyReaches s 0 d n →
      ∃ t, exec (.tagSweep chn) s = .next t ∧ Carries t ch x n ∧
        (∀ b, memWord t.mem b = memWord s.mem b) ∧
        (∀ b, memTag t.mem (4 * b) = (memTag s.mem (4 * b) &&
          !(decide (d ≤ 4 * b ∧ 4 * b < d + n) && sweepMatch x (memCap s.mem (4 * b)))))) ∧
    (let c := getChan s ch
     let e := c.eidx
     let k := xEsize x
     let i := capCursor x.idxCap + e
     let a := capBase x.srcCap + (memWord s.mem i).toNat
     let d := capCursor x.dstCap + e * k
     let p := capCursor x.idxCap + xStoff x + e
     Runs s ch 0 x → xIndex x = true → xOct x = 0 → e < xLen x → 1 ≤ k → SoundCase s i 1 → GalleyReaches s 0 i 1 →
     (xStat x = true → SoundCase s p 1 ∧ GalleyReaches s 1 p 1) →
     (a + k ≤ capLast x.srcCap + 1 → k ≤ 64 * max 1 c.buflim - a % 64 → SoundCase s a k → SoundCase s d k → GalleyReaches s 0 a k →
       GalleyReaches s 1 d k → ∃ t, exec (.copy chn) s = .next t ∧ (getChan t ch).eidx = e + 1 ∧
        (∃ y, (getChan t ch).xfer = some y ∧ y.moved = x.moved + k ∧ y.ended = decide (e + 1 = xLen x) ∧ y.status = x.status ∧
          y.failed = x.failed) ∧
        (∀ j, j < k → (xStat x = true → d + j ≠ p) → memWord t.mem (d + j) = memWord s.mem (a + j)) ∧
        (xStat x = true → memWord t.mem p = 0) ∧
        (∀ b, b < d ∨ d + k ≤ b → (xStat x = true → b ≠ p) → memWord t.mem b = memWord s.mem b) ∧
        ∀ b, memTag t.mem b = (memTag s.mem b && !decide (d / 4 ≤ b / 4 ∧ b / 4 ≤ (d + k - 1) / 4) &&
          !(xStat x && decide (b / 4 = p / 4)))) ∧
     (capLast x.srcCap + 1 < a + k → x.status = 0 → ∃ t, exec (.copy chn) s = .next t ∧ (getChan t ch).eidx = e + 1 ∧
        (∃ y, (getChan t ch).xfer = some y ∧ y.moved = x.moved ∧ y.ended = decide (e + 1 = xLen x) ∧ y.status = 8 ∧ y.step = 6 ∧
          y.failed = x.failed + 1) ∧
        (∀ b, memWord t.mem b = if xStat x = true ∧ b = p then BitVec.ofNat 36 (8 * 2 ^ 30 + 6) else memWord s.mem b) ∧
        ∀ b, memTag t.mem b = (memTag s.mem b && !(xStat x && decide (b / 4 = p / 4))))) ∧
    (let n := (copyOctetReach (getChan s ch) x).1
     let off := xOffset x + x.moved
     let src := fun j => capCursor x.srcCap + (off + j) / 4
     let dest := capCursor x.dstCap + x.moved / 4
     Runs s ch 0 x → xIndex x = false → xOct x = 1 → x.moved % 4 = 0 → hostUp s = true → s.pins.readFails = false →
     (∀ j, j < n → isHost (src j) = true) → GalleyReaches s 0 (src 0) ((off % 4 + n + 3) / 4) → SoundCase s dest ((n + 3) / 4) →
     GalleyReaches s 1 dest ((n + 3) / 4) →
     ∃ t, exec (.copy chn) s = .next t ∧ Carries t ch x n ∧
      (∀ j, j < n → let w := memWord t.mem (dest + j / 4)
        slotPresent w (j % 4) = true ∧
          slotOctet w (j % 4) = Config.hostOctet (hostAddr s (src j) + (off + j) % 4) (s.free + off % 4 + j)) ∧
      (∀ j, n ≤ j → j < 4 * ((n + 3) / 4) → slotPresent (memWord t.mem (dest + j / 4)) (j % 4) = false) ∧
      (∀ b, b < dest ∨ dest + (n + 3) / 4 ≤ b → memWord t.mem b = memWord s.mem b) ∧
      ∀ b, memTag t.mem b = (memTag s.mem b && !decide (dest / 4 ≤ b / 4 ∧ b / 4 ≤ (dest + (n + 3) / 4 - 1) / 4))) ∧
    (let r := copyOctetReach (getChan s ch) x
     let src := capCursor x.srcCap
     let word := fun i => memWord s.mem (src + x.moved / 4 + i)
     let dst := fun j => capCursor x.dstCap + (xOffset x + x.moved + j) / 4
     Runs s ch 0 x → xIndex x = false → xOct x = 2 → hostUp s = true →
     (∀ i, i < r.2 → prefixForm (word i) = true ∧ word i ≠ 0 ∧
       min 4 (x.total - 4 * (x.moved / 4 + i)) ≤ (presentOctets (word i)).length) →
     SoundCase s (src + x.moved / 4) r.2 → GalleyReaches s 0 (src + x.moved / 4) r.2 →
     (∀ j, j < r.1 → isHost (dst j) = true) → GalleyReaches s 1 (dst 0) (((xOffset x + x.moved) % 4 + r.1 + 3) / 4) →
     ∃ t, exec (.copy chn) s = .next t ∧ Carries t ch x r.1 ∧ t.mem = s.mem ∧
      t.pins.hostOut = ((List.range r.1).map fun j =>
        (hostAddr s (dst j) + (xOffset x + x.moved + j) % 4,
          slotOctet (memWord s.mem (src + (x.moved + j) / 4)) ((x.moved + j) % 4))).reverse ++ s.pins.hostOut)

/-- Writes of a channel's words by a seat at M: CH_CTL with ENABLE = 1 on an idle channel enables it with its fields;
PAUSE set and cleared in a busy channel changes nothing else but what R413 states; the doorbell sets TAIL when it lies
at most 2^RLOG positions ahead of HEAD (13 R398 to R400, R413). That the rows carry the physical word is the model's
choice (log 33). Rows that complete: CHANNEL_ENABLE, CHANNEL_PAUSE, CHANNEL_RESUME, GALLEY_DOORBELL. -/
def Obligations.ChannelWordWrites : Prop :=
  ∀ (s : State) (q : SeatNo) (chn : ChannelNo) (v : Word), let ch := chn.val
    let c := getChan s ch
    (StoresAtM s q (0o201000000 + 16 * ch) → bit v 35 = true → c.state = 0 ∨ c.state = 5 ∨ c.state = 6 →
      1 ≤ bits v 25 22 → bits v 25 22 ≤ 12 →
      ∃ t, exec (.channelEnable q chn v) s = .next t ∧ getChan t ch = enabled c v ∧
        ∀ k, k ≠ ch → getChan t k = getChan s k) ∧
    (StoresAtM s q (0o201000000 + 16 * ch) → bit v 34 = true → c.state = 1 ∨ c.state = 2 ∨ c.state = 3 ∨ c.state = 4 →
      ∃ t, exec (.channelPause q chn v) s = .next t ∧ getChan t ch = { c with pause := true } ∧
        ∀ k, k ≠ ch → getChan t k = getChan s k) ∧
    (StoresAtM s q (0o201000000 + 16 * ch) → bit v 34 = false → c.state = 3 →
      ∃ t, exec (.channelResume q chn v) s = .next t ∧
        getChan t ch = { c with pause := false, paused := false,
                                state := if c.hold then 4 else if c.xfer.isSome then 2 else 0 } ∧
        ∀ k, k ≠ ch → getChan t k = getChan s k) ∧
    (StoresAtM s q (0o201040000 + ch) → (8192 + bits v 12 0 - c.head) % 8192 ≤ 2 ^ c.rlog →
      ∃ t, exec (.galleyDoorbell q chn v) s = .next t ∧ getChan t ch = { c with tail := bits v 12 0 } ∧
        ∀ k, k ≠ ch → getChan t k = getChan s k)

/-- An engine that takes a request of its own operation which passes the checks of 12 R374 to R377 does the job its
rule states, on platens, cipher engines, digest engines and custody (12 R382 to R391): the job has status OK, the
stated result words and what it will write to the key slots when it completes, and the state is what the operation
states. Modular powers are the powers of arithmetic. The algorithms are PRESUMED from their standards (log 10), key
layouts and lengths are the model's (logs 40 to 44), and a custody operation waits for an earlier one on its slots
(log 86). Rows that complete: MODADD, MODMUL, MODEXP, RSA_PRIV, RSA_PUB, AES_ECB, AES_CBC, AES_CTR, AES_GCM, AES_CMAC,
TDES_ECB, TDES_CBC, TDES_CMAC, PIN_XLATE, DUKPT_PIN, DUKPT_DEC, RANDOM, KGEN, KIMPORT, KEXPORT, KDEL, KINFO, KSEAL,
SHA, HMAC_GEN, HMAC_VER. -/
def Obligations.EngineOperationResults : Prop :=
  ∀ (i : Instr) (unit : UnitCode) (lane : LaneNo) (op : Nat) (custody : Bool) (s t v : State) (m : Msg) (ws : List Word)
      (w : Option SlotWrite), let u := unit.toNat
    let r := reqOf t u lane.toNat m
    engineOf i = some (unit, lane, op, custody) → opBelongs u op = true →
    EngineTakes s u lane.toNat (if cipherCode unit then 16 else if digestCode unit then 4 else 1) m t →
    r.op = op → r.whole = true → (custody = true → custodyWaits s r = false) →
    (w = none ∧ (PlatenAnswers i t r ws v ∨ CipherAnswers i t r ws v ∨ DigestAnswers i t r ws v) ∨
      CustodyAnswers i t r ws w v) →
    exec i s = .next { v with engines := { v.engines with jobs := v.engines.jobs ++
      [{ unit := u, lane := lane, rlane := BitVec.ofNat 16 (bits (m.words.getD 0 0) 15 0), reqId := m.words.getD 1 0, op := op,
         status := 0, detail := 0, result := ws, slots := reqSlots r, custody := custody, commit := w }] } }

/-- A compositor takes its request and parses (14 R422 to R433): a whole PARSE request of a resident form, its data a
sequence in prefix form with octets after SKIP, gives the parse's status, its reject code and its records. Any other
is answered BAD_DESCRIPTOR: another OP, an OPLEN that the words present do not match, a form that is not resident,
data not in prefix form, or a SKIP that is not below the octet count (14 R430, R431). Rows that complete: PARSE. -/
def Obligations.ParseResults : Prop :=
  ∀ (unit : UnitCode) (lane : LaneNo) (s t : State) (m : Msg) (os : List Octet), let u := unit.toNat
    let w := fun i => m.words.getD i 0
    let f := bits (w 0) 23 16
    let skip := bits (w 3) 17 0
    let h := formHead t f
    let rl := bits (w 0) 15 0
    let p := parseRun t f ⟨h, os.drop skip, skip, min h.maxf ((laneMost t rl - 4) / 4)⟩
      (8 * (os.length + 2 * h.maxf + 2)) { state := h.start }
    compositorCode unit = true → EngineTakes s u lane.toNat 1 m t →
    (bits (w 0) 35 27 = 0o400 → m.words.length = 4 + bits (w 2) 12 0 → formResident t f = true →
      seqOctets (m.words.drop 4) = some os → skip < os.length →
      ∃ v j, exec (.parse unit lane) s = .next v ∧ v.engines.jobs = t.engines.jobs ++ [j] ∧ j.op = 0o400 ∧
        { v with engines := t.engines } = t ∧ j.unit = u ∧ j.lane = lane ∧ j.rlane = BitVec.ofNat 16 rl ∧ j.reqId = w 1 ∧
        j.result = p.2.records.reverse.flatten ∧ j.detail = p.1 ∧ j.status = (if p.1 = 0 then 0 else 0o13) ∧
        (j.reject.isSome = true ↔ p.1 ≠ 0 ∧ h.rejen = true)) ∧
    (¬(bits (w 0) 35 27 = 0o400 ∧ m.words.length = 4 + bits (w 2) 12 0 ∧ formResident t f = true ∧
        ∃ os', seqOctets (m.words.drop 4) = some os' ∧ skip < os'.length) →
      ∃ v j, exec (.parse unit lane) s = .next v ∧ v.engines.jobs = t.engines.jobs ++ [j] ∧ j.op = 0o400 ∧ j.status = 1 ∧ j.result = [] ∧
        j.detail = 0 ∧ j.reject = none)

/-- An engine's oldest job of a lane makes its writes to the key slots and commits its response, or holds it; a
failing noise source stops contributing and is reported; a due reseed clears the count while a source is healthy, and
otherwise the instance refuses (12 R376 to R381, R392 to R394). A request whose response lane is not an open lane of
kind 4 under the same consumer seal gets no response: a notice BAD_DESCRIPTOR, and no job (12 R377). Which jobs a KDEL
waits for is the model's reading (log 86). Rows that complete: ENGINE_RESPONSE, ENTROPY_FAILURE, DRBG_RESEED. -/
def Obligations.EngineEvents : Prop := Answers engineEventEffect ∧
  (∀ (i : Instr) (unit : UnitCode) (lane : LaneNo) (op : Nat) (custody : Bool) (s t : State) (m : Msg), let u := unit.toNat
     engineOf i = some (unit, lane, op, custody) → (platenCode unit || cipherCode unit || digestCode unit) = true →
     EngineHead s u lane.toNat (if cipherCode unit then 16 else if digestCode unit then 4 else 1) m t →
     bits (m.words.getD 0 0) 35 27 = op → (custody = true → custodyWaits s (reqOf t u lane.toNat m) = false) →
     rlaneOk t lane.toNat (bits (m.words.getD 0 0) 15 0) = false →
     exec i s = .next (completeCount
       (notice t lane.toNat { status := 1, sq := some m.sq, len := m.words.length, who := u }) u 1))

/-- A message that a put accepts on an open lane that holds none is the message at its HEAD, word for word, under the
lane's next sequence number: over a ring and a descriptor in sound case that do not overlap (09 R283 to R287, R291).
-/
def Obligations.MessageReachesTheHead : Prop :=
  ∀ (s t : State) (l k : Nat) (ws : List Word), classOf s l = some k → putLane s l ws = (0, t) →
    (laneSt s l).head = (laneSt s l).tail → ws.length < 8192 → (ws.length + clSS s k - 1) / clSS s k ≤ 2 ^ clRlog s k →
    SoundCase s (ringBase s k l) (ringLen s k) → SoundCase s (descAddr s l) 16 → smGet false s.lanes.fault l = false →
    (ringBase s k l + ringLen s k ≤ descAddr s l ∨ descAddr s l + 16 ≤ ringBase s k l) →
    ((laneSt s l).armed = false ∨ (descAdmits s l 3).isOk = true) →
    ∃ m, (laneHead t l).1 = some m ∧ m.words = ws ∧ m.sq = (laneSt s l).seq ∧
      m.slots = (ws.length + clSS s k - 1) / clSS s k

/-- The scrub, row repair and patrol: a corrected error is counted and its row marked, a double error poisons its
granule, a row moves to a spare or is reported, a failing stripe is poisoned, and with it the key slots that it holds
(10 R321 to R323, R334, R336; 12 R369). A host read that times out ends a galley burst BUS_ERROR, breaks a host put,
and traps a seat's load that passes every other check with POISON and the physical address: LDW, LDD, LDC, VLD, and
LDM and MOVW at their first word, with all their work left in SV_PROG (10 R341, 19 R537, 05 R157). That poison moves a
row once, that an error found late arrives in a command, where the slot store lies, and that a host put then answers
BROKEN, are the model's readings (logs 34, 74, 87, 82). The burst that ends BUS_ERROR moves nothing, and the
descriptor's STEP is 0; an index word that times out fails its element alone (13 R408, R411). Rows that complete:
CASE_SCRUB, ROW_REPAIR, BULK_PATROL, HOST_READ_TIMEOUT. -/
def Obligations.MemoryEvents : Prop :=
  Answers memoryEventEffect ∧
  (∀ (s s1 e : State) (q : SeatNo) (i : Instr) (load : HostLoad) (as : List Access) (rss : List (List Run)) (a : Access) (r : Run)
      (prog : Word),
    let poisoned : Trap := { a.trap 0o16 0 with aux := BitVec.ofNat 36 r.pa, prog := prog }
    let noted := (rss.flatten.map fun r => (r.pa, false)).foldl (timedNote q.val) e
    let u := takeTrap (modCur noted q.val fun b => { b with progress := prog }) q.val poisoned
    let fresh := bit (curBank (getSeat s1 q.val)).progress 35 = false ∧ interrupted s1 q.val = false ∧ inRing s1 q.val = false
    ((∃ rd m, load = .ldw rd m ∧ i = .ldw q rd m ∧ a = memAccess s1 q.val m 1 1 rRD false ∧ as = [a] ∧ rss = [[r]] ∧ prog = 0) ∨
      (∃ rd m, load = .ldd rd m ∧ i = .ldd q rd m ∧ a = memAccess s1 q.val m 2 2 rRD false ∧ as = [a] ∧ rss = [[r]] ∧ prog = 0) ∨
      (∃ rd m, load = .ldc rd m ∧ i = .ldc q rd m ∧ a = memAccess s1 q.val m 4 4 rRD false ∧ as = [a] ∧ rss = [[r]] ∧ prog = 0 ∧
        inRing s1 q.val = false) ∨
      (∃ rd m, load = .vld rd m ∧ i = .vld q rd m ∧ a = memAccess s1 q.val m 8 8 rRD false ∧ as = [a] ∧ rss = [[r]] ∧ prog = 0 ∧
        inRing s1 q.val = false ∧ (statusOfSeat s1 q.val).wideOn = true) ∨
      (∃ rd m, load = .ldm rd m ∧ i = .ldm q rd m ∧ fresh ∧ (wGet s1 q.val rd.toNat).getLsbD rd.toNat = false ∧
        let n := ((List.range 32).filter fun k => decide (1 ≤ k) && (wGet s1 q.val rd.toNat).getLsbD k).length
        1 ≤ n ∧ a = { memAccess s1 q.val m n 1 rRD false with n := 1 } ∧ as = [a] ∧ rss = [[r]] ∧
        prog = 0o400000000000 ||| (wGet s1 q.val rd.toNat &&& 0o37777777776)) ∨
      (∃ rd ra rb aux d, load = .movw rd ra rb aux ∧ i = .movw q rd ra rb aux ∧ fresh ∧
        let n := (wGet s1 q.val rb.toNat).toNat % 2 ^ 35
        let k := if aux = 1 then n - 1 else 0
        1 ≤ n ∧ a = { cap := cGet s1 q.val ra.toNat, ea := (capCursor (cGet s1 q.val ra.toNat) + k : Nat), n := 1, need := rRD } ∧
        as = [{ cap := cGet s1 q.val rd.toNat, ea := (capCursor (cGet s1 q.val rd.toNat) + k : Nat), n := 1, need := rWR, write := true }, a] ∧
        rss = [[d], [r]] ∧ prog = BitVec.ofNat 36 (2 ^ 35 + n))) →
    hostUp s = true → s.pins.porN = true → dark s.power = false → (hostLoadReads s q.val load).any (hostRead s q.val) = true →
    Issues { s with pins := { s.pins with readFails := true } } q i s1 → AccessesReach s1 q as rss e →
    isHost r.pa = true → isSystem r.pa = false →
    ∃ t, exec (.hostReadTimeout (.seatLoad q load)) s = .next t ∧
      quiet q.val t = quiet q.val { u with pins := { u.pins with readFails := false } }) ∧
  (∀ (s : State) (chn : ChannelNo) (x : Xfer), let ch := chn.val
    let v := capCursor x.srcCap + x.moved
    hostUp s = true → s.pins.porN = true → dark s.power = false → Runs s ch 0 x ∧ xIndex x = false ∨ Runs s ch 1 x →
    xOct x = 0 ∨ xOct x = 3 → isHost v = true → GalleyReaches s 0 v 64 → x.status = 0 →
    ∃ t, exec (.hostReadTimeout (.galleyBurst chn)) s = .next t ∧ t.mem = s.mem ∧
      ∃ y, (getChan t ch).xfer = some y ∧ y.ended = true ∧ y.status = 2 ∧ y.step = 0 ∧ y.moved = x.moved) ∧
  (∀ (s : State) (chn : ChannelNo) (x : Xfer), let ch := chn.val
    let e := (getChan s ch).eidx
    let v := capCursor x.idxCap + e
    hostUp s = true → s.pins.porN = true → dark s.power = false → Runs s ch 0 x → xIndex x = true → xStat x = false →
    isHost v = true → GalleyReaches s 0 v 1 → x.status = 0 →
    ∃ t, exec (.hostReadTimeout (.galleyBurst chn)) s = .next t ∧ t.mem = s.mem ∧ (getChan t ch).eidx = e + 1 ∧
      ∃ y, (getChan t ch).xfer = some y ∧ y.ended = decide (e + 1 = xLen x) ∧ y.status = 2 ∧ y.step = 0 ∧ y.moved = x.moved ∧
        y.failed = x.failed + 1)

/-- Feeds, monitors, temperatures and HOLD_N set and clear their triggers, and paddle mode is entered and left by
them; the paddle crew takes up its course; throttling starts and ends; the journal is sealed once per episode and its
header is written last (16 R452 to R471). The endpoint's reset and link, the reference clock, the timebase pins, and
the boundary-scan instructions (19 R529 to R533, R539, R543). Verification of the staged set, the M hold, the switch
boundary with its cancellation in each case, the end of a drain, the signed proof sheet, and the boot's wait for a
lane (18 R504, R509 to R516). The test port's codes, what waits at an endpoint reset and which line of its causes
came, and the rate under TB_SOURCE 1 are the model's choices (logs 47, 48, 107, 108); that the ageing monitor is
logged alone, with no ERR_N (16 R456 against R468), and that both feeds in LOSS seal the journal, are its readings
(logs 91, 93); so are the free addends of the counters that a seal settles, over 62 unit blocks (logs 55, 59), and
open lanes, the new order of queues and the switch in paddle mode (logs 49, 57). Rows that complete:
FEED_STATE_CHANGE, MONITOR_OUT_OF_RANGE, MONITOR_IN_RANGE, THERMAL_LIMIT, THERMAL_CLEAR, THROTTLE_START, THROTTLE_END,
HOLD_ASSERT, HOLD_CLEAR, PADDLE_COURSE_SWITCH, PADDLE_EXIT, PADDLE_EXIT_COMPLETE, JOURNAL_SEAL, JOURNAL_SEAL_COMPLETE,
ENDPOINT_RESET, PCIE_LINK_UP, REFCLK_LOSS, REFCLK_RETURN, TB_SYNC_EDGE, TB_OUT_PULSE, BYPASS, IDCODE, SAMPLE_PRELOAD,
EXTEST, CLAMP, HIGHZ, VERIFY_COMPLETE, M_HOLD, CHANGEOVER_BOUNDARY, DRAIN_END, PROOF_SHEET_COMPLETE,
BOOT_LANE_TIMEOUT. -/
def Obligations.PowerPinAndChangeoverEvents : Prop :=
  Answers powerEventEffect ∧ Answers pinEventEffect ∧ Answers changeoverEventEffect

/-- POR_N low and a dropout leave what reset leaves, but for custody's key stores, the fuses and the flash, the
journal, the persistent entries, and the pins that no reset moves (16 R471, 19 R529). What no rule resets stands at
the values of log 1; what the test port does as POR_N falls is the model's choice (log 47). Rows that complete:
POR_ASSERT, DROPOUT. -/
def Obligations.ResetAndDropout : Prop :=
  ∀ s : State, let d := State.reset
    let keep : State := { d with
      pending := s.pending, free := s.free,
      custody := { d.custody with mkState := s.custody.mkState, mkKey := s.custody.mkKey, deviceKey := s.custody.deviceKey,
                                  tamper := s.custody.tamper },
      boot := { d.boot with otp := s.boot.otp, flash := s.boot.flash, erase64 := s.boot.erase64 },
      irrix := { d.irrix with values := s.irrix.values.filter fun e => dictKeeps (e.1 / 256) } }
    let power : Power := { d.power with journal := s.power.journal, journalOk := s.power.journalOk, sealSeq := s.power.sealSeq }
    let pins : Pins := { d.pins with node := s.pins.node, refclk := s.pins.refclk, tap := s.pins.tap }
    (s.pins.porN = true →
      exec .porAssert s = .next { keep with
        power := { power with dropout := s.power.dropout },
        free := s.free + 1,
        pins := { pins with porN := false, tap := { s.pins.tap with
          driving := s.pins.tap.ir == 3 || s.pins.tap.ir == 4, highz := s.pins.tap.ir == 5,
          reg := if s.pins.tap.ir = 3 then scanCapture s else s.pins.tap.reg } } }) ∧
    (s.power.dropout = false → s.power.feedA ≠ .good → s.power.feedB ≠ .good →
      exec .dropout s = .next { keep with
        power := { power with dropout := true },
        pins := { pins with porN := s.pins.porN, tamperOutLow := s.pins.tamperOutLow } })

/-- The boot: after tamper it stops with result 7, with no noise source with 4, without an identity key with 5, with
no set that verifies with 3, and with side images that do not verify with 6; otherwise C0.0 stands at Keel's entry at
M, with the result in w1 and the set in w2, and seal 65,280 is live (18 R501 to R505). The layouts of the identity
blob and of the images are the model's choice (log 58). -/
def Obligations.BootResults : Prop :=
  ∀ (s : State) (node : BitVec 7) (en0 en1 : Bool),
    (s.pins.porN = false ∨ s.power.dropout = false ∧ s.boot.result = 1) →
    ∃ t, exec (.porRelease node en0 en1) s = .next t ∧ t.pins.porN = true ∧ t.pins.node = node ∧
      (s.custody.tamper ≠ [] → t.boot.result = 7 ∧ t.boot.done = false ∧ canIssue t 0 = false) ∧
      (s.custody.tamper = [] → en0 = false → en1 = false → t.boot.result = 4 ∧ t.boot.done = false ∧ canIssue t 0 = false) ∧
      (s.custody.tamper = [] → en0 = true ∨ en1 = true →
        (unwrapIdentity s = none → t.boot.result = 5 ∧ t.boot.done = false ∧ canIssue t 0 = false) ∧
        (∀ ws, unwrapIdentity s = some ws → t.custody.identity = some ws ∧
          (chooseSet s = none → t.boot.result = 3 ∧ t.boot.done = false ∧ canIssue t 0 = false) ∧
          (∀ set first, chooseSet s = some (set, first) →
            (sidesVerify s set = false → t.boot.result = 6 ∧ t.boot.done = false ∧ canIssue t 0 = false) ∧
            (sidesVerify s set = true → t.boot.result = (if first then 0 else 2) ∧ t.boot.done = true ∧
              t.boot.setBooted = set ∧ (∀ q, q < 72 → (getSeat t q).powered = decide (q % 9 ≠ 8)) ∧ canIssue t 0 = true ∧ levelOf t 0 = .M ∧ sideOf t 0 = true ∧
              pccGet t 0 = imageCap (headerOf s set 1) true ∧ (wGet t 0 1).toNat = (if first then 0 else 2) ∧
              (wGet t 0 2).toNat = set ∧ sealOn t 65280 = true))))

/-- A tamper sensor that can fire zeroises the master key and every other key and secret, records its source and
drives TAMPER_OUT_N; with power in the block it clears the standby copies and puts a device way-enough ahead of every
other command (18 R517 to R520). -/
def Obligations.TamperDestroysKeys : Prop :=
  ∀ (s : State) (source : TamperSource), tamperArmed s source = true →
    ∃ t, exec (.tamperDetect source) s = .next t ∧
      t.custody.mkState = .zeroised ∧ t.custody.mkKey = [] ∧ t.custody.slots = [] ∧ t.custody.arena = [] ∧
      t.custody.deviceKey = [] ∧ t.custody.bulkKey = [] ∧ t.custody.identity = none ∧ t.eth.steerKey = [] ∧
      t.irrix.sessions = [] ∧ t.irrix.auths = [] ∧ t.pins.tamperOutLow = true ∧
      t.custody.drbgs = [] ∧ (∀ j ∈ t.engines.jobs, j.commit = none) ∧
      t.custody.tamper.length = s.custody.tamper.length + 1 ∧
      (s.pins.porN = true → s.power.dropout = false → t.boot.tampered = true ∧ t.boot.standby = 0 ∧ t.boot.staged = [] ∧
        t.lanes.clsSb = [] ∧ ∃ c, t.irrix.way = c :: s.irrix.way ∧ c.kind = 7 ∧ c.number = 0 ∧ c.acted = false)

/-- Host accesses through the aperture to sound case that the fence admits: a read completes with the octet slots of
its words, and a write sets its octets with their presence bits, leaves every other slot of memory, and clears the
tags of the granules that it touches (19 R538, 02 R37). Host accesses to BAR0, which the table leaves to the same rows
(log 56): a read answers the registers' octets, least significant first, the octets of the MSI-X table and of the
dictionary window's slots, and zero at a reserved offset; a write that moves neither slot pointer sets APER_BASE where
it covers its octet, and the octets of the MSI-X table and of request slots that it covers, and one that touches a
reserved offset is counted. Rows that complete: APERTURE_READ, APERTURE_WRITE. -/
def Obligations.ApertureAccesses : Prop :=
  ∀ (s : State) (off : BitVec 30) (reg : BitVec 22) (g : Region), let base := 2 ^ 28 * s.pins.aperBase
    let p := base + off.toNat / 4
    (∀ n : BitVec 13, let m := (off.toNat + n.toNat - 1) / 4 - off.toNat / 4 + 1
      hostReaches s = true → n ≠ 0 → SoundCase s p m → fenceCheck s { cls := 4, dir := 0, p := p, n := m } = .ok g →
      ∃ t os, exec (.apertureRead (.bar2 off) n) s = .next t ∧ t.pins.completions = (some os, false) :: s.pins.completions ∧
        t.mem = s.mem ∧ os.length = n.toNat ∧
        ∀ i (h : i < os.length), os[i] = slotOctet (memWord s.mem (base + (off.toNat + i) / 4)) ((off.toNat + i) % 4)) ∧
    (∀ os : List Octet, let m := (off.toNat + os.length - 1) / 4 - off.toNat / 4 + 1
      hostReaches s = true → os ≠ [] → SoundCase s p m → fenceCheck s { cls := 4, dir := 1, p := p, n := m } = .ok g →
      ∃ t, exec (.apertureWrite (.bar2 off) os) s = .next t ∧
        (∀ i (h : i < os.length), let w := memWord t.mem (base + (off.toNat + i) / 4)
          let k := (off.toNat + i) % 4
          slotOctet w k = os[i] ∧ slotPresent w k = true) ∧
        (∀ b k, k < 4 → (4 * b + k < 4 * base + off.toNat ∨ 4 * base + off.toNat + os.length ≤ 4 * b + k) →
          slotOctet (memWord t.mem b) k = slotOctet (memWord s.mem b) k ∧
          slotPresent (memWord t.mem b) k = slotPresent (memWord s.mem b) k) ∧
        ∀ b, memTag t.mem b = (memTag s.mem b && !decide (p / 4 ≤ b / 4 ∧ b / 4 ≤ (p + m - 1) / 4))) ∧
    (∀ n : BitVec 13, hostReaches s = true → n ≠ 0 →
      ∃ t os, exec (.apertureRead (.bar0 reg) n) s = .next t ∧ t.pins.completions = (some os, false) :: s.pins.completions ∧
        t.mem = s.mem ∧ os.length = n.toNat ∧
        ∀ i (h : i < os.length), let o := reg.toNat + i
          (∀ v, barRegister s (o / 4 * 4) = some v → os[i].toNat = v / 2 ^ (8 * (o % 4)) % 256) ∧
          (inMsix o = true → os[i] = msixOctet s.pins (o - 0x10000)) ∧
          (inSlots o = true → os[i] = smGet 0 s.irrix.window (o - 0x200000)) ∧
          (barRegister s (o / 4 * 4) = none → barPlaced o = false → os[i] = 0)) ∧
    (∀ os : List Octet, hostReaches s = true → os ≠ [] →
      (∀ i, i < os.length → reg.toNat + i ≠ 0x201000 ∧ reg.toNat + i ≠ 0x201008) →
      ∃ t, exec (.apertureWrite (.bar0 reg) os) s = .next t ∧ t.mem = s.mem ∧
        (∀ i (h : i < os.length), reg.toNat + i = 0x20000 → t.pins.aperBase = os[i].toNat) ∧
        ((∀ i, i < os.length → reg.toNat + i ≠ 0x20000) → t.pins.aperBase = s.pins.aperBase) ∧
        (∀ i (h : i < os.length), let o := reg.toNat + i
          (inMsix o = true → msixOctet t.pins (o - 0x10000) = os[i]) ∧
          (inSlots o = true → o < 0x200800 → smGet 0 t.irrix.window (o - 0x200000) = os[i])) ∧
        t.pins.barIgnored = s.pins.barIgnored +
          if ∃ i, i < os.length ∧ barRegister s ((reg.toNat + i) / 4 * 4) = none ∧ barPlaced (reg.toNat + i) = false then 1 else 0)

/-- A request frame that its session accepts and may make has its effect, and its answer goes out under the session's
next counter: reads, writes, segments, aborts, way-enoughs, and the writes that are commands (17 R475 to R491; 09
R310; 12 R368; 16 R460; 18 R496, R509, R511, R512; 07 R234). Segments, roles and answers where the rules are silent
are the model's readings (logs 37, 38, 53, 60), as are whether a persistent write fails (log 45) and the blocks that
IMAGE erases (log 94). Rows that complete: READ_REQ, WRITE_REQ, SEGMENT, TRANSFER_ABORT, WAYENOUGH, TB_SET, STEER_SW,
IMAGE, MASTER_KEY_GENERATE, MASTER_KEY_ZEROISE, ROOTKEY_REVOKE, WAYENOUGH_WRITE, PADDLE_COMMAND, CHANGEOVER_VERIFY,
CHANGEOVER_SWITCH, CHANGEOVER_DISCARD, PROOF_REQUEST, SUBST. -/
def Obligations.FrameRequestResults : Prop :=
  ∀ (i : Instr) (f : Frame) (x : Session) (s a b : State) (rs : Reply), requestFrame i = some f → Accepted s f x a →
    commandEffect x a i = some (rs, b) → exec i s = .next (answered b f rs)

/-- Authentication's first step is answered with a nonce; its attempts, sessions and transfers end in time;
heartbeats, bus-off, the dictionary window, the UDP mirror, its neighbours, and the mailbox (17 R472, R476, R480 to
R485). A signature that verifies ends the attempt and installs a session with the roles that were asked for, under a
fresh key (R480). What the manager key set holds is free (log 5); that a MAILBOX_SUBMIT drops the answers that wait is
the model's choice (log 105). Rows that complete: AUTH_REQUEST, AUTH_TIMEOUT, SESSION_IDLE_TIMEOUT, TRANSFER_TIMEOUT,
HEARTBEAT, BUS_OFF, BUS_OFF_RECOVERY, WINDOW_EVENT_DROP, RSP_HEAD_WRITE, MIRROR_NEIGHBOUR, DICTIONARY_WINDOW_REQUEST,
MIRROR_DATAGRAM, MAILBOX_SUBMIT, AUTH_SIGNATURE. -/
def Obligations.FrameEvents : Prop :=
  Answers frameEventEffect ∧
  (∀ (s : State) (f : Frame) (sig : List Octet) (a : Auth) (ws : List Word),
    let c := trClassOf f.transport
    let b := frameCount s 1
    let key := managerRecord b a.record
    transportUp s f.transport = true → c ≠ 3 → frameForUs s f = true → fFn f = 9 → fControl f = 3 →
    findAuth s c (fMgr f) = some a → s.time ≤ 1000000000 + a.since → key ≠ [] →
    pssVerify (beNat (slice key 1 384)) (beNat (slice key 385 4)) (authText b a) sig = true →
    s.custody.identity = some ws → drbgRefuses s 3 = false →
    ∃ t, exec (.authSignature f sig) s = .next t ∧ findAuth t c (fMgr f) = none ∧
      ∃ x, findSession t c (fMgr f) = some x ∧ x.roles = a.roles ∧ x.key = (drbgDraw b 3 32).1 ∧ x.rxCount = 0 ∧
        x.txCount = 0 ∧ x.lastAt = s.time)

/-- Each kind of way-enough acts on its target and marks its command, and a command whose target is done completes
with its elapsed time (17 R490, R491; 09 R314; 12 R384, R388; 13 R414; 07 R237). A channel that a way-enough has
stopped has no descriptor and is STOPPED, and a unit keeps none of the lane's jobs. A way-enough on a lane leaves no
job that came from it or answers to it; and where the fence admits the lane unit to its descriptor and its notice goes
to no other lane, the lane is CLOSED or CLOSING, empty, with TOF, WAIT, ARMED and the deadline zero, its gate untagged
(09 R314). That a device way-enough alone leaves custody's jobs and that ABORTED responses commit outside credit are
the model's readings (logs 50, 65); the words that acknowledge a WAYEN are free (log 83); the type of a completion and
the unit-wide status and time are the model's choices (log 104). Rows that complete: WAYENOUGH_LANE, WAYENOUGH_JOB,
WAYENOUGH_PLATEN, WAYENOUGH_CHANNEL, WAYENOUGH_COMPARTMENT, WAYENOUGH_CREW, WAYENOUGH_DEVICE, WAYENOUGH_COMPLETE. -/
def Obligations.WayEnoughResults : Prop :=
  Answers wayEffect ∧
  (∀ (s : State) (ch : ChannelNo), WayPending s 4 ch.val →
    dark s.power = false →
    ∃ t, exec (.wayenoughChannel ch) s = .next t ∧ (getChan t ch.val).state = 5 ∧ (getChan t ch.val).xfer = none ∧
      (getChan t ch.val).hold = false) ∧
  (∀ (s : State) (n : Word) (i : Instr), (i = .wayenoughJob n ∧ WayPending s 2 n.toNat) ∨
      (i = .wayenoughPlaten n ∧ WayPending s 3 n.toNat) → dark s.power = false →
    ∃ t, exec i s = .next t ∧ ∀ j ∈ t.engines.jobs, j.unit = n.toNat / 65536 % 256 →
      n.toNat.testBit 24 = false ∧ j.lane.toNat ≠ n.toNat % 65536) ∧
  (∀ (s : State) (lane : LaneNo) (k : Nat), let l := lane.toNat
    WayPending s 1 l → classOf s l = some k → dark s.power = false →
    ∃ t, exec (.wayenoughLane lane) s = .next t ∧ (∀ j ∈ t.engines.jobs, j.lane ≠ lane ∧ j.rlane ≠ lane) ∧
      ((∀ j ∈ s.engines.jobs, j.lane ≠ lane ∧ j.rlane ≠ lane) → noUpset s = true → descAddr s l + 16 ≤ caseEnd →
        (∀ g w, g < 4 → w < 2 → (descCheck s l g w).isOk = true) →
        (clReject s k = l ∨ classOf s (clReject s k) = none) →
        let x := laneSt t l
        (x.state = lsClosed ∨ x.state = lsClosing) ∧ x.head = x.tail ∧ x.tof = false ∧ x.wait = false ∧ x.armed = false ∧
          laneDeadline t l = 0 ∧ (laneGate t l).tag = false ∧ smGet false t.lanes.fault l = false))

/-- Every step keeps memory in canonical form, from every state whose memory has it. -/
def Obligations.StepKeepsMemoryCanonical : Prop :=
  ∀ s t : State, s.mem.wf = true → step s = .next t → t.mem.wf = true

/-- From every state whose capabilities are sound, each step leaves them so: a tagged capability has BASE at most
LAST, no number right beside a memory right, WR and EX together only with SY, and a PCC that is a capability holds EX
(02 R29, R31, R33 to R35), in every bank, save set, trap vector, stick, granule of memory and held-back output. That
words which arrive in PCC without EX lose their tag is the model's choice (log 89). -/
def Obligations.StepKeepsCapabilitiesSound : Prop :=
  ∀ s t : State, CapsSound s → step s = .next t → CapsSound t

/-- A command that changes the level or the side of a seat which runs before and after it is a CINVOKE, RET or END of
that seat, a trap to S or to M that it takes, a switch to another bank, or a reset (03 R86, 04 R119, R120, 07 R220,
R225, 08 R254). -/
def Obligations.LevelAndSideMoveAtEvents : Prop :=
  ∀ (c : Instr) (s t : State) (q : SeatNo), let x := getSeat s q.val
    let y := getSeat t q.val
    exec c s = .next t → x.idle = false → y.idle = false →
    (y.status.lvl ≠ x.status.lvl ∨ y.status.side ≠ x.status.side) → LevelEvent c q x y
end

