-- ==== Sys2Proof/Laws/Sparse.lean ====
section
/-! SUPPORT. Laws of sparse tables: read after write, and that every operation keeps the canonical form. -/

namespace Sys2Proof.Machine

variable {α : Type}

@[simp] theorem smGet_nil (d : α) (k : Nat) : smGet d ([] : SMap α) k = d := rfl

theorem smGet_cons (d : α) (j : Nat) (v : α) (m : SMap α) (k : Nat) :
    smGet d ((j, v) :: m) k = if j = k then v else smGet d m k := rfl

theorem smGet_smErase (d : α) (m : SMap α) (k j : Nat) :
    smGet d (smErase m k) j = if j = k then d else smGet d m j := by
  induction m with
  | nil => simp [smErase]
  | cons e m ih =>
    obtain ⟨i, v⟩ := e
    by_cases hik : i = k
    · subst hik
      rw [smErase, if_pos rfl, ih, smGet_cons]
      by_cases hj : j = i
      · simp [hj]
      · simp [hj, Ne.symm hj]
    · rw [smErase, if_neg hik, smGet_cons, smGet_cons, ih]
      by_cases hj : j = k
      · subst hj
        simp [hik]
      · simp [hj]

theorem smGet_smInsert_self (d : α) (m : SMap α) (k : Nat) (v : α) (h : ∀ e ∈ m, e.1 ≠ k) :
    smGet d (smInsert m k v) k = v := by
  induction m with
  | nil => simp [smInsert, smGet_cons]
  | cons e m ih =>
    obtain ⟨i, w⟩ := e
    rw [smInsert]
    split
    · simp [smGet_cons]
    · rw [smGet_cons, if_neg (h (i, w) (by simp))]
      exact ih fun e he => h e (by simp [he])

theorem smGet_smInsert_ne (d : α) (m : SMap α) (k j : Nat) (v : α) (h : j ≠ k) :
    smGet d (smInsert m k v) j = smGet d m j := by
  induction m with
  | nil => simp [smInsert, smGet_cons, Ne.symm h]
  | cons e m ih =>
    obtain ⟨i, w⟩ := e
    rw [smInsert]
    split
    · simp [smGet_cons, Ne.symm h]
    · simp [smGet_cons, ih]

theorem smErase_ne (m : SMap α) (k : Nat) : ∀ e ∈ smErase m k, e.1 ≠ k := by
  induction m with
  | nil => simp [smErase]
  | cons e m ih =>
    obtain ⟨i, v⟩ := e
    rw [smErase]
    split
    · exact ih
    · rintro e (he | he)
      · assumption
      · exact ih _ (by assumption)

theorem smErase_sublist (m : SMap α) (k : Nat) : (smErase m k).Sublist m := by
  induction m with
  | nil => simp [smErase]
  | cons e m ih =>
    obtain ⟨i, v⟩ := e
    rw [smErase]
    split
    · exact ih.cons _
    · exact ih.cons_cons _

/-- Read after write. -/
theorem smGet_smSet [DecidableEq α] (d : α) (m : SMap α) (k : Nat) (v : α) (j : Nat) :
    smGet d (smSet d m k v) j = if j = k then v else smGet d m j := by
  by_cases hv : v = d
  · simp [smSet, hv, smGet_smErase]
  · by_cases hj : j = k
    · subst hj
      simp [smSet, hv, smGet_smInsert_self _ _ _ _ (smErase_ne m j)]
    · simp [smSet, hv, hj, smGet_smInsert_ne, smGet_smErase]

@[simp] theorem smGet_smSet_self [DecidableEq α] (d : α) (m : SMap α) (k : Nat) (v : α) :
    smGet d (smSet d m k v) k = v := by simp [smGet_smSet]

theorem smGet_smSet_ne [DecidableEq α] (d : α) (m : SMap α) {k j : Nat} (v : α) (h : j ≠ k) :
    smGet d (smSet d m k v) j = smGet d m j := by simp [smGet_smSet, h]

theorem smErase_of_ne (m : SMap α) (k : Nat) (h : ∀ e ∈ m, e.1 ≠ k) : smErase m k = m := by
  induction m with
  | nil => rfl
  | cons e m ih =>
    obtain ⟨i, v⟩ := e
    rw [smErase, if_neg (h (i, v) (by simp)), ih fun e he => h e (by simp [he])]

theorem smErase_smInsert (m : SMap α) (k : Nat) (v : α) (h : ∀ e ∈ m, e.1 ≠ k) : smErase (smInsert m k v) k = m := by
  induction m with
  | nil => simp [smInsert, smErase]
  | cons e m ih =>
    obtain ⟨i, w⟩ := e
    have hm : ∀ e ∈ m, e.1 ≠ k := fun e he => h e (by simp [he])
    have hi : i ≠ k := h (i, w) (by simp)
    rw [smInsert]
    split
    · simp [smErase, hi, smErase_of_ne m k hm]
    · simp [smErase, hi, ih hm]

/-- The last of two writes of one key stands. -/
@[simp] theorem smSet_smSet [DecidableEq α] (d : α) (m : SMap α) (k : Nat) (v w : α) :
    smSet d (smSet d m k v) k w = smSet d m k w := by
  have h : smErase (smSet d m k v) k = smErase m k := by
    rw [smSet]
    split
    · exact smErase_of_ne _ _ (smErase_ne m k)
    · exact smErase_smInsert _ _ _ (smErase_ne m k)
  rw [smSet, h, ← smSet]

/-- The keys of the list all lie above k, or there is no k. -/
def aboveAll (o : Option Nat) (m : SMap α) : Prop := ∀ e ∈ m, ∀ j, o = some j → j < e.1

theorem smRising_cons (o : Option Nat) (k : Nat) (v : α) (m : SMap α) :
    smRising o ((k, v) :: m) = true ↔ (∀ j, o = some j → j < k) ∧ smRising (some k) m = true := by
  cases o <;> simp [smRising]

theorem smRising_above {o : Option Nat} {m : SMap α} (h : smRising o m = true) : aboveAll o m := by
  induction m generalizing o with
  | nil => intro e he; simp at he
  | cons e m ih =>
    obtain ⟨k, v⟩ := e
    rw [smRising_cons] at h
    intro e he j hj
    rcases List.mem_cons.1 he with rfl | he
    · exact h.1 j hj
    · exact (h.1 j hj).trans (ih h.2 e he k rfl)

theorem smRising_of_above {o p : Option Nat} {m : SMap α} (h : smRising o m = true) (ha : aboveAll p m) :
    smRising p m = true := by
  cases m with
  | nil => cases p <;> rfl
  | cons e m =>
    obtain ⟨k, v⟩ := e
    rw [smRising_cons] at h ⊢
    exact ⟨fun j hj => ha (k, v) (by simp) j hj, h.2⟩

theorem smRising_sublist {o : Option Nat} {m n : SMap α} (hs : n.Sublist m) (h : smRising o m = true) :
    smRising o n = true := by
  induction hs generalizing o with
  | slnil => exact h
  | cons e hs ih =>
    obtain ⟨k, v⟩ := e
    have ha := smRising_above h
    rw [smRising_cons] at h
    exact smRising_of_above (ih h.2) fun e he => ha e (by simp [hs.subset he])
  | cons_cons e hs ih =>
    obtain ⟨k, v⟩ := e
    rw [smRising_cons] at h ⊢
    exact ⟨h.1, ih h.2⟩

theorem smRising_smInsert {o : Option Nat} {m : SMap α} {k : Nat} {v : α} (h : smRising o m = true)
    (hk : ∀ e ∈ m, e.1 ≠ k) (ho : ∀ j, o = some j → j < k) : smRising o (smInsert m k v) = true := by
  induction m generalizing o with
  | nil => rw [smInsert, smRising_cons]; exact ⟨ho, rfl⟩
  | cons e m ih =>
    obtain ⟨i, w⟩ := e
    rw [smInsert]
    split
    · rename_i hki
      rw [smRising_cons] at h ⊢
      exact ⟨ho, (smRising_cons _ _ _ _).2 ⟨fun j hj => by simpa [← Option.some.inj hj] using hki, h.2⟩⟩
    · rename_i hki
      rw [smRising_cons] at h ⊢
      have hne : i ≠ k := hk (i, w) (by simp)
      exact ⟨h.1, ih h.2 (fun e he => hk e (by simp [he])) fun j hj => by
        have := Option.some.inj hj
        omega⟩

theorem smInsert_mem {m : SMap α} {k : Nat} {v : α} {e : Nat × α} (h : e ∈ smInsert m k v) : e = (k, v) ∨ e ∈ m := by
  induction m with
  | nil => simpa [smInsert] using h
  | cons f m ih =>
    obtain ⟨i, w⟩ := f
    rw [smInsert] at h
    split at h
    · simpa using h
    · rcases List.mem_cons.1 h with rfl | h
      · simp
      · rcases ih h with h | h <;> simp [h]

/-- The canonical form, as a proposition. -/
theorem smWf_iff [DecidableEq α] (d : α) (m : SMap α) :
    smWf d m = true ↔ smRising none m = true ∧ ∀ e ∈ m, e.2 ≠ d := by simp [smWf, List.all_eq_true]

@[simp] theorem smWf_nil [DecidableEq α] (d : α) : smWf d ([] : SMap α) = true := rfl

/-- A write keeps the canonical form. -/
theorem smWf_smSet [DecidableEq α] {d : α} {m : SMap α} (h : smWf d m = true) (k : Nat) (v : α) :
    smWf d (smSet d m k v) = true := by
  rw [smWf_iff] at h ⊢
  have hs := smErase_sublist m k
  rw [smSet]
  split
  · exact ⟨smRising_sublist hs h.1, fun e he => h.2 e (hs.subset he)⟩
  · rename_i hv
    refine ⟨smRising_smInsert (smRising_sublist hs h.1) (smErase_ne m k) (by simp), fun e he => ?_⟩
    rcases smInsert_mem he with rfl | he
    · exact hv
    · exact h.2 e (hs.subset he)

theorem smWf_smSetList [DecidableEq α] {d : α} {m : SMap α} (h : smWf d m = true) (k : Nat) (vs : List α) :
    smWf d (smSetList d m k vs) = true := by
  induction vs generalizing m k with
  | nil => exact h
  | cons v vs ih => exact ih (smWf_smSet h k v) (k + 1)

theorem smWf_smClear [DecidableEq α] {d : α} {m : SMap α} (h : smWf d m = true) (lo hi : Nat) :
    smWf d (smClear m lo hi) = true := by
  rw [smWf_iff] at h ⊢
  have hs : (smClear m lo hi).Sublist m := List.filter_sublist
  exact ⟨smRising_sublist hs h.1, fun e he => h.2 e (hs.subset he)⟩

theorem smGet_smSetList_before [DecidableEq α] (d : α) (m : SMap α) (k : Nat) (vs : List α) {j : Nat} (h : j < k) :
    smGet d (smSetList d m k vs) j = smGet d m j := by
  induction vs generalizing m k with
  | nil => rfl
  | cons v vs ih => rw [smSetList, ih _ _ (by omega), smGet_smSet_ne _ _ _ (by omega)]

/-- A write of consecutive values leaves every other key alone. -/
theorem smGet_smSetList_outside [DecidableEq α] (d : α) (m : SMap α) (k : Nat) (vs : List α) {j : Nat}
    (h : j < k ∨ k + vs.length ≤ j) : smGet d (smSetList d m k vs) j = smGet d m j := by
  induction vs generalizing m k with
  | nil => rfl
  | cons v vs ih =>
    have hl : (v :: vs).length = vs.length + 1 := rfl
    rw [hl] at h
    rw [smSetList, ih _ _ (by omega), smGet_smSet_ne _ _ _ (by omega)]

/-- A write of consecutive values is read back. -/
theorem smGet_smSetList_inside [DecidableEq α] (d : α) (m : SMap α) (k : Nat) (vs : List α) {i : Nat}
    (h : i < vs.length) : smGet d (smSetList d m k vs) (k + i) = vs[i] := by
  induction vs generalizing m k i with
  | nil => simp at h
  | cons v vs ih =>
    cases i with
    | zero => rw [smSetList, smGet_smSetList_before _ _ _ _ (by omega)]; simp
    | succ i => rw [smSetList, show k + (i + 1) = k + 1 + i by omega, ih _ _ (by simpa using h)]; simp

theorem smGet_smClear (d : α) (m : SMap α) (lo hi j : Nat) :
    smGet d (smClear m lo hi) j = if j < lo ∨ hi < j then smGet d m j else d := by
  induction m with
  | nil => simp [smClear]
  | cons e m ih =>
    obtain ⟨i, v⟩ := e
    have hf : smClear ((i, v) :: m) lo hi = if i < lo ∨ hi < i then (i, v) :: smClear m lo hi else smClear m lo hi := by
      simp [smClear, List.filter_cons]
    rw [hf, smGet_cons]
    split
    · rw [smGet_cons, ih]
      by_cases hij : i = j
      · subst hij; simp [*]
      · simp [hij]
    · rw [ih]
      by_cases hij : i = j
      · subst hij; simp [*]
      · simp [hij]

end Sys2Proof.Machine
end

