-- ==== Sys2Proof/Laws/State.lean ====
section
/-! SUPPORT. Fields of State under its updates: one lemma for each field that an update leaves, so that no proof unfolds a
record update. -/

namespace Sys2Proof.Machine

variable (s : State)

/-- Adding to a counter changes counters alone. -/
theorem counterAdd_only (off i n : Nat) : ∃ c, counterAdd s off i n = { s with counters := c } := ⟨_, rfl⟩

/-- Recording a fence fault changes the fence alone. -/
theorem fenceRecord_only (r : FenceReq) (unit kind : Nat) : ∃ f, fenceRecord s r unit kind = { s with fence := f } := by
  unfold fenceRecord
  split
  · exact ⟨s.fence, rfl⟩
  · simp only
    split <;> exact ⟨_, rfl⟩


/-! A seat written changes seats alone. -/

@[simp] theorem setSeat_pending (q : Nat) (x : Seat) : (setSeat s q x).pending = s.pending := rfl
@[simp] theorem setSeat_time (q : Nat) (x : Seat) : (setSeat s q x).time = s.time := rfl
@[simp] theorem setSeat_free (q : Nat) (x : Seat) : (setSeat s q x).free = s.free := rfl
@[simp] theorem setSeat_mem (q : Nat) (x : Seat) : (setSeat s q x).mem = s.mem := rfl
@[simp] theorem setSeat_fence (q : Nat) (x : Seat) : (setSeat s q x).fence = s.fence := rfl
@[simp] theorem setSeat_sys (q : Nat) (x : Seat) : (setSeat s q x).sys = s.sys := rfl
@[simp] theorem setSeat_lanes (q : Nat) (x : Seat) : (setSeat s q x).lanes = s.lanes := rfl
@[simp] theorem setSeat_coxes (q : Nat) (x : Seat) : (setSeat s q x).coxes = s.coxes := rfl
@[simp] theorem setSeat_eth (q : Nat) (x : Seat) : (setSeat s q x).eth = s.eth := rfl
@[simp] theorem setSeat_galley (q : Nat) (x : Seat) : (setSeat s q x).galley = s.galley := rfl
@[simp] theorem setSeat_custody (q : Nat) (x : Seat) : (setSeat s q x).custody = s.custody := rfl
@[simp] theorem setSeat_engines (q : Nat) (x : Seat) : (setSeat s q x).engines = s.engines := rfl
@[simp] theorem setSeat_counters (q : Nat) (x : Seat) : (setSeat s q x).counters = s.counters := rfl
@[simp] theorem setSeat_power (q : Nat) (x : Seat) : (setSeat s q x).power = s.power := rfl
@[simp] theorem setSeat_irrix (q : Nat) (x : Seat) : (setSeat s q x).irrix = s.irrix := rfl
@[simp] theorem setSeat_boot (q : Nat) (x : Seat) : (setSeat s q x).boot = s.boot := rfl
@[simp] theorem setSeat_pins (q : Nat) (x : Seat) : (setSeat s q x).pins = s.pins := rfl

/-! A seat changed changes seats alone. -/

@[simp] theorem modSeat_pending (q : Nat) (f : Seat → Seat) : (modSeat s q f).pending = s.pending := rfl
@[simp] theorem modSeat_time (q : Nat) (f : Seat → Seat) : (modSeat s q f).time = s.time := rfl
@[simp] theorem modSeat_free (q : Nat) (f : Seat → Seat) : (modSeat s q f).free = s.free := rfl
@[simp] theorem modSeat_mem (q : Nat) (f : Seat → Seat) : (modSeat s q f).mem = s.mem := rfl
@[simp] theorem modSeat_fence (q : Nat) (f : Seat → Seat) : (modSeat s q f).fence = s.fence := rfl
@[simp] theorem modSeat_sys (q : Nat) (f : Seat → Seat) : (modSeat s q f).sys = s.sys := rfl
@[simp] theorem modSeat_lanes (q : Nat) (f : Seat → Seat) : (modSeat s q f).lanes = s.lanes := rfl
@[simp] theorem modSeat_coxes (q : Nat) (f : Seat → Seat) : (modSeat s q f).coxes = s.coxes := rfl
@[simp] theorem modSeat_eth (q : Nat) (f : Seat → Seat) : (modSeat s q f).eth = s.eth := rfl
@[simp] theorem modSeat_galley (q : Nat) (f : Seat → Seat) : (modSeat s q f).galley = s.galley := rfl
@[simp] theorem modSeat_custody (q : Nat) (f : Seat → Seat) : (modSeat s q f).custody = s.custody := rfl
@[simp] theorem modSeat_engines (q : Nat) (f : Seat → Seat) : (modSeat s q f).engines = s.engines := rfl
@[simp] theorem modSeat_counters (q : Nat) (f : Seat → Seat) : (modSeat s q f).counters = s.counters := rfl
@[simp] theorem modSeat_power (q : Nat) (f : Seat → Seat) : (modSeat s q f).power = s.power := rfl
@[simp] theorem modSeat_irrix (q : Nat) (f : Seat → Seat) : (modSeat s q f).irrix = s.irrix := rfl
@[simp] theorem modSeat_boot (q : Nat) (f : Seat → Seat) : (modSeat s q f).boot = s.boot := rfl
@[simp] theorem modSeat_pins (q : Nat) (f : Seat → Seat) : (modSeat s q f).pins = s.pins := rfl

/-! The bank in use of a seat changed changes seats alone. -/

@[simp] theorem modCur_pending (q : Nat) (f : Bank → Bank) : (modCur s q f).pending = s.pending := rfl
@[simp] theorem modCur_time (q : Nat) (f : Bank → Bank) : (modCur s q f).time = s.time := rfl
@[simp] theorem modCur_free (q : Nat) (f : Bank → Bank) : (modCur s q f).free = s.free := rfl
@[simp] theorem modCur_mem (q : Nat) (f : Bank → Bank) : (modCur s q f).mem = s.mem := rfl
@[simp] theorem modCur_fence (q : Nat) (f : Bank → Bank) : (modCur s q f).fence = s.fence := rfl
@[simp] theorem modCur_sys (q : Nat) (f : Bank → Bank) : (modCur s q f).sys = s.sys := rfl
@[simp] theorem modCur_lanes (q : Nat) (f : Bank → Bank) : (modCur s q f).lanes = s.lanes := rfl
@[simp] theorem modCur_coxes (q : Nat) (f : Bank → Bank) : (modCur s q f).coxes = s.coxes := rfl
@[simp] theorem modCur_eth (q : Nat) (f : Bank → Bank) : (modCur s q f).eth = s.eth := rfl
@[simp] theorem modCur_galley (q : Nat) (f : Bank → Bank) : (modCur s q f).galley = s.galley := rfl
@[simp] theorem modCur_custody (q : Nat) (f : Bank → Bank) : (modCur s q f).custody = s.custody := rfl
@[simp] theorem modCur_engines (q : Nat) (f : Bank → Bank) : (modCur s q f).engines = s.engines := rfl
@[simp] theorem modCur_counters (q : Nat) (f : Bank → Bank) : (modCur s q f).counters = s.counters := rfl
@[simp] theorem modCur_power (q : Nat) (f : Bank → Bank) : (modCur s q f).power = s.power := rfl
@[simp] theorem modCur_irrix (q : Nat) (f : Bank → Bank) : (modCur s q f).irrix = s.irrix := rfl
@[simp] theorem modCur_boot (q : Nat) (f : Bank → Bank) : (modCur s q f).boot = s.boot := rfl
@[simp] theorem modCur_pins (q : Nat) (f : Bank → Bank) : (modCur s q f).pins = s.pins := rfl

/-! A word register written changes seats alone. -/

@[simp] theorem wSet_pending (q r : Nat) (v : Word) : (wSet s q r v).pending = s.pending := rfl
@[simp] theorem wSet_time (q r : Nat) (v : Word) : (wSet s q r v).time = s.time := rfl
@[simp] theorem wSet_free (q r : Nat) (v : Word) : (wSet s q r v).free = s.free := rfl
@[simp] theorem wSet_mem (q r : Nat) (v : Word) : (wSet s q r v).mem = s.mem := rfl
@[simp] theorem wSet_fence (q r : Nat) (v : Word) : (wSet s q r v).fence = s.fence := rfl
@[simp] theorem wSet_sys (q r : Nat) (v : Word) : (wSet s q r v).sys = s.sys := rfl
@[simp] theorem wSet_lanes (q r : Nat) (v : Word) : (wSet s q r v).lanes = s.lanes := rfl
@[simp] theorem wSet_coxes (q r : Nat) (v : Word) : (wSet s q r v).coxes = s.coxes := rfl
@[simp] theorem wSet_eth (q r : Nat) (v : Word) : (wSet s q r v).eth = s.eth := rfl
@[simp] theorem wSet_galley (q r : Nat) (v : Word) : (wSet s q r v).galley = s.galley := rfl
@[simp] theorem wSet_custody (q r : Nat) (v : Word) : (wSet s q r v).custody = s.custody := rfl
@[simp] theorem wSet_engines (q r : Nat) (v : Word) : (wSet s q r v).engines = s.engines := rfl
@[simp] theorem wSet_counters (q r : Nat) (v : Word) : (wSet s q r v).counters = s.counters := rfl
@[simp] theorem wSet_power (q r : Nat) (v : Word) : (wSet s q r v).power = s.power := rfl
@[simp] theorem wSet_irrix (q r : Nat) (v : Word) : (wSet s q r v).irrix = s.irrix := rfl
@[simp] theorem wSet_boot (q r : Nat) (v : Word) : (wSet s q r v).boot = s.boot := rfl
@[simp] theorem wSet_pins (q r : Nat) (v : Word) : (wSet s q r v).pins = s.pins := rfl

/-! A capability register written changes seats alone. -/

@[simp] theorem cSet_pending (q r : Nat) (v : Cap) : (cSet s q r v).pending = s.pending := rfl
@[simp] theorem cSet_time (q r : Nat) (v : Cap) : (cSet s q r v).time = s.time := rfl
@[simp] theorem cSet_free (q r : Nat) (v : Cap) : (cSet s q r v).free = s.free := rfl
@[simp] theorem cSet_mem (q r : Nat) (v : Cap) : (cSet s q r v).mem = s.mem := rfl
@[simp] theorem cSet_fence (q r : Nat) (v : Cap) : (cSet s q r v).fence = s.fence := rfl
@[simp] theorem cSet_sys (q r : Nat) (v : Cap) : (cSet s q r v).sys = s.sys := rfl
@[simp] theorem cSet_lanes (q r : Nat) (v : Cap) : (cSet s q r v).lanes = s.lanes := rfl
@[simp] theorem cSet_coxes (q r : Nat) (v : Cap) : (cSet s q r v).coxes = s.coxes := rfl
@[simp] theorem cSet_eth (q r : Nat) (v : Cap) : (cSet s q r v).eth = s.eth := rfl
@[simp] theorem cSet_galley (q r : Nat) (v : Cap) : (cSet s q r v).galley = s.galley := rfl
@[simp] theorem cSet_custody (q r : Nat) (v : Cap) : (cSet s q r v).custody = s.custody := rfl
@[simp] theorem cSet_engines (q r : Nat) (v : Cap) : (cSet s q r v).engines = s.engines := rfl
@[simp] theorem cSet_counters (q r : Nat) (v : Cap) : (cSet s q r v).counters = s.counters := rfl
@[simp] theorem cSet_power (q r : Nat) (v : Cap) : (cSet s q r v).power = s.power := rfl
@[simp] theorem cSet_irrix (q r : Nat) (v : Cap) : (cSet s q r v).irrix = s.irrix := rfl
@[simp] theorem cSet_boot (q r : Nat) (v : Cap) : (cSet s q r v).boot = s.boot := rfl
@[simp] theorem cSet_pins (q r : Nat) (v : Cap) : (cSet s q r v).pins = s.pins := rfl

/-! A wide register written changes seats alone. -/

@[simp] theorem vSet_pending (q k : Nat) (ws : List Word) : (vSet s q k ws).pending = s.pending := rfl
@[simp] theorem vSet_time (q k : Nat) (ws : List Word) : (vSet s q k ws).time = s.time := rfl
@[simp] theorem vSet_free (q k : Nat) (ws : List Word) : (vSet s q k ws).free = s.free := rfl
@[simp] theorem vSet_mem (q k : Nat) (ws : List Word) : (vSet s q k ws).mem = s.mem := rfl
@[simp] theorem vSet_fence (q k : Nat) (ws : List Word) : (vSet s q k ws).fence = s.fence := rfl
@[simp] theorem vSet_sys (q k : Nat) (ws : List Word) : (vSet s q k ws).sys = s.sys := rfl
@[simp] theorem vSet_lanes (q k : Nat) (ws : List Word) : (vSet s q k ws).lanes = s.lanes := rfl
@[simp] theorem vSet_coxes (q k : Nat) (ws : List Word) : (vSet s q k ws).coxes = s.coxes := rfl
@[simp] theorem vSet_eth (q k : Nat) (ws : List Word) : (vSet s q k ws).eth = s.eth := rfl
@[simp] theorem vSet_galley (q k : Nat) (ws : List Word) : (vSet s q k ws).galley = s.galley := rfl
@[simp] theorem vSet_custody (q k : Nat) (ws : List Word) : (vSet s q k ws).custody = s.custody := rfl
@[simp] theorem vSet_engines (q k : Nat) (ws : List Word) : (vSet s q k ws).engines = s.engines := rfl
@[simp] theorem vSet_counters (q k : Nat) (ws : List Word) : (vSet s q k ws).counters = s.counters := rfl
@[simp] theorem vSet_power (q k : Nat) (ws : List Word) : (vSet s q k ws).power = s.power := rfl
@[simp] theorem vSet_irrix (q k : Nat) (ws : List Word) : (vSet s q k ws).irrix = s.irrix := rfl
@[simp] theorem vSet_boot (q k : Nat) (ws : List Word) : (vSet s q k ws).boot = s.boot := rfl
@[simp] theorem vSet_pins (q k : Nat) (ws : List Word) : (vSet s q k ws).pins = s.pins := rfl

/-! PCC written changes seats alone. -/

@[simp] theorem pccSet_pending (q : Nat) (v : Cap) : (pccSet s q v).pending = s.pending := rfl
@[simp] theorem pccSet_time (q : Nat) (v : Cap) : (pccSet s q v).time = s.time := rfl
@[simp] theorem pccSet_free (q : Nat) (v : Cap) : (pccSet s q v).free = s.free := rfl
@[simp] theorem pccSet_mem (q : Nat) (v : Cap) : (pccSet s q v).mem = s.mem := rfl
@[simp] theorem pccSet_fence (q : Nat) (v : Cap) : (pccSet s q v).fence = s.fence := rfl
@[simp] theorem pccSet_sys (q : Nat) (v : Cap) : (pccSet s q v).sys = s.sys := rfl
@[simp] theorem pccSet_lanes (q : Nat) (v : Cap) : (pccSet s q v).lanes = s.lanes := rfl
@[simp] theorem pccSet_coxes (q : Nat) (v : Cap) : (pccSet s q v).coxes = s.coxes := rfl
@[simp] theorem pccSet_eth (q : Nat) (v : Cap) : (pccSet s q v).eth = s.eth := rfl
@[simp] theorem pccSet_galley (q : Nat) (v : Cap) : (pccSet s q v).galley = s.galley := rfl
@[simp] theorem pccSet_custody (q : Nat) (v : Cap) : (pccSet s q v).custody = s.custody := rfl
@[simp] theorem pccSet_engines (q : Nat) (v : Cap) : (pccSet s q v).engines = s.engines := rfl
@[simp] theorem pccSet_counters (q : Nat) (v : Cap) : (pccSet s q v).counters = s.counters := rfl
@[simp] theorem pccSet_power (q : Nat) (v : Cap) : (pccSet s q v).power = s.power := rfl
@[simp] theorem pccSet_irrix (q : Nat) (v : Cap) : (pccSet s q v).irrix = s.irrix := rfl
@[simp] theorem pccSet_boot (q : Nat) (v : Cap) : (pccSet s q v).boot = s.boot := rfl
@[simp] theorem pccSet_pins (q : Nat) (v : Cap) : (pccSet s q v).pins = s.pins := rfl

/-! The cursor of PCC moved changes seats alone. -/

@[simp] theorem pcSet_pending (q a : Nat) : (pcSet s q a).pending = s.pending := rfl
@[simp] theorem pcSet_time (q a : Nat) : (pcSet s q a).time = s.time := rfl
@[simp] theorem pcSet_free (q a : Nat) : (pcSet s q a).free = s.free := rfl
@[simp] theorem pcSet_mem (q a : Nat) : (pcSet s q a).mem = s.mem := rfl
@[simp] theorem pcSet_fence (q a : Nat) : (pcSet s q a).fence = s.fence := rfl
@[simp] theorem pcSet_sys (q a : Nat) : (pcSet s q a).sys = s.sys := rfl
@[simp] theorem pcSet_lanes (q a : Nat) : (pcSet s q a).lanes = s.lanes := rfl
@[simp] theorem pcSet_coxes (q a : Nat) : (pcSet s q a).coxes = s.coxes := rfl
@[simp] theorem pcSet_eth (q a : Nat) : (pcSet s q a).eth = s.eth := rfl
@[simp] theorem pcSet_galley (q a : Nat) : (pcSet s q a).galley = s.galley := rfl
@[simp] theorem pcSet_custody (q a : Nat) : (pcSet s q a).custody = s.custody := rfl
@[simp] theorem pcSet_engines (q a : Nat) : (pcSet s q a).engines = s.engines := rfl
@[simp] theorem pcSet_counters (q a : Nat) : (pcSet s q a).counters = s.counters := rfl
@[simp] theorem pcSet_power (q a : Nat) : (pcSet s q a).power = s.power := rfl
@[simp] theorem pcSet_irrix (q a : Nat) : (pcSet s q a).irrix = s.irrix := rfl
@[simp] theorem pcSet_boot (q a : Nat) : (pcSet s q a).boot = s.boot := rfl
@[simp] theorem pcSet_pins (q a : Nat) : (pcSet s q a).pins = s.pins := rfl

/-! The seat goes on at an address changes seats alone. -/

@[simp] theorem goOn_pending (q a : Nat) : (goOn q a s).pending = s.pending := rfl
@[simp] theorem goOn_time (q a : Nat) : (goOn q a s).time = s.time := rfl
@[simp] theorem goOn_free (q a : Nat) : (goOn q a s).free = s.free := rfl
@[simp] theorem goOn_mem (q a : Nat) : (goOn q a s).mem = s.mem := rfl
@[simp] theorem goOn_fence (q a : Nat) : (goOn q a s).fence = s.fence := rfl
@[simp] theorem goOn_sys (q a : Nat) : (goOn q a s).sys = s.sys := rfl
@[simp] theorem goOn_lanes (q a : Nat) : (goOn q a s).lanes = s.lanes := rfl
@[simp] theorem goOn_coxes (q a : Nat) : (goOn q a s).coxes = s.coxes := rfl
@[simp] theorem goOn_eth (q a : Nat) : (goOn q a s).eth = s.eth := rfl
@[simp] theorem goOn_galley (q a : Nat) : (goOn q a s).galley = s.galley := rfl
@[simp] theorem goOn_custody (q a : Nat) : (goOn q a s).custody = s.custody := rfl
@[simp] theorem goOn_engines (q a : Nat) : (goOn q a s).engines = s.engines := rfl
@[simp] theorem goOn_counters (q a : Nat) : (goOn q a s).counters = s.counters := rfl
@[simp] theorem goOn_power (q a : Nat) : (goOn q a s).power = s.power := rfl
@[simp] theorem goOn_irrix (q a : Nat) : (goOn q a s).irrix = s.irrix := rfl
@[simp] theorem goOn_boot (q a : Nat) : (goOn q a s).boot = s.boot := rfl
@[simp] theorem goOn_pins (q a : Nat) : (goOn q a s).pins = s.pins := rfl

/-! A counter of counter space changes counters alone. -/

@[simp] theorem counterAdd_pending (off i n : Nat) : (counterAdd s off i n).pending = s.pending := by obtain ⟨c, h⟩ := counterAdd_only s off i n; rw [h]
@[simp] theorem counterAdd_time (off i n : Nat) : (counterAdd s off i n).time = s.time := by obtain ⟨c, h⟩ := counterAdd_only s off i n; rw [h]
@[simp] theorem counterAdd_free (off i n : Nat) : (counterAdd s off i n).free = s.free := by obtain ⟨c, h⟩ := counterAdd_only s off i n; rw [h]
@[simp] theorem counterAdd_seats (off i n : Nat) : (counterAdd s off i n).seats = s.seats := by obtain ⟨c, h⟩ := counterAdd_only s off i n; rw [h]
@[simp] theorem counterAdd_mem (off i n : Nat) : (counterAdd s off i n).mem = s.mem := by obtain ⟨c, h⟩ := counterAdd_only s off i n; rw [h]
@[simp] theorem counterAdd_fence (off i n : Nat) : (counterAdd s off i n).fence = s.fence := by obtain ⟨c, h⟩ := counterAdd_only s off i n; rw [h]
@[simp] theorem counterAdd_sys (off i n : Nat) : (counterAdd s off i n).sys = s.sys := by obtain ⟨c, h⟩ := counterAdd_only s off i n; rw [h]
@[simp] theorem counterAdd_lanes (off i n : Nat) : (counterAdd s off i n).lanes = s.lanes := by obtain ⟨c, h⟩ := counterAdd_only s off i n; rw [h]
@[simp] theorem counterAdd_coxes (off i n : Nat) : (counterAdd s off i n).coxes = s.coxes := by obtain ⟨c, h⟩ := counterAdd_only s off i n; rw [h]
@[simp] theorem counterAdd_eth (off i n : Nat) : (counterAdd s off i n).eth = s.eth := by obtain ⟨c, h⟩ := counterAdd_only s off i n; rw [h]
@[simp] theorem counterAdd_galley (off i n : Nat) : (counterAdd s off i n).galley = s.galley := by obtain ⟨c, h⟩ := counterAdd_only s off i n; rw [h]
@[simp] theorem counterAdd_custody (off i n : Nat) : (counterAdd s off i n).custody = s.custody := by obtain ⟨c, h⟩ := counterAdd_only s off i n; rw [h]
@[simp] theorem counterAdd_engines (off i n : Nat) : (counterAdd s off i n).engines = s.engines := by obtain ⟨c, h⟩ := counterAdd_only s off i n; rw [h]
@[simp] theorem counterAdd_power (off i n : Nat) : (counterAdd s off i n).power = s.power := by obtain ⟨c, h⟩ := counterAdd_only s off i n; rw [h]
@[simp] theorem counterAdd_irrix (off i n : Nat) : (counterAdd s off i n).irrix = s.irrix := by obtain ⟨c, h⟩ := counterAdd_only s off i n; rw [h]
@[simp] theorem counterAdd_boot (off i n : Nat) : (counterAdd s off i n).boot = s.boot := by obtain ⟨c, h⟩ := counterAdd_only s off i n; rw [h]
@[simp] theorem counterAdd_pins (off i n : Nat) : (counterAdd s off i n).pins = s.pins := by obtain ⟨c, h⟩ := counterAdd_only s off i n; rw [h]

/-! A counter of a seat changes counters alone. -/

@[simp] theorem seatCount_pending (q i : Nat) : (seatCount s q i).pending = s.pending := by unfold seatCount; simp only; split; exacts [counterAdd_pending .., rfl]
@[simp] theorem seatCount_time (q i : Nat) : (seatCount s q i).time = s.time := by unfold seatCount; simp only; split; exacts [counterAdd_time .., rfl]
@[simp] theorem seatCount_free (q i : Nat) : (seatCount s q i).free = s.free := by unfold seatCount; simp only; split; exacts [counterAdd_free .., rfl]
@[simp] theorem seatCount_seats (q i : Nat) : (seatCount s q i).seats = s.seats := by unfold seatCount; simp only; split; exacts [counterAdd_seats .., rfl]
@[simp] theorem seatCount_mem (q i : Nat) : (seatCount s q i).mem = s.mem := by unfold seatCount; simp only; split; exacts [counterAdd_mem .., rfl]
@[simp] theorem seatCount_fence (q i : Nat) : (seatCount s q i).fence = s.fence := by unfold seatCount; simp only; split; exacts [counterAdd_fence .., rfl]
@[simp] theorem seatCount_sys (q i : Nat) : (seatCount s q i).sys = s.sys := by unfold seatCount; simp only; split; exacts [counterAdd_sys .., rfl]
@[simp] theorem seatCount_lanes (q i : Nat) : (seatCount s q i).lanes = s.lanes := by unfold seatCount; simp only; split; exacts [counterAdd_lanes .., rfl]
@[simp] theorem seatCount_coxes (q i : Nat) : (seatCount s q i).coxes = s.coxes := by unfold seatCount; simp only; split; exacts [counterAdd_coxes .., rfl]
@[simp] theorem seatCount_eth (q i : Nat) : (seatCount s q i).eth = s.eth := by unfold seatCount; simp only; split; exacts [counterAdd_eth .., rfl]
@[simp] theorem seatCount_galley (q i : Nat) : (seatCount s q i).galley = s.galley := by unfold seatCount; simp only; split; exacts [counterAdd_galley .., rfl]
@[simp] theorem seatCount_custody (q i : Nat) : (seatCount s q i).custody = s.custody := by unfold seatCount; simp only; split; exacts [counterAdd_custody .., rfl]
@[simp] theorem seatCount_engines (q i : Nat) : (seatCount s q i).engines = s.engines := by unfold seatCount; simp only; split; exacts [counterAdd_engines .., rfl]
@[simp] theorem seatCount_power (q i : Nat) : (seatCount s q i).power = s.power := by unfold seatCount; simp only; split; exacts [counterAdd_power .., rfl]
@[simp] theorem seatCount_irrix (q i : Nat) : (seatCount s q i).irrix = s.irrix := by unfold seatCount; simp only; split; exacts [counterAdd_irrix .., rfl]
@[simp] theorem seatCount_boot (q i : Nat) : (seatCount s q i).boot = s.boot := by unfold seatCount; simp only; split; exacts [counterAdd_boot .., rfl]
@[simp] theorem seatCount_pins (q i : Nat) : (seatCount s q i).pins = s.pins := by unfold seatCount; simp only; split; exacts [counterAdd_pins .., rfl]

/-! A counter of a cox changes counters alone. -/

@[simp] theorem coxCount_pending (x i : Nat) : (coxCount s x i).pending = s.pending := counterAdd_pending ..
@[simp] theorem coxCount_time (x i : Nat) : (coxCount s x i).time = s.time := counterAdd_time ..
@[simp] theorem coxCount_free (x i : Nat) : (coxCount s x i).free = s.free := counterAdd_free ..
@[simp] theorem coxCount_seats (x i : Nat) : (coxCount s x i).seats = s.seats := counterAdd_seats ..
@[simp] theorem coxCount_mem (x i : Nat) : (coxCount s x i).mem = s.mem := counterAdd_mem ..
@[simp] theorem coxCount_fence (x i : Nat) : (coxCount s x i).fence = s.fence := counterAdd_fence ..
@[simp] theorem coxCount_sys (x i : Nat) : (coxCount s x i).sys = s.sys := counterAdd_sys ..
@[simp] theorem coxCount_lanes (x i : Nat) : (coxCount s x i).lanes = s.lanes := counterAdd_lanes ..
@[simp] theorem coxCount_coxes (x i : Nat) : (coxCount s x i).coxes = s.coxes := counterAdd_coxes ..
@[simp] theorem coxCount_eth (x i : Nat) : (coxCount s x i).eth = s.eth := counterAdd_eth ..
@[simp] theorem coxCount_galley (x i : Nat) : (coxCount s x i).galley = s.galley := counterAdd_galley ..
@[simp] theorem coxCount_custody (x i : Nat) : (coxCount s x i).custody = s.custody := counterAdd_custody ..
@[simp] theorem coxCount_engines (x i : Nat) : (coxCount s x i).engines = s.engines := counterAdd_engines ..
@[simp] theorem coxCount_power (x i : Nat) : (coxCount s x i).power = s.power := counterAdd_power ..
@[simp] theorem coxCount_irrix (x i : Nat) : (coxCount s x i).irrix = s.irrix := counterAdd_irrix ..
@[simp] theorem coxCount_boot (x i : Nat) : (coxCount s x i).boot = s.boot := counterAdd_boot ..
@[simp] theorem coxCount_pins (x i : Nat) : (coxCount s x i).pins = s.pins := counterAdd_pins ..

/-! A counter of a unit changes counters alone. -/

@[simp] theorem unitCount_pending (u i n : Nat) : (unitCount s u i n).pending = s.pending := counterAdd_pending ..
@[simp] theorem unitCount_time (u i n : Nat) : (unitCount s u i n).time = s.time := counterAdd_time ..
@[simp] theorem unitCount_free (u i n : Nat) : (unitCount s u i n).free = s.free := counterAdd_free ..
@[simp] theorem unitCount_seats (u i n : Nat) : (unitCount s u i n).seats = s.seats := counterAdd_seats ..
@[simp] theorem unitCount_mem (u i n : Nat) : (unitCount s u i n).mem = s.mem := counterAdd_mem ..
@[simp] theorem unitCount_fence (u i n : Nat) : (unitCount s u i n).fence = s.fence := counterAdd_fence ..
@[simp] theorem unitCount_sys (u i n : Nat) : (unitCount s u i n).sys = s.sys := counterAdd_sys ..
@[simp] theorem unitCount_lanes (u i n : Nat) : (unitCount s u i n).lanes = s.lanes := counterAdd_lanes ..
@[simp] theorem unitCount_coxes (u i n : Nat) : (unitCount s u i n).coxes = s.coxes := counterAdd_coxes ..
@[simp] theorem unitCount_eth (u i n : Nat) : (unitCount s u i n).eth = s.eth := counterAdd_eth ..
@[simp] theorem unitCount_galley (u i n : Nat) : (unitCount s u i n).galley = s.galley := counterAdd_galley ..
@[simp] theorem unitCount_custody (u i n : Nat) : (unitCount s u i n).custody = s.custody := counterAdd_custody ..
@[simp] theorem unitCount_engines (u i n : Nat) : (unitCount s u i n).engines = s.engines := counterAdd_engines ..
@[simp] theorem unitCount_power (u i n : Nat) : (unitCount s u i n).power = s.power := counterAdd_power ..
@[simp] theorem unitCount_irrix (u i n : Nat) : (unitCount s u i n).irrix = s.irrix := counterAdd_irrix ..
@[simp] theorem unitCount_boot (u i n : Nat) : (unitCount s u i n).boot = s.boot := counterAdd_boot ..
@[simp] theorem unitCount_pins (u i n : Nat) : (unitCount s u i n).pins = s.pins := counterAdd_pins ..

/-! A counter of a lane changes counters alone. -/

@[simp] theorem laneCount_pending (l i : Nat) : (laneCount s l i).pending = s.pending := counterAdd_pending ..
@[simp] theorem laneCount_time (l i : Nat) : (laneCount s l i).time = s.time := counterAdd_time ..
@[simp] theorem laneCount_free (l i : Nat) : (laneCount s l i).free = s.free := counterAdd_free ..
@[simp] theorem laneCount_seats (l i : Nat) : (laneCount s l i).seats = s.seats := counterAdd_seats ..
@[simp] theorem laneCount_mem (l i : Nat) : (laneCount s l i).mem = s.mem := counterAdd_mem ..
@[simp] theorem laneCount_fence (l i : Nat) : (laneCount s l i).fence = s.fence := counterAdd_fence ..
@[simp] theorem laneCount_sys (l i : Nat) : (laneCount s l i).sys = s.sys := counterAdd_sys ..
@[simp] theorem laneCount_lanes (l i : Nat) : (laneCount s l i).lanes = s.lanes := counterAdd_lanes ..
@[simp] theorem laneCount_coxes (l i : Nat) : (laneCount s l i).coxes = s.coxes := counterAdd_coxes ..
@[simp] theorem laneCount_eth (l i : Nat) : (laneCount s l i).eth = s.eth := counterAdd_eth ..
@[simp] theorem laneCount_galley (l i : Nat) : (laneCount s l i).galley = s.galley := counterAdd_galley ..
@[simp] theorem laneCount_custody (l i : Nat) : (laneCount s l i).custody = s.custody := counterAdd_custody ..
@[simp] theorem laneCount_engines (l i : Nat) : (laneCount s l i).engines = s.engines := counterAdd_engines ..
@[simp] theorem laneCount_power (l i : Nat) : (laneCount s l i).power = s.power := counterAdd_power ..
@[simp] theorem laneCount_irrix (l i : Nat) : (laneCount s l i).irrix = s.irrix := counterAdd_irrix ..
@[simp] theorem laneCount_boot (l i : Nat) : (laneCount s l i).boot = s.boot := counterAdd_boot ..
@[simp] theorem laneCount_pins (l i : Nat) : (laneCount s l i).pins = s.pins := counterAdd_pins ..

/-! A counter of a lane class changes counters alone. -/

@[simp] theorem classCount_pending (k i : Nat) : (classCount s k i).pending = s.pending := counterAdd_pending ..
@[simp] theorem classCount_time (k i : Nat) : (classCount s k i).time = s.time := counterAdd_time ..
@[simp] theorem classCount_free (k i : Nat) : (classCount s k i).free = s.free := counterAdd_free ..
@[simp] theorem classCount_seats (k i : Nat) : (classCount s k i).seats = s.seats := counterAdd_seats ..
@[simp] theorem classCount_mem (k i : Nat) : (classCount s k i).mem = s.mem := counterAdd_mem ..
@[simp] theorem classCount_fence (k i : Nat) : (classCount s k i).fence = s.fence := counterAdd_fence ..
@[simp] theorem classCount_sys (k i : Nat) : (classCount s k i).sys = s.sys := counterAdd_sys ..
@[simp] theorem classCount_lanes (k i : Nat) : (classCount s k i).lanes = s.lanes := counterAdd_lanes ..
@[simp] theorem classCount_coxes (k i : Nat) : (classCount s k i).coxes = s.coxes := counterAdd_coxes ..
@[simp] theorem classCount_eth (k i : Nat) : (classCount s k i).eth = s.eth := counterAdd_eth ..
@[simp] theorem classCount_galley (k i : Nat) : (classCount s k i).galley = s.galley := counterAdd_galley ..
@[simp] theorem classCount_custody (k i : Nat) : (classCount s k i).custody = s.custody := counterAdd_custody ..
@[simp] theorem classCount_engines (k i : Nat) : (classCount s k i).engines = s.engines := counterAdd_engines ..
@[simp] theorem classCount_power (k i : Nat) : (classCount s k i).power = s.power := counterAdd_power ..
@[simp] theorem classCount_irrix (k i : Nat) : (classCount s k i).irrix = s.irrix := counterAdd_irrix ..
@[simp] theorem classCount_boot (k i : Nat) : (classCount s k i).boot = s.boot := counterAdd_boot ..
@[simp] theorem classCount_pins (k i : Nat) : (classCount s k i).pins = s.pins := counterAdd_pins ..

/-! A cox written changes coxes alone. -/

@[simp] theorem setCox_pending (x : Nat) (c : Cox) : (setCox s x c).pending = s.pending := rfl
@[simp] theorem setCox_time (x : Nat) (c : Cox) : (setCox s x c).time = s.time := rfl
@[simp] theorem setCox_free (x : Nat) (c : Cox) : (setCox s x c).free = s.free := rfl
@[simp] theorem setCox_seats (x : Nat) (c : Cox) : (setCox s x c).seats = s.seats := rfl
@[simp] theorem setCox_mem (x : Nat) (c : Cox) : (setCox s x c).mem = s.mem := rfl
@[simp] theorem setCox_fence (x : Nat) (c : Cox) : (setCox s x c).fence = s.fence := rfl
@[simp] theorem setCox_sys (x : Nat) (c : Cox) : (setCox s x c).sys = s.sys := rfl
@[simp] theorem setCox_lanes (x : Nat) (c : Cox) : (setCox s x c).lanes = s.lanes := rfl
@[simp] theorem setCox_eth (x : Nat) (c : Cox) : (setCox s x c).eth = s.eth := rfl
@[simp] theorem setCox_galley (x : Nat) (c : Cox) : (setCox s x c).galley = s.galley := rfl
@[simp] theorem setCox_custody (x : Nat) (c : Cox) : (setCox s x c).custody = s.custody := rfl
@[simp] theorem setCox_engines (x : Nat) (c : Cox) : (setCox s x c).engines = s.engines := rfl
@[simp] theorem setCox_counters (x : Nat) (c : Cox) : (setCox s x c).counters = s.counters := rfl
@[simp] theorem setCox_power (x : Nat) (c : Cox) : (setCox s x c).power = s.power := rfl
@[simp] theorem setCox_irrix (x : Nat) (c : Cox) : (setCox s x c).irrix = s.irrix := rfl
@[simp] theorem setCox_boot (x : Nat) (c : Cox) : (setCox s x c).boot = s.boot := rfl
@[simp] theorem setCox_pins (x : Nat) (c : Cox) : (setCox s x c).pins = s.pins := rfl

/-! A cox changed changes coxes alone. -/

@[simp] theorem modCox_pending (x : Nat) (f : Cox → Cox) : (modCox s x f).pending = s.pending := rfl
@[simp] theorem modCox_time (x : Nat) (f : Cox → Cox) : (modCox s x f).time = s.time := rfl
@[simp] theorem modCox_free (x : Nat) (f : Cox → Cox) : (modCox s x f).free = s.free := rfl
@[simp] theorem modCox_seats (x : Nat) (f : Cox → Cox) : (modCox s x f).seats = s.seats := rfl
@[simp] theorem modCox_mem (x : Nat) (f : Cox → Cox) : (modCox s x f).mem = s.mem := rfl
@[simp] theorem modCox_fence (x : Nat) (f : Cox → Cox) : (modCox s x f).fence = s.fence := rfl
@[simp] theorem modCox_sys (x : Nat) (f : Cox → Cox) : (modCox s x f).sys = s.sys := rfl
@[simp] theorem modCox_lanes (x : Nat) (f : Cox → Cox) : (modCox s x f).lanes = s.lanes := rfl
@[simp] theorem modCox_eth (x : Nat) (f : Cox → Cox) : (modCox s x f).eth = s.eth := rfl
@[simp] theorem modCox_galley (x : Nat) (f : Cox → Cox) : (modCox s x f).galley = s.galley := rfl
@[simp] theorem modCox_custody (x : Nat) (f : Cox → Cox) : (modCox s x f).custody = s.custody := rfl
@[simp] theorem modCox_engines (x : Nat) (f : Cox → Cox) : (modCox s x f).engines = s.engines := rfl
@[simp] theorem modCox_counters (x : Nat) (f : Cox → Cox) : (modCox s x f).counters = s.counters := rfl
@[simp] theorem modCox_power (x : Nat) (f : Cox → Cox) : (modCox s x f).power = s.power := rfl
@[simp] theorem modCox_irrix (x : Nat) (f : Cox → Cox) : (modCox s x f).irrix = s.irrix := rfl
@[simp] theorem modCox_boot (x : Nat) (f : Cox → Cox) : (modCox s x f).boot = s.boot := rfl
@[simp] theorem modCox_pins (x : Nat) (f : Cox → Cox) : (modCox s x f).pins = s.pins := rfl

/-! A pair buffer written changes coxes alone. -/

@[simp] theorem setPair_pending (c i : Nat) (b : PairBuf) : (setPair s c i b).pending = s.pending := rfl
@[simp] theorem setPair_time (c i : Nat) (b : PairBuf) : (setPair s c i b).time = s.time := rfl
@[simp] theorem setPair_free (c i : Nat) (b : PairBuf) : (setPair s c i b).free = s.free := rfl
@[simp] theorem setPair_seats (c i : Nat) (b : PairBuf) : (setPair s c i b).seats = s.seats := rfl
@[simp] theorem setPair_mem (c i : Nat) (b : PairBuf) : (setPair s c i b).mem = s.mem := rfl
@[simp] theorem setPair_fence (c i : Nat) (b : PairBuf) : (setPair s c i b).fence = s.fence := rfl
@[simp] theorem setPair_sys (c i : Nat) (b : PairBuf) : (setPair s c i b).sys = s.sys := rfl
@[simp] theorem setPair_lanes (c i : Nat) (b : PairBuf) : (setPair s c i b).lanes = s.lanes := rfl
@[simp] theorem setPair_eth (c i : Nat) (b : PairBuf) : (setPair s c i b).eth = s.eth := rfl
@[simp] theorem setPair_galley (c i : Nat) (b : PairBuf) : (setPair s c i b).galley = s.galley := rfl
@[simp] theorem setPair_custody (c i : Nat) (b : PairBuf) : (setPair s c i b).custody = s.custody := rfl
@[simp] theorem setPair_engines (c i : Nat) (b : PairBuf) : (setPair s c i b).engines = s.engines := rfl
@[simp] theorem setPair_counters (c i : Nat) (b : PairBuf) : (setPair s c i b).counters = s.counters := rfl
@[simp] theorem setPair_power (c i : Nat) (b : PairBuf) : (setPair s c i b).power = s.power := rfl
@[simp] theorem setPair_irrix (c i : Nat) (b : PairBuf) : (setPair s c i b).irrix = s.irrix := rfl
@[simp] theorem setPair_boot (c i : Nat) (b : PairBuf) : (setPair s c i b).boot = s.boot := rfl
@[simp] theorem setPair_pins (c i : Nat) (b : PairBuf) : (setPair s c i b).pins = s.pins := rfl

/-! A galley channel written changes galley alone. -/

@[simp] theorem setChan_pending (ch : Nat) (c : Chan) : (setChan s ch c).pending = s.pending := rfl
@[simp] theorem setChan_time (ch : Nat) (c : Chan) : (setChan s ch c).time = s.time := rfl
@[simp] theorem setChan_free (ch : Nat) (c : Chan) : (setChan s ch c).free = s.free := rfl
@[simp] theorem setChan_seats (ch : Nat) (c : Chan) : (setChan s ch c).seats = s.seats := rfl
@[simp] theorem setChan_mem (ch : Nat) (c : Chan) : (setChan s ch c).mem = s.mem := rfl
@[simp] theorem setChan_fence (ch : Nat) (c : Chan) : (setChan s ch c).fence = s.fence := rfl
@[simp] theorem setChan_sys (ch : Nat) (c : Chan) : (setChan s ch c).sys = s.sys := rfl
@[simp] theorem setChan_lanes (ch : Nat) (c : Chan) : (setChan s ch c).lanes = s.lanes := rfl
@[simp] theorem setChan_coxes (ch : Nat) (c : Chan) : (setChan s ch c).coxes = s.coxes := rfl
@[simp] theorem setChan_eth (ch : Nat) (c : Chan) : (setChan s ch c).eth = s.eth := rfl
@[simp] theorem setChan_custody (ch : Nat) (c : Chan) : (setChan s ch c).custody = s.custody := rfl
@[simp] theorem setChan_engines (ch : Nat) (c : Chan) : (setChan s ch c).engines = s.engines := rfl
@[simp] theorem setChan_counters (ch : Nat) (c : Chan) : (setChan s ch c).counters = s.counters := rfl
@[simp] theorem setChan_power (ch : Nat) (c : Chan) : (setChan s ch c).power = s.power := rfl
@[simp] theorem setChan_irrix (ch : Nat) (c : Chan) : (setChan s ch c).irrix = s.irrix := rfl
@[simp] theorem setChan_boot (ch : Nat) (c : Chan) : (setChan s ch c).boot = s.boot := rfl
@[simp] theorem setChan_pins (ch : Nat) (c : Chan) : (setChan s ch c).pins = s.pins := rfl

/-! A galley access refused changes galley alone. -/

@[simp] theorem galleyRefuse_pending : (galleyRefuse s).pending = s.pending := rfl
@[simp] theorem galleyRefuse_time : (galleyRefuse s).time = s.time := rfl
@[simp] theorem galleyRefuse_free : (galleyRefuse s).free = s.free := rfl
@[simp] theorem galleyRefuse_seats : (galleyRefuse s).seats = s.seats := rfl
@[simp] theorem galleyRefuse_mem : (galleyRefuse s).mem = s.mem := rfl
@[simp] theorem galleyRefuse_fence : (galleyRefuse s).fence = s.fence := rfl
@[simp] theorem galleyRefuse_sys : (galleyRefuse s).sys = s.sys := rfl
@[simp] theorem galleyRefuse_lanes : (galleyRefuse s).lanes = s.lanes := rfl
@[simp] theorem galleyRefuse_coxes : (galleyRefuse s).coxes = s.coxes := rfl
@[simp] theorem galleyRefuse_eth : (galleyRefuse s).eth = s.eth := rfl
@[simp] theorem galleyRefuse_custody : (galleyRefuse s).custody = s.custody := rfl
@[simp] theorem galleyRefuse_engines : (galleyRefuse s).engines = s.engines := rfl
@[simp] theorem galleyRefuse_counters : (galleyRefuse s).counters = s.counters := rfl
@[simp] theorem galleyRefuse_power : (galleyRefuse s).power = s.power := rfl
@[simp] theorem galleyRefuse_irrix : (galleyRefuse s).irrix = s.irrix := rfl
@[simp] theorem galleyRefuse_boot : (galleyRefuse s).boot = s.boot := rfl
@[simp] theorem galleyRefuse_pins : (galleyRefuse s).pins = s.pins := rfl

/-! A ready queue written changes lanes alone. -/

@[simp] theorem readySet_pending (home pend : Nat) (xs : List (LaneNo × Bool)) : (readySet s home pend xs).pending = s.pending := rfl
@[simp] theorem readySet_time (home pend : Nat) (xs : List (LaneNo × Bool)) : (readySet s home pend xs).time = s.time := rfl
@[simp] theorem readySet_free (home pend : Nat) (xs : List (LaneNo × Bool)) : (readySet s home pend xs).free = s.free := rfl
@[simp] theorem readySet_seats (home pend : Nat) (xs : List (LaneNo × Bool)) : (readySet s home pend xs).seats = s.seats := rfl
@[simp] theorem readySet_mem (home pend : Nat) (xs : List (LaneNo × Bool)) : (readySet s home pend xs).mem = s.mem := rfl
@[simp] theorem readySet_fence (home pend : Nat) (xs : List (LaneNo × Bool)) : (readySet s home pend xs).fence = s.fence := rfl
@[simp] theorem readySet_sys (home pend : Nat) (xs : List (LaneNo × Bool)) : (readySet s home pend xs).sys = s.sys := rfl
@[simp] theorem readySet_coxes (home pend : Nat) (xs : List (LaneNo × Bool)) : (readySet s home pend xs).coxes = s.coxes := rfl
@[simp] theorem readySet_eth (home pend : Nat) (xs : List (LaneNo × Bool)) : (readySet s home pend xs).eth = s.eth := rfl
@[simp] theorem readySet_galley (home pend : Nat) (xs : List (LaneNo × Bool)) : (readySet s home pend xs).galley = s.galley := rfl
@[simp] theorem readySet_custody (home pend : Nat) (xs : List (LaneNo × Bool)) : (readySet s home pend xs).custody = s.custody := rfl
@[simp] theorem readySet_engines (home pend : Nat) (xs : List (LaneNo × Bool)) : (readySet s home pend xs).engines = s.engines := rfl
@[simp] theorem readySet_counters (home pend : Nat) (xs : List (LaneNo × Bool)) : (readySet s home pend xs).counters = s.counters := rfl
@[simp] theorem readySet_power (home pend : Nat) (xs : List (LaneNo × Bool)) : (readySet s home pend xs).power = s.power := rfl
@[simp] theorem readySet_irrix (home pend : Nat) (xs : List (LaneNo × Bool)) : (readySet s home pend xs).irrix = s.irrix := rfl
@[simp] theorem readySet_boot (home pend : Nat) (xs : List (LaneNo × Bool)) : (readySet s home pend xs).boot = s.boot := rfl
@[simp] theorem readySet_pins (home pend : Nat) (xs : List (LaneNo × Bool)) : (readySet s home pend xs).pins = s.pins := rfl

/-! A class's admissions counted changes lanes alone. -/

@[simp] theorem countAdmission_pending (k : Nat) : (countAdmission s k).pending = s.pending := rfl
@[simp] theorem countAdmission_time (k : Nat) : (countAdmission s k).time = s.time := rfl
@[simp] theorem countAdmission_free (k : Nat) : (countAdmission s k).free = s.free := rfl
@[simp] theorem countAdmission_seats (k : Nat) : (countAdmission s k).seats = s.seats := rfl
@[simp] theorem countAdmission_mem (k : Nat) : (countAdmission s k).mem = s.mem := rfl
@[simp] theorem countAdmission_fence (k : Nat) : (countAdmission s k).fence = s.fence := rfl
@[simp] theorem countAdmission_sys (k : Nat) : (countAdmission s k).sys = s.sys := rfl
@[simp] theorem countAdmission_coxes (k : Nat) : (countAdmission s k).coxes = s.coxes := rfl
@[simp] theorem countAdmission_eth (k : Nat) : (countAdmission s k).eth = s.eth := rfl
@[simp] theorem countAdmission_galley (k : Nat) : (countAdmission s k).galley = s.galley := rfl
@[simp] theorem countAdmission_custody (k : Nat) : (countAdmission s k).custody = s.custody := rfl
@[simp] theorem countAdmission_engines (k : Nat) : (countAdmission s k).engines = s.engines := rfl
@[simp] theorem countAdmission_counters (k : Nat) : (countAdmission s k).counters = s.counters := rfl
@[simp] theorem countAdmission_power (k : Nat) : (countAdmission s k).power = s.power := rfl
@[simp] theorem countAdmission_irrix (k : Nat) : (countAdmission s k).irrix = s.irrix := rfl
@[simp] theorem countAdmission_boot (k : Nat) : (countAdmission s k).boot = s.boot := rfl
@[simp] theorem countAdmission_pins (k : Nat) : (countAdmission s k).pins = s.pins := rfl

/-! An Ethernet port changed changes eth alone. -/

@[simp] theorem modPort_pending (p : Nat) (f : Port → Port) : (modPort s p f).pending = s.pending := rfl
@[simp] theorem modPort_time (p : Nat) (f : Port → Port) : (modPort s p f).time = s.time := rfl
@[simp] theorem modPort_free (p : Nat) (f : Port → Port) : (modPort s p f).free = s.free := rfl
@[simp] theorem modPort_seats (p : Nat) (f : Port → Port) : (modPort s p f).seats = s.seats := rfl
@[simp] theorem modPort_mem (p : Nat) (f : Port → Port) : (modPort s p f).mem = s.mem := rfl
@[simp] theorem modPort_fence (p : Nat) (f : Port → Port) : (modPort s p f).fence = s.fence := rfl
@[simp] theorem modPort_sys (p : Nat) (f : Port → Port) : (modPort s p f).sys = s.sys := rfl
@[simp] theorem modPort_lanes (p : Nat) (f : Port → Port) : (modPort s p f).lanes = s.lanes := rfl
@[simp] theorem modPort_coxes (p : Nat) (f : Port → Port) : (modPort s p f).coxes = s.coxes := rfl
@[simp] theorem modPort_galley (p : Nat) (f : Port → Port) : (modPort s p f).galley = s.galley := rfl
@[simp] theorem modPort_custody (p : Nat) (f : Port → Port) : (modPort s p f).custody = s.custody := rfl
@[simp] theorem modPort_engines (p : Nat) (f : Port → Port) : (modPort s p f).engines = s.engines := rfl
@[simp] theorem modPort_counters (p : Nat) (f : Port → Port) : (modPort s p f).counters = s.counters := rfl
@[simp] theorem modPort_power (p : Nat) (f : Port → Port) : (modPort s p f).power = s.power := rfl
@[simp] theorem modPort_irrix (p : Nat) (f : Port → Port) : (modPort s p f).irrix = s.irrix := rfl
@[simp] theorem modPort_boot (p : Nat) (f : Port → Port) : (modPort s p f).boot = s.boot := rfl
@[simp] theorem modPort_pins (p : Nat) (f : Port → Port) : (modPort s p f).pins = s.pins := rfl

/-! An engine's job added changes engines alone. -/

@[simp] theorem addJob_pending (j : Job) : (addJob s j).pending = s.pending := rfl
@[simp] theorem addJob_time (j : Job) : (addJob s j).time = s.time := rfl
@[simp] theorem addJob_free (j : Job) : (addJob s j).free = s.free := rfl
@[simp] theorem addJob_seats (j : Job) : (addJob s j).seats = s.seats := rfl
@[simp] theorem addJob_mem (j : Job) : (addJob s j).mem = s.mem := rfl
@[simp] theorem addJob_fence (j : Job) : (addJob s j).fence = s.fence := rfl
@[simp] theorem addJob_sys (j : Job) : (addJob s j).sys = s.sys := rfl
@[simp] theorem addJob_lanes (j : Job) : (addJob s j).lanes = s.lanes := rfl
@[simp] theorem addJob_coxes (j : Job) : (addJob s j).coxes = s.coxes := rfl
@[simp] theorem addJob_eth (j : Job) : (addJob s j).eth = s.eth := rfl
@[simp] theorem addJob_galley (j : Job) : (addJob s j).galley = s.galley := rfl
@[simp] theorem addJob_custody (j : Job) : (addJob s j).custody = s.custody := rfl
@[simp] theorem addJob_counters (j : Job) : (addJob s j).counters = s.counters := rfl
@[simp] theorem addJob_power (j : Job) : (addJob s j).power = s.power := rfl
@[simp] theorem addJob_irrix (j : Job) : (addJob s j).irrix = s.irrix := rfl
@[simp] theorem addJob_boot (j : Job) : (addJob s j).boot = s.boot := rfl
@[simp] theorem addJob_pins (j : Job) : (addJob s j).pins = s.pins := rfl

/-! A session written changes irrix alone. -/

@[simp] theorem putSession_pending (x : Session) : (putSession s x).pending = s.pending := by unfold putSession; split <;> rfl
@[simp] theorem putSession_time (x : Session) : (putSession s x).time = s.time := by unfold putSession; split <;> rfl
@[simp] theorem putSession_free (x : Session) : (putSession s x).free = s.free := by unfold putSession; split <;> rfl
@[simp] theorem putSession_seats (x : Session) : (putSession s x).seats = s.seats := by unfold putSession; split <;> rfl
@[simp] theorem putSession_mem (x : Session) : (putSession s x).mem = s.mem := by unfold putSession; split <;> rfl
@[simp] theorem putSession_fence (x : Session) : (putSession s x).fence = s.fence := by unfold putSession; split <;> rfl
@[simp] theorem putSession_sys (x : Session) : (putSession s x).sys = s.sys := by unfold putSession; split <;> rfl
@[simp] theorem putSession_lanes (x : Session) : (putSession s x).lanes = s.lanes := by unfold putSession; split <;> rfl
@[simp] theorem putSession_coxes (x : Session) : (putSession s x).coxes = s.coxes := by unfold putSession; split <;> rfl
@[simp] theorem putSession_eth (x : Session) : (putSession s x).eth = s.eth := by unfold putSession; split <;> rfl
@[simp] theorem putSession_galley (x : Session) : (putSession s x).galley = s.galley := by unfold putSession; split <;> rfl
@[simp] theorem putSession_custody (x : Session) : (putSession s x).custody = s.custody := by unfold putSession; split <;> rfl
@[simp] theorem putSession_engines (x : Session) : (putSession s x).engines = s.engines := by unfold putSession; split <;> rfl
@[simp] theorem putSession_counters (x : Session) : (putSession s x).counters = s.counters := by unfold putSession; split <;> rfl
@[simp] theorem putSession_power (x : Session) : (putSession s x).power = s.power := by unfold putSession; split <;> rfl
@[simp] theorem putSession_boot (x : Session) : (putSession s x).boot = s.boot := by unfold putSession; split <;> rfl
@[simp] theorem putSession_pins (x : Session) : (putSession s x).pins = s.pins := by unfold putSession; split <;> rfl

/-! A frame event counted changes irrix alone. -/

@[simp] theorem frameCount_pending (sub : Nat) : (frameCount s sub).pending = s.pending := rfl
@[simp] theorem frameCount_time (sub : Nat) : (frameCount s sub).time = s.time := rfl
@[simp] theorem frameCount_free (sub : Nat) : (frameCount s sub).free = s.free := rfl
@[simp] theorem frameCount_seats (sub : Nat) : (frameCount s sub).seats = s.seats := rfl
@[simp] theorem frameCount_mem (sub : Nat) : (frameCount s sub).mem = s.mem := rfl
@[simp] theorem frameCount_fence (sub : Nat) : (frameCount s sub).fence = s.fence := rfl
@[simp] theorem frameCount_sys (sub : Nat) : (frameCount s sub).sys = s.sys := rfl
@[simp] theorem frameCount_lanes (sub : Nat) : (frameCount s sub).lanes = s.lanes := rfl
@[simp] theorem frameCount_coxes (sub : Nat) : (frameCount s sub).coxes = s.coxes := rfl
@[simp] theorem frameCount_eth (sub : Nat) : (frameCount s sub).eth = s.eth := rfl
@[simp] theorem frameCount_galley (sub : Nat) : (frameCount s sub).galley = s.galley := rfl
@[simp] theorem frameCount_custody (sub : Nat) : (frameCount s sub).custody = s.custody := rfl
@[simp] theorem frameCount_engines (sub : Nat) : (frameCount s sub).engines = s.engines := rfl
@[simp] theorem frameCount_counters (sub : Nat) : (frameCount s sub).counters = s.counters := rfl
@[simp] theorem frameCount_power (sub : Nat) : (frameCount s sub).power = s.power := rfl
@[simp] theorem frameCount_boot (sub : Nat) : (frameCount s sub).boot = s.boot := rfl
@[simp] theorem frameCount_pins (sub : Nat) : (frameCount s sub).pins = s.pins := rfl

/-! An MSI-X vector signalled changes pins alone. -/

@[simp] theorem signalHost_pending (v : Nat) : (signalHost s v).pending = s.pending := by unfold signalHost; split <;> rfl
@[simp] theorem signalHost_time (v : Nat) : (signalHost s v).time = s.time := by unfold signalHost; split <;> rfl
@[simp] theorem signalHost_free (v : Nat) : (signalHost s v).free = s.free := by unfold signalHost; split <;> rfl
@[simp] theorem signalHost_seats (v : Nat) : (signalHost s v).seats = s.seats := by unfold signalHost; split <;> rfl
@[simp] theorem signalHost_mem (v : Nat) : (signalHost s v).mem = s.mem := by unfold signalHost; split <;> rfl
@[simp] theorem signalHost_fence (v : Nat) : (signalHost s v).fence = s.fence := by unfold signalHost; split <;> rfl
@[simp] theorem signalHost_sys (v : Nat) : (signalHost s v).sys = s.sys := by unfold signalHost; split <;> rfl
@[simp] theorem signalHost_lanes (v : Nat) : (signalHost s v).lanes = s.lanes := by unfold signalHost; split <;> rfl
@[simp] theorem signalHost_coxes (v : Nat) : (signalHost s v).coxes = s.coxes := by unfold signalHost; split <;> rfl
@[simp] theorem signalHost_eth (v : Nat) : (signalHost s v).eth = s.eth := by unfold signalHost; split <;> rfl
@[simp] theorem signalHost_galley (v : Nat) : (signalHost s v).galley = s.galley := by unfold signalHost; split <;> rfl
@[simp] theorem signalHost_custody (v : Nat) : (signalHost s v).custody = s.custody := by unfold signalHost; split <;> rfl
@[simp] theorem signalHost_engines (v : Nat) : (signalHost s v).engines = s.engines := by unfold signalHost; split <;> rfl
@[simp] theorem signalHost_counters (v : Nat) : (signalHost s v).counters = s.counters := by unfold signalHost; split <;> rfl
@[simp] theorem signalHost_power (v : Nat) : (signalHost s v).power = s.power := by unfold signalHost; split <;> rfl
@[simp] theorem signalHost_irrix (v : Nat) : (signalHost s v).irrix = s.irrix := by unfold signalHost; split <;> rfl
@[simp] theorem signalHost_boot (v : Nat) : (signalHost s v).boot = s.boot := by unfold signalHost; split <;> rfl

/-! An aperture read completed changes pins alone. -/

@[simp] theorem complete_pending (os : Option (List Octet)) (ep : Bool) : (complete s os ep).pending = s.pending := rfl
@[simp] theorem complete_time (os : Option (List Octet)) (ep : Bool) : (complete s os ep).time = s.time := rfl
@[simp] theorem complete_free (os : Option (List Octet)) (ep : Bool) : (complete s os ep).free = s.free := rfl
@[simp] theorem complete_seats (os : Option (List Octet)) (ep : Bool) : (complete s os ep).seats = s.seats := rfl
@[simp] theorem complete_mem (os : Option (List Octet)) (ep : Bool) : (complete s os ep).mem = s.mem := rfl
@[simp] theorem complete_fence (os : Option (List Octet)) (ep : Bool) : (complete s os ep).fence = s.fence := rfl
@[simp] theorem complete_sys (os : Option (List Octet)) (ep : Bool) : (complete s os ep).sys = s.sys := rfl
@[simp] theorem complete_lanes (os : Option (List Octet)) (ep : Bool) : (complete s os ep).lanes = s.lanes := rfl
@[simp] theorem complete_coxes (os : Option (List Octet)) (ep : Bool) : (complete s os ep).coxes = s.coxes := rfl
@[simp] theorem complete_eth (os : Option (List Octet)) (ep : Bool) : (complete s os ep).eth = s.eth := rfl
@[simp] theorem complete_galley (os : Option (List Octet)) (ep : Bool) : (complete s os ep).galley = s.galley := rfl
@[simp] theorem complete_custody (os : Option (List Octet)) (ep : Bool) : (complete s os ep).custody = s.custody := rfl
@[simp] theorem complete_engines (os : Option (List Octet)) (ep : Bool) : (complete s os ep).engines = s.engines := rfl
@[simp] theorem complete_counters (os : Option (List Octet)) (ep : Bool) : (complete s os ep).counters = s.counters := rfl
@[simp] theorem complete_power (os : Option (List Octet)) (ep : Bool) : (complete s os ep).power = s.power := rfl
@[simp] theorem complete_irrix (os : Option (List Octet)) (ep : Bool) : (complete s os ep).irrix = s.irrix := rfl
@[simp] theorem complete_boot (os : Option (List Octet)) (ep : Bool) : (complete s os ep).boot = s.boot := rfl

/-! A fence fault recorded changes fence alone. -/

@[simp] theorem fenceRecord_pending (r : FenceReq) (unit kind : Nat) : (fenceRecord s r unit kind).pending = s.pending := by obtain ⟨f, h⟩ := fenceRecord_only s r unit kind; rw [h]
@[simp] theorem fenceRecord_time (r : FenceReq) (unit kind : Nat) : (fenceRecord s r unit kind).time = s.time := by obtain ⟨f, h⟩ := fenceRecord_only s r unit kind; rw [h]
@[simp] theorem fenceRecord_free (r : FenceReq) (unit kind : Nat) : (fenceRecord s r unit kind).free = s.free := by obtain ⟨f, h⟩ := fenceRecord_only s r unit kind; rw [h]
@[simp] theorem fenceRecord_seats (r : FenceReq) (unit kind : Nat) : (fenceRecord s r unit kind).seats = s.seats := by obtain ⟨f, h⟩ := fenceRecord_only s r unit kind; rw [h]
@[simp] theorem fenceRecord_mem (r : FenceReq) (unit kind : Nat) : (fenceRecord s r unit kind).mem = s.mem := by obtain ⟨f, h⟩ := fenceRecord_only s r unit kind; rw [h]
@[simp] theorem fenceRecord_sys (r : FenceReq) (unit kind : Nat) : (fenceRecord s r unit kind).sys = s.sys := by obtain ⟨f, h⟩ := fenceRecord_only s r unit kind; rw [h]
@[simp] theorem fenceRecord_lanes (r : FenceReq) (unit kind : Nat) : (fenceRecord s r unit kind).lanes = s.lanes := by obtain ⟨f, h⟩ := fenceRecord_only s r unit kind; rw [h]
@[simp] theorem fenceRecord_coxes (r : FenceReq) (unit kind : Nat) : (fenceRecord s r unit kind).coxes = s.coxes := by obtain ⟨f, h⟩ := fenceRecord_only s r unit kind; rw [h]
@[simp] theorem fenceRecord_eth (r : FenceReq) (unit kind : Nat) : (fenceRecord s r unit kind).eth = s.eth := by obtain ⟨f, h⟩ := fenceRecord_only s r unit kind; rw [h]
@[simp] theorem fenceRecord_galley (r : FenceReq) (unit kind : Nat) : (fenceRecord s r unit kind).galley = s.galley := by obtain ⟨f, h⟩ := fenceRecord_only s r unit kind; rw [h]
@[simp] theorem fenceRecord_custody (r : FenceReq) (unit kind : Nat) : (fenceRecord s r unit kind).custody = s.custody := by obtain ⟨f, h⟩ := fenceRecord_only s r unit kind; rw [h]
@[simp] theorem fenceRecord_engines (r : FenceReq) (unit kind : Nat) : (fenceRecord s r unit kind).engines = s.engines := by obtain ⟨f, h⟩ := fenceRecord_only s r unit kind; rw [h]
@[simp] theorem fenceRecord_counters (r : FenceReq) (unit kind : Nat) : (fenceRecord s r unit kind).counters = s.counters := by obtain ⟨f, h⟩ := fenceRecord_only s r unit kind; rw [h]
@[simp] theorem fenceRecord_power (r : FenceReq) (unit kind : Nat) : (fenceRecord s r unit kind).power = s.power := by obtain ⟨f, h⟩ := fenceRecord_only s r unit kind; rw [h]
@[simp] theorem fenceRecord_irrix (r : FenceReq) (unit kind : Nat) : (fenceRecord s r unit kind).irrix = s.irrix := by obtain ⟨f, h⟩ := fenceRecord_only s r unit kind; rw [h]
@[simp] theorem fenceRecord_boot (r : FenceReq) (unit kind : Nat) : (fenceRecord s r unit kind).boot = s.boot := by obtain ⟨f, h⟩ := fenceRecord_only s r unit kind; rw [h]
@[simp] theorem fenceRecord_pins (r : FenceReq) (unit kind : Nat) : (fenceRecord s r unit kind).pins = s.pins := by obtain ⟨f, h⟩ := fenceRecord_only s r unit kind; rw [h]

/-- drawFree answers the counter, and moves it on. -/
@[simp] theorem drawFree_fst : (drawFree s).1 = s.free := rfl

@[simp] theorem drawFree_snd : (drawFree s).2 = { s with free := s.free + 1 } := rfl

@[simp] theorem setSeat_seats (q : Nat) (x : Seat) : (setSeat s q x).seats = smSet seatDefault s.seats q x := rfl

@[simp] theorem setCox_coxes (x : Nat) (c : Cox) : (setCox s x c).coxes = smSet coxDefault s.coxes x c := rfl

end Sys2Proof.Machine
end

