-- ==== Sys2Proof/Laws/Memory.lean ====
section
/-! SUPPORT. Laws of the storage operations: every one keeps the canonical form of memory, and what a write of sound case
reads back as. -/

namespace Sys2Proof.Machine

@[simp] theorem sendFrame_mem (s : State) (event : Bool) (f : OutFrame) : (sendFrame s event f).mem = s.mem := by
  unfold sendFrame
  simp only
  split
  · split
    · rfl
    · split <;> simp
  all_goals (try split) <;> simp

@[simp] theorem sendTagged_mem (s : State) (x : Session) (event : Bool) (ident : Nat) (body : List Octet) :
    (sendTagged s x event ident body).mem = s.mem := by simp [sendTagged]

@[simp] theorem sendEvent_mem (node : Nat) (entry : List Octet) (s : State) (x : Session) :
    (sendEvent node entry s x).mem = s.mem := by simp [sendEvent]

/-- A fold of steps that leave memory leaves memory. -/
theorem foldl_mem {α : Type} (f : State → α → State) (h : ∀ s x, (f s x).mem = s.mem) (s : State) (xs : List α) :
    (xs.foldl f s).mem = s.mem := by
  induction xs generalizing s with
  | nil => rfl
  | cons x xs ih => rw [List.foldl_cons, ih, h]

/-- Logging an event leaves memory (17 R492). -/
@[simp] theorem logEvent_mem (cls source : Nat) (s : State) : (logEvent cls source s).mem = s.mem :=
  foldl_mem _ (fun s x => sendEvent_mem _ _ s x) _ _

/-- The canonical form, table by table. -/
theorem Mem.wf_iff (m : Mem) : m.wf = true ↔ smWf 0 m.words = true ∧ smWf false m.tags = true ∧
    smWf false m.poison = true ∧ smWf 0 m.gen = true ∧ smWf 0 m.epoch = true ∧ smWf false m.stripePoison = true ∧
    smWf false m.genLost = true ∧ smWf 0 m.flips = true ∧ smWf 0 m.rot = true ∧ smWf false m.moved = true := by
  simp [Mem.wf, and_assoc]

/-! What an access meets in memory (10 R321, R322, R334). -/

/-- Memory that holds no unmet error gives an access nothing to meet. -/
theorem meetWords_sound {s : State} (hf : s.mem.flips = []) (hr : s.mem.rot = []) (as : List Nat) : meetWords s as = s := by
  simp [meetWords, hf, hr]

/-- Marking a row's error keeps the canonical form (10 R323). -/
theorem rowError_wf {s : State} (h : s.mem.wf = true) (row : Nat) : (rowError s row).mem.wf = true := by
  rw [Mem.wf_iff] at h
  unfold rowError
  simp only
  rw [Mem.wf_iff]
  exact h

/-- Reading a granule keeps the canonical form. -/
theorem meetCase_wf {s : State} (h : s.mem.wf = true) (g : Nat) : (meetCase s g).mem.wf = true := by
  have hk : ({ s.mem with flips := smSet 0 s.mem.flips g 0 } : Mem).wf = true := by
    rw [Mem.wf_iff] at h ⊢
    dsimp only
    exact ⟨h.1, h.2.1, h.2.2.1, h.2.2.2.1, h.2.2.2.2.1, h.2.2.2.2.2.1, h.2.2.2.2.2.2.1, smWf_smSet h.2.2.2.2.2.2.2.1 _ _,
      h.2.2.2.2.2.2.2.2⟩
  unfold meetCase
  dsimp only
  split
  · exact h
  · split
    · exact rowError_wf (s := { s with mem := { s.mem with flips := smSet 0 s.mem.flips g 0 } }) hk _
    · rw [logEvent_mem]
      rw [Mem.wf_iff] at hk ⊢
      dsimp only at hk ⊢
      obtain ⟨h1, h2, h3, h4, h5, h6, h7, h8, h9, h10⟩ := hk
      exact ⟨h1, h2, smWf_smSet h3 _ _, h4, h5, h6, h7, h8, h9, smWf_smSet h10 _ _⟩

/-- Poisoning a stripe keeps the canonical form. -/
theorem poisonStripe_wf {s : State} (h : s.mem.wf = true) (k : Nat) (lost : Bool) : (poisonStripe s k lost).mem.wf = true := by
  rw [Mem.wf_iff] at h
  unfold poisonStripe
  rw [logEvent_mem, Mem.wf_iff]
  dsimp only
  refine ⟨h.1, h.2.1, h.2.2.1, h.2.2.2.1, h.2.2.2.2.1, smWf_smSet h.2.2.2.2.2.1 _ _, ?_, h.2.2.2.2.2.2.2⟩
  split
  · exact smWf_smSet h.2.2.2.2.2.2.1 _ _
  · exact h.2.2.2.2.2.2.1

/-- Reading a stripe keeps the canonical form. -/
theorem meetStripe_wf {s : State} (h : s.mem.wf = true) (k : Nat) : (meetStripe s k).mem.wf = true := by
  have hk : ({ s.mem with rot := smSet 0 s.mem.rot k 0 } : Mem).wf = true := by
    rw [Mem.wf_iff] at h ⊢
    dsimp only
    exact ⟨h.1, h.2.1, h.2.2.1, h.2.2.2.1, h.2.2.2.2.1, h.2.2.2.2.2.1, h.2.2.2.2.2.2.1, h.2.2.2.2.2.2.2.1,
      smWf_smSet h.2.2.2.2.2.2.2.2.1 _ _, h.2.2.2.2.2.2.2.2.2⟩
  unfold meetStripe
  dsimp only
  split
  · exact h
  · split
    · rw [Mem.wf_iff] at hk ⊢
      dsimp only at hk ⊢
      exact hk
    · exact poisonStripe_wf (s := { s with mem := { s.mem with rot := smSet 0 s.mem.rot k 0 } }) hk _ _

/-- An access's reads keep the canonical form. -/
theorem meetAt_wf {s : State} (h : s.mem.wf = true) (a : Nat) : (meetAt s a).mem.wf = true := by
  unfold meetAt
  split
  · exact meetStripe_wf h _
  · split
    · exact meetCase_wf h _
    · exact h

theorem meetWords_wf {s : State} (h : s.mem.wf = true) (as : List Nat) : (meetWords s as).mem.wf = true := by
  unfold meetWords
  split
  · exact h
  · rename_i hn
    clear hn
    induction as generalizing s with
    | nil => exact h
    | cons a as ih => exact ih (meetAt_wf h a)

theorem meetSpan_wf {s : State} (h : s.mem.wf = true) (a n : Nat) : (meetSpan s a n).mem.wf = true := meetWords_wf h _

@[simp] theorem meetCase_words (s : State) (g : Nat) : (meetCase s g).mem.words = s.mem.words := by
  unfold meetCase
  dsimp only
  split
  · rfl
  · split
    · rfl
    · rw [logEvent_mem]

@[simp] theorem meetStripe_words (s : State) (k : Nat) : (meetStripe s k).mem.words = s.mem.words := by
  unfold meetStripe poisonStripe
  dsimp only
  split
  · rfl
  · split
    · rfl
    · rw [logEvent_mem]

/-- What an access meets changes no word. -/
@[simp] theorem meetWords_words (s : State) (as : List Nat) : (meetWords s as).mem.words = s.mem.words := by
  unfold meetWords
  split
  · rfl
  · rename_i hn
    clear hn
    induction as generalizing s with
    | nil => rfl
    | cons a as ih =>
      rw [List.foldl_cons, ih]
      unfold meetAt
      split
      · simp
      · split
        · simp
        · rfl

/-- A stripe's new generation keeps the canonical form (10 R331). -/
theorem stripeWrite_wf {m : Mem} (h : m.wf = true) (k : Nat) : (stripeWrite m k).wf = true := by
  rw [Mem.wf_iff] at h ⊢
  obtain ⟨h1, h2, h3, h4, h5, h6, h7, h8⟩ := h
  dsimp only [stripeWrite]
  exact ⟨h1, h2, h3, smWf_smSet h4 _ _, smWf_smSet h5 _ _, h6, smWf_smSet h7 _ _, h8⟩

@[simp] theorem stripeWrite_words (m : Mem) (k : Nat) : (stripeWrite m k).words = m.words := rfl

@[simp] theorem stripeWrite_tags (m : Mem) (k : Nat) : (stripeWrite m k).tags = m.tags := rfl

/-- Writing words and a tag keeps the canonical form. -/
theorem Mem.wf_put {m : Mem} (h : m.wf = true) (a g : Nat) (ws : List Word) (tag : Bool) :
    ({ m with words := smSetList 0 m.words a ws, tags := smSet false m.tags g tag } : Mem).wf = true := by
  rw [Mem.wf_iff] at h ⊢
  dsimp only
  exact ⟨smWf_smSetList h.1 _ _, smWf_smSet h.2.1 _ _, h.2.2⟩

/-- A write into one granule keeps the canonical form (10 R322, R335). -/
theorem storeWords_wf {s : State} (h : s.mem.wf = true) (a : Nat) (ws : List Word) (tag : Bool) :
    (storeWords s a ws tag).mem.wf = true := by
  unfold storeWords
  simp only
  split
  · split
    · rw [logEvent_mem]
      exact h
    · exact Mem.wf_put (stripeWrite_wf h _) _ _ _ _
  · split
    · rw [logEvent_mem]
      exact h
    · have hw := Mem.wf_put h a (a / 4) ws tag
      rw [Mem.wf_iff] at hw ⊢
      dsimp only at hw ⊢
      exact ⟨hw.1, hw.2.1, smWf_smSet hw.2.2.1 _ _, hw.2.2.2.1, hw.2.2.2.2.1, hw.2.2.2.2.2.1, hw.2.2.2.2.2.2.1,
        smWf_smSet hw.2.2.2.2.2.2.2.1 _ _, hw.2.2.2.2.2.2.2.2⟩

theorem putGranule_wf {s : State} (h : s.mem.wf = true) (a : Nat) (ws : List Word) (tag : Bool) :
    (putGranule s a ws tag).mem.wf = true := by
  unfold putGranule
  split
  · exact storeWords_wf h _ _ _
  · exact storeWords_wf (meetWords_wf h _) _ _ _

/-- A write of consecutive words keeps the canonical form. -/
theorem putRun_wf {s : State} (h : s.mem.wf = true) (a : Nat) (ws : List Word) : (putRun s a ws).mem.wf = true := by
  have key : ∀ (fuel : Nat) (s : State) (a : Nat) (ws : List Word), s.mem.wf = true →
      (putRunFuel fuel s a ws).mem.wf = true := by
    intro fuel
    induction fuel with
    | zero => intro s a ws h; exact h
    | succ n ih =>
      intro s a ws h
      cases ws with
      | nil => exact h
      | cons w ws => exact ih _ _ _ (putGranule_wf h _ _ _)
  exact key _ _ _ _ h

/-- A whole-stripe write keeps the canonical form (10 R331). -/
theorem putStripe_wf {s : State} (h : s.mem.wf = true) (a : Nat) (ws : List Word) : (putStripe s a ws).mem.wf = true := by
  have hm : (if smGet 0 s.mem.rot (stripeOf a) = 3 then meetStripe s (stripeOf a) else s).mem.wf = true := by
    split
    · exact meetStripe_wf h _
    · exact h
  have hw := stripeWrite_wf hm (stripeOf a)
  rw [Mem.wf_iff] at hw
  unfold putStripe
  simp only
  rw [Mem.wf_iff]
  dsimp only
  exact ⟨smWf_smSetList hw.1 _ _, smWf_smClear hw.2.1 _ _, hw.2.2.1, hw.2.2.2.1, hw.2.2.2.2.1,
    smWf_smSet hw.2.2.2.2.2.1 _ _, hw.2.2.2.2.2.2.1, hw.2.2.2.2.2.2.2.1, smWf_smSet hw.2.2.2.2.2.2.2.2.1 _ _,
    hw.2.2.2.2.2.2.2.2.2⟩

/-- A burst keeps the canonical form (10 R333). -/
theorem putBurst_wf {s : State} (h : s.mem.wf = true) (a : Nat) (ws : List Word) : (putBurst s a ws).mem.wf = true := by
  unfold putBurst
  split
  · exact putStripe_wf h a ws
  · exact putRun_wf h a ws

/-- Clearing a tag keeps the canonical form (13 R420). -/
theorem clearTag_wf {s : State} (h : s.mem.wf = true) (g : Nat) : (clearTag s g).mem.wf = true := by
  unfold clearTag
  simp only
  have hw : (if isBulk (4 * g) then stripeWrite (meetWords s [4 * g]).mem (stripeOf (4 * g))
      else (meetWords s [4 * g]).mem).wf = true := by
    split
    · exact stripeWrite_wf (meetWords_wf h _) _
    · exact meetWords_wf h _
  rw [Mem.wf_iff] at hw ⊢
  dsimp only at hw ⊢
  exact ⟨hw.1, smWf_smSet hw.2.1 _ _, hw.2.2⟩

/-- Zeroing a span keeps the canonical form (10 R326). -/
theorem zeroSpan_wf {s : State} (h : s.mem.wf = true) (a n : Nat) : (zeroSpan s a n).mem.wf = true := by
  rw [Mem.wf_iff] at h
  unfold zeroSpan
  simp only
  rw [Mem.wf_iff]
  dsimp only
  exact ⟨smWf_smClear h.1 _ _, smWf_smClear h.2.1 _ _, smWf_smClear h.2.2.1 _ _, h.2.2.2.1, h.2.2.2.2.1, h.2.2.2.2.2.1,
    h.2.2.2.2.2.2.1, smWf_smClear h.2.2.2.2.2.2.2.1 _ _, h.2.2.2.2.2.2.2.2⟩

/-- What a write into a granule of sound case makes of memory: words, tag and no poison (02 R37, 10 R322). -/
theorem storeWords_case {s : State} {a : Nat} {ws : List Word} {tag : Bool} (hb : isBulk a = false)
    (hp : poisonedAt s.mem a = false) :
    storeWords s a ws tag = { s with mem := { s.mem with
      words := smSetList 0 s.mem.words a ws, tags := smSet false s.mem.tags (a / 4) tag,
      poison := smSet false s.mem.poison (a / 4) false, flips := smSet 0 s.mem.flips (a / 4) 0 } } := by
  unfold storeWords
  simp [hb, hp]

/-- A write leaves every word outside it. -/
theorem memWord_storeWords_outside {s : State} {a b : Nat} {ws : List Word} {tag : Bool} (h : b < a ∨ a + ws.length ≤ b) :
    memWord (storeWords s a ws tag).mem b = memWord s.mem b := by
  unfold storeWords
  simp only
  split <;> split
  · rw [logEvent_mem]; rfl
  · exact smGet_smSetList_outside _ _ _ _ h
  · rw [logEvent_mem]; rfl
  · exact smGet_smSetList_outside _ _ _ _ h

/-- Whether an access has met a granule's error already or meets it now, the granule is poisoned alike (10 R322). -/
theorem poisonedAt_meet_self {s : State} {a : Nat} (hb : isBulk a = false) (hp : poisonedAt s.mem a = false) :
    poisonedAt (meetWords s [a]).mem a = false := by
  simp only [poisonedAt, hb, Bool.or_eq_false_iff, decide_eq_false_iff_not, Bool.false_eq_true, if_false] at hp ⊢
  unfold meetWords meetAt
  split
  · exact hp
  · simp only [List.foldl_cons, List.foldl_nil, hb, Bool.false_eq_true, if_false]
    split
    · unfold meetCase
      dsimp only
      split
      · exact hp
      · split
        · exact ⟨hp.1, by simp [rowError]⟩
        · omega
    · exact hp

/-- A word written into sound case reads back. -/
theorem memWord_putGranule_inside {s : State} {a : Nat} {ws : List Word} {tag : Bool} (hb : isBulk a = false)
    (hp : poisonedAt s.mem a = false) {i : Nat} (h : i < ws.length) :
    memWord (putGranule s a ws tag).mem (a + i) = ws[i] := by
  unfold putGranule
  split
  · rw [storeWords_case hb hp]
    exact smGet_smSetList_inside _ _ _ _ h
  · rw [storeWords_case hb (poisonedAt_meet_self hb hp)]
    exact smGet_smSetList_inside _ _ _ _ h

/-- A write into a granule leaves every other word. -/
theorem memWord_putGranule_outside {s : State} {a b : Nat} {ws : List Word} {tag : Bool} (h : b < a ∨ a + ws.length ≤ b) :
    memWord (putGranule s a ws tag).mem b = memWord s.mem b := by
  unfold putGranule
  rw [memWord_storeWords_outside h]
  split
  · rfl
  · simp [memWord]

/-! What a seat sees of case and bulk through its stick, and what it writes (06 R208, R209). -/

@[simp] theorem markStale_mem (s : State) (q a n : Nat) : (markStale s q a n).mem = s.mem := modSeat_mem ..

@[simp] theorem stickPut_mem (s : State) (q a : Nat) (ws : List Word) (tag : Bool) : (stickPut s q a ws tag).mem = s.mem :=
  modSeat_mem ..

theorem viewMeets_wf {s : State} (h : s.mem.wf = true) (q : Option Nat) (as : List Nat) :
    (viewMeets s q as).mem.wf = true := meetWords_wf h _

theorem viewPut_wf {s : State} (h : s.mem.wf = true) (q a : Nat) (ws : List Word) (tag : Bool) :
    (viewPut s q a ws tag).mem.wf = true := by
  unfold viewPut
  dsimp only
  split
  · simpa using h
  · exact putGranule_wf (by simpa using h) _ _ _

theorem viewPutRun_wf {s : State} (h : s.mem.wf = true) (q a : Nat) (ws : List Word) :
    (viewPutRun s q a ws).mem.wf = true := by
  unfold viewPutRun
  generalize List.range ((ws.length + 3) / 4) = is
  induction is generalizing s with
  | nil => exact h
  | cons i is ih => exact ih (viewPut_wf h _ _ _ _)

/-! Looking at counters leaves memory (15 R437, R438). -/

@[simp] theorem counterSettle_mem (s : State) (k : Nat) : (counterSettle s k).mem = s.mem := by
  unfold counterSettle
  split <;> rfl

@[simp] theorem settleSeat_mem (s : State) (q : Nat) : (settleSeat s q).mem = s.mem := by
  unfold settleSeat
  exact foldl_mem _ counterSettle_mem _ _

@[simp] theorem settleUnit_mem (s : State) (u : Nat) : (settleUnit s u).mem = s.mem := by
  unfold settleUnit
  exact foldl_mem _ counterSettle_mem _ _

@[simp] theorem settleAll_mem (s : State) : (settleAll s).mem = s.mem := by
  unfold settleAll
  generalize unitCodes = us
  generalize List.range 11 = xs
  generalize List.range 72 = qs
  exact (foldl_mem _ settleUnit_mem _ us).trans
    ((foldl_mem _ (fun _ _ => counterSettle_mem _ _) _ xs).trans (foldl_mem _ settleSeat_mem s qs))

@[simp] theorem counterSpan_mem (s : State) (a n : Nat) : (counterSpan s a n).mem = s.mem := by
  unfold counterSpan
  dsimp only
  split
  · exact foldl_mem _ counterSettle_mem _ _
  · rfl

end Sys2Proof.Machine
end

