-- ==== Sys2Proof/Laws/Lanes.lean ====
section
/-! SUPPORT. Laws of the lane unit: what its queues leave alone, and that every put and take keeps memory in canonical
form. -/

namespace Sys2Proof.Machine

@[simp] theorem coxWake_mem (s : State) (x : Nat) : (coxWake s x).mem = s.mem := by
  unfold coxWake
  split <;> rfl

@[simp] theorem postRise_mem (x : Seat) (s : State) (q : Nat) : (postRise x s q).mem = s.mem := by
  unfold postRise
  split <;> simp

@[simp] theorem sideNote_mem (x : Seat) (s : State) (q : Nat) : (sideNote x s q).mem = s.mem := by
  unfold sideNote
  split <;> simp

@[simp] theorem modSeatR_mem (s : State) (q : Nat) (f : Seat → Seat) : (modSeatR s q f).mem = s.mem := by simp [modSeatR]

@[simp] theorem freeBank_mem (s : State) (q b : Nat) : (freeBank s q b).mem = s.mem := by simp [freeBank]

@[simp] theorem selectBank_mem (s : State) (q : Nat) : (selectBank s q).mem = s.mem := by
  unfold selectBank
  simp only
  split
  · split
    · split <;> simp
    · rfl
  · rfl

@[simp] theorem unready_mem (s : State) (l : Nat) : (unready s l).mem = s.mem := rfl

@[simp] theorem offQueue_mem (s : State) (l : Nat) : (offQueue s l).mem = s.mem := by
  unfold offQueue
  split <;> rfl

@[simp] theorem pushReady_mem (s : State) (home pend : Nat) (e : LaneNo × Bool) : (pushReady s home pend e).mem = s.mem := by
  unfold pushReady
  simp only
  split <;> simp

@[simp] theorem pendRise_mem (s0 s : State) (l : Nat) : (pendRise s0 s l).mem = s.mem := by
  unfold pendRise
  split
  · rfl
  · split <;> simp

@[simp] theorem readyLane_mem (s : State) (l : Nat) : (readyLane s l).mem = s.mem := by
  unfold readyLane
  split
  · rfl
  · split
    · rfl
    · simp

@[simp] theorem wakeStowed_mem (s : State) (a : Nat) : (wakeStowed s a).mem = s.mem := by
  unfold wakeStowed
  split
  · rfl
  · simp only
    split
    · rfl
    · simp

@[simp] theorem wakeBank_mem (s : State) (q b : Nat) (aborted : Bool) : (wakeBank s q b aborted).mem = s.mem := by
  simp [wakeBank]

@[simp] theorem gapCount_mem (s : State) (l : Nat) : (gapCount s l).mem = s.mem := counterAdd_mem ..

@[simp] theorem faultLane_mem (s : State) (l : Nat) : (faultLane s l).mem = s.mem := by simp [faultLane]

/-- Writing a lane's state keeps the canonical form (09 R282). -/
theorem setLane_wf {s : State} (h : s.mem.wf = true) (l : Nat) (x : LaneSt) : (setLane s l x).mem.wf = true :=
  putGranule_wf h _ _ _

theorem setDeadline_wf {s : State} (h : s.mem.wf = true) (l d : Nat) : (setDeadline s l d).mem.wf = true :=
  putGranule_wf h _ _ _

/-- A fold of steps that keep the canonical form keeps it. -/
theorem foldl_wf {α : Type} (f : State → α → State) (h : ∀ s x, s.mem.wf = true → (f s x).mem.wf = true) {s : State}
    (xs : List α) (hs : s.mem.wf = true) : (xs.foldl f s).mem.wf = true := by
  induction xs generalizing s with
  | nil => exact hs
  | cons x xs ih => exact ih (h _ _ hs)

@[simp] theorem abortWaits_mem (s : State) (l : Nat) : (abortWaits s l).mem = s.mem := by
  unfold abortWaits
  exact foldl_mem _ (fun s _ => modSeat_mem s _ _) s _

@[simp] theorem wakeAll_mem (s : State) (l : Nat) (aborted : Bool) : (wakeAll s l aborted).mem = s.mem := by
  unfold wakeAll
  rw [foldl_mem _ fun s e => wakeStowed_mem s _]
  split
  · rw [abortWaits_mem, foldl_mem _ fun s qb => wakeBank_mem s _ _ _]
  · rw [foldl_mem _ fun s qb => wakeBank_mem s _ _ _]

/-- An event on a lane keeps the canonical form (08 R249, R256, R261). -/
theorem laneEvent_wf {s : State} (h : s.mem.wf = true) (l : Nat) (aborted : Bool) : (laneEvent s l aborted).mem.wf = true := by
  unfold laneEvent
  split
  · rw [wakeAll_mem]
    exact h
  · split
    · split
      · exact h
      · rw [readyLane_mem]
        exact h
    · rw [wakeAll_mem]
      exact setLane_wf h _ _

theorem writeSlots_wf (k l : Nat) {s : State} (h : s.mem.wf = true) (fuel p : Nat) (ws : List Word) (ts : List Bool) :
    (writeSlots k l fuel s p ws ts).mem.wf = true := by
  induction fuel generalizing s p ws ts with
  | zero => exact h
  | succ n ih =>
    cases ws with
    | nil => exact h
    | cons w ws =>
      unfold writeSlots
      refine ih (foldl_wf _ (fun s i hs => ?_) _ h) _ _ _
      simp only
      split
      · exact hs
      · exact putGranule_wf hs _ _ _

theorem writeRecords_wf {s : State} (h : s.mem.wf = true) (k l p n slots sq chk : Nat) :
    (writeRecords s k l p n slots sq chk).mem.wf = true :=
  foldl_wf _ (fun _ _ hs => putGranule_wf hs _ _ _) _ h

theorem clearRecords_wf {s : State} (h : s.mem.wf = true) (k l p slots : Nat) :
    (clearRecords s k l p slots).mem.wf = true :=
  foldl_wf _ (fun _ _ hs => putGranule_wf hs _ _ _) _ h

/-- What the lane unit meets as HEAD passes broken messages keeps the canonical form (10 R321, R322). -/
theorem meetSkip_wf (k l fuel : Nat) {s : State} (h : s.mem.wf = true) (x : LaneSt) :
    (meetSkip k l fuel s x).mem.wf = true := by
  induction fuel generalizing s x with
  | zero => exact h
  | succ n ih =>
    unfold meetSkip
    dsimp only
    split
    · exact h
    · split
      · exact meetWords_wf h _
      · exact ih (meetWords_wf h _) _

theorem settleLane_wf {s : State} (h : s.mem.wf = true) (k l : Nat) (x : LaneSt) : (settleLane s k l x).mem.wf = true :=
  setLane_wf (meetSkip_wf _ _ _ h _) _ _

theorem noticeVia_wf {put : State → Nat → List Word → Nat × State}
    (hp : ∀ s l ws, s.mem.wf = true → (put s l ws).2.mem.wf = true) {s : State} (h : s.mem.wf = true) (l : Nat) (x : Notice) :
    (noticeVia put s l x).mem.wf = true := by
  unfold noticeVia
  split
  · exact h
  · simp only
    split
    · simpa using h
    · split
      · simpa using h
      · split
        · exact hp _ _ _ h
        · simpa using hp _ _ _ h

/-- A refused request records a fault and leaves memory (11 R362). -/
theorem fenceUnit_error_mem {s t : State} {r : FenceReq} {u : Nat} (h : fenceUnit s r u = .error t) : t.mem = s.mem := by
  unfold fenceUnit at h
  split at h
  · simp at h
  · cases h
    simp

theorem descCheck_error_mem {s t : State} {l g dir : Nat} (h : descCheck s l g dir = .error t) : t.mem = s.mem := by
  unfold descCheck at h
  split at h
  · rename_i h1
    cases h
    exact fenceUnit_error_mem h1
  · simp at h

theorem descAdmits_error_mem {s t : State} {l g : Nat} (h : descAdmits s l g = .error t) : t.mem = s.mem := by
  unfold descAdmits at h
  split at h
  · rename_i h1
    cases h
    exact descCheck_error_mem h1
  · exact descCheck_error_mem h

theorem ringAdmits_error_mem {s t : State} {k l : Nat} (h : ringAdmits s k l = .error t) : t.mem = s.mem := by
  unfold ringAdmits at h
  split at h
  · rename_i h1
    cases h
    exact fenceUnit_error_mem h1
  · split at h
    · rename_i h1
      cases h
      exact fenceUnit_error_mem h1
    · simp at h

theorem deliver_wf {faulted : State → State} (hf : ∀ s, s.mem.wf = true → (faulted s).mem.wf = true) {s : State}
    (h : s.mem.wf = true) (l : Nat) (x : LaneSt) : (deliver faulted s l x).mem.wf = true := by
  have done : ∀ {t : State}, t.mem.wf = true → (pendRise s (laneEvent t l false) l).mem.wf = true := by
    intro t ht
    rw [pendRise_mem]
    exact laneEvent_wf ht _ _
  have refused : ∀ {u t : State} {dir : Nat}, u.mem.wf = true → descCheck u l 3 dir = .error t →
      (faulted (pendRise s (laneEvent (setLane t l x) l false) l)).mem.wf = true := by
    intro u t dir hu ht
    refine hf _ (done (setLane_wf ?_ _ _))
    rw [descCheck_error_mem ht]
    exact hu
  unfold deliver
  dsimp only
  by_cases ha : x.armed = true
  · rw [if_neg (by simp [ha])]
    cases hd : descCheck s l 3 0 with
    | error t => exact refused h hd
    | ok _ =>
      have hm := meetWords_wf h [descAddr s l + 12]
      dsimp only
      generalize meetWords s [descAddr s l + 12] = u at hm ⊢
      split
      · cases hw : descCheck u l 3 1 with
        | error t => exact refused hm hw
        | ok _ => exact done (setDeadline_wf (setLane_wf hm _ _) _ _)
      · exact done (setLane_wf hm _ _)
  · rw [if_pos (by simp [ha])]
    exact done (setLane_wf h _ _)

/-- Every put keeps the canonical form (09 R285, R286, R289). -/
theorem putF_wf (fuel : Nat) (mode : PutMode) {s : State} (h : s.mem.wf = true) (l : Nat) (ws : List Word) (ts : List Bool) :
    (putF fuel mode s l ws ts).2.mem.wf = true := by
  induction fuel generalizing mode s l ws ts with
  | zero => exact h
  | succ n ih =>
    have hn : ∀ {s : State}, s.mem.wf = true → ∀ l x,
        (noticeVia (fun s l ws => putF n .normal s l ws []) s l x).mem.wf = true :=
      fun hs l x => noticeVia_wf (fun _ _ _ h => ih _ h _ _ _) hs l x
    have hq : ∀ {s t : State} {dir : Nat}, s.mem.wf = true → descCheck s l 1 dir = .error t →
        (noticeVia (fun s l ws => putF n .normal s l ws []) (faultLane t l) l { status := stFence }).mem.wf = true := by
      intro s t dir h ht
      refine hn ?_ _ _
      rw [faultLane_mem, descCheck_error_mem ht]
      exact h
    unfold putF
    dsimp only
    cases classOf s l with
    | none => exact h
    | some k =>
    dsimp only
    cases hd : descCheck s l 1 0 with
    | error t => exact hq h hd
    | ok _ =>
    have hm := meetWords_wf h [descAddr s l + 4]
    dsimp only
    generalize meetWords s [descAddr s l + 4] = s at hm ⊢
    clear h
    have h := hm
    split
    · exact h
    generalize (if mode = PutMode.force then _ else _) = st
    split
    · dsimp only
      split <;> simpa using h
    cases hw : descCheck s l 1 1 with
    | error t => exact hq h hw
    | ok _ =>
    dsimp only
    cases hr : ringAdmits s k l with
    | error t =>
      refine hn (setLane_wf ?_ _ _) _ _
      rw [ringAdmits_error_mem hr]
      exact h
    | ok _ =>
    dsimp only
    have hc : ∀ k, (classCount (countAdmission s k) k 0).mem.wf = true := fun k => by simpa using h
    cases mode with
    | broken bst =>
      dsimp only
      rw [classCount_mem]
      apply hn
      apply settleLane_wf
      apply clearRecords_wf
      exact hc _
    | _ =>
      dsimp only
      split
      · dsimp only
        rw [classCount_mem]
        apply hn
        apply settleLane_wf
        apply clearRecords_wf
        apply writeSlots_wf
        exact hc _
      · dsimp only
        apply deliver_wf
        · intro t ht
          apply hn
          rw [faultLane_mem]
          exact ht
        rw [laneCount_mem]
        apply writeRecords_wf
        apply writeSlots_wf
        exact hc _

theorem putLane_wf {s : State} (h : s.mem.wf = true) (l : Nat) (ws : List Word) : (putLane s l ws).2.mem.wf = true :=
  putF_wf _ _ h _ _ _

theorem putForce_wf {s : State} (h : s.mem.wf = true) (l : Nat) (ws : List Word) : (putForce s l ws).2.mem.wf = true :=
  putF_wf _ _ h _ _ _

theorem putLaneTags_wf {s : State} (h : s.mem.wf = true) (l : Nat) (ws : List Word) (ts : List Bool) :
    (putLaneTags s l ws ts).2.mem.wf = true := putF_wf _ _ h _ _ _

theorem putBroken_wf {s : State} (h : s.mem.wf = true) (l : Nat) (ws : List Word) (st : Nat) :
    (putBroken s l ws st).2.mem.wf = true := putF_wf _ _ h _ _ _

theorem notice_wf {s : State} (h : s.mem.wf = true) (l : Nat) (x : Notice) : (notice s l x).mem.wf = true :=
  noticeVia_wf (fun _ _ _ h => putLane_wf h _ _) h l x

/-- An access of the lane unit to a descriptor keeps the canonical form, admitted or refused (09 R280, R551). -/
theorem laneTouch_wf {s : State} (h : s.mem.wf = true) (l g dir : Nat) : (laneTouch s l g dir).2.mem.wf = true := by
  unfold laneTouch
  cases hd : descCheck s l g dir with
  | ok _ =>
    dsimp only
    split
    · exact meetWords_wf h _
    · exact h
  | error t =>
    refine notice_wf ?_ _ _
    rw [faultLane_mem, descCheck_error_mem hd]
    exact h

theorem laneReach_wf {s : State} (h : s.mem.wf = true) (l g : Nat) : (laneReach s l g).2.mem.wf = true := laneTouch_wf h ..

theorem reachAll_wf {s : State} (h : s.mem.wf = true) (l : Nat) (gs : List (Nat × Nat)) :
    (reachAll s l gs).2.mem.wf = true := by
  unfold reachAll
  suffices hg : ∀ (r : Bool × State), r.2.mem.wf = true →
      (gs.foldl (fun r g => if r.1 then laneTouch r.2 l g.1 g.2 else r) r).2.mem.wf = true from hg (true, s) h
  induction gs with
  | nil => exact fun r hr => hr
  | cons g gs ih =>
    intro r hr
    rw [List.foldl_cons]
    apply ih
    split
    · exact laneTouch_wf hr ..
    · exact hr

theorem laneStore_wf {s : State} (h : s.mem.wf = true) (l : Nat) (x : LaneSt) : (laneStore s l x).mem.wf = true := by
  unfold laneStore
  have ht := laneTouch_wf h l 1 1
  split <;> rename_i he <;> rw [he] at ht
  · exact setLane_wf ht _ _
  · exact ht

theorem meetMsg_wf {s : State} (h : s.mem.wf = true) (k l p : Nat) : (meetMsg s k l p).mem.wf = true :=
  meetWords_wf (meetWords_wf h _) _

theorem eventMessage_wf {s : State} (h : s.mem.wf = true) (kind : Nat) (data : List Nat) :
    (eventMessage s kind data).mem.wf = true := by
  unfold eventMessage
  simp only
  split
  · exact h
  · split
    · exact putLane_wf h _ _
    · exact h

theorem divertNotice_wf {s : State} (h : s.mem.wf = true) (l : Nat) (m : Msg) (st : Nat) :
    (divertNotice s l m st).mem.wf = true := by
  unfold divertNotice
  refine notice_wf ?_ _ _
  rw [laneCount_mem]
  exact h

theorem divert_wf {s : State} (h : s.mem.wf = true) (k l : Nat) (x : LaneSt) (m : Msg) (st : Nat) :
    (divert s k l x m st).mem.wf = true := by
  unfold divert
  refine divertNotice_wf ?_ _ _ _
  rw [offQueue_mem]
  exact laneStore_wf (meetSkip_wf _ _ _ h _) _ _

theorem ringReach_wf {s t : State} (h : s.mem.wf = true) {k l dir : Nat} {x : LaneSt}
    (hr : ringReach s k l x dir = .error t) : t.mem.wf = true := by
  unfold ringReach at hr
  split at hr
  · rename_i hu
    cases hr
    refine notice_wf (laneStore_wf ?_ _ _) _ _
    rw [fenceUnit_error_mem hu]
    exact h
  · cases hr

/-- Looking for the message at HEAD keeps the canonical form (09 R294, R552). -/
theorem headMsg_wf (k l fuel : Nat) {s : State} (h : s.mem.wf = true) : (headMsg k l fuel s).2.mem.wf = true := by
  induction fuel generalizing s with
  | zero => exact h
  | succ n ih =>
    unfold headMsg
    dsimp only
    split
    · exact h
    cases hr : ringReach s k l (laneSt s l) 0 with
    | error t => exact ringReach_wf h hr
    | ok _ =>
    dsimp only
    have hk := meetSkip_wf k l 8192 h (laneSt s l)
    generalize meetSkip k l 8192 s (laneSt s l) = u at hk ⊢
    generalize skipBroken u k l 8192 (laneSt s l) = x
    have hx : (if x = laneSt s l then u else offQueue (laneStore u l x) l).mem.wf = true := by
      split
      · exact hk
      · rw [offQueue_mem]
        exact laneStore_wf hk _ _
    generalize (if x = laneSt s l then u else offQueue (laneStore u l x) l) = s' at hx ⊢
    split
    · exact hx
    have hm := meetMsg_wf hx k l x.head
    split
    · exact hm
    · exact ih (divert_wf hm ..)

/-- Looking behind HEAD keeps it too (08 R266). -/
theorem msgBehind_wf (k l fuel : Nat) {s : State} (h : s.mem.wf = true) (p : Nat) :
    (msgBehind k l fuel s p).2.mem.wf = true := by
  induction fuel generalizing s p with
  | zero => exact h
  | succ n ih =>
    unfold msgBehind
    dsimp only
    split
    · exact headMsg_wf _ _ _ h
    split
    · exact h
    cases hr : ringReach s k l (laneSt s l) 0 with
    | error t => exact ringReach_wf h hr
    | ok _ =>
    dsimp only
    split
    · exact ih h _
    have hm := meetMsg_wf h k l p
    split
    · exact hm
    cases hw : ringReach (meetMsg s k l p) k l (laneSt s l) 1 with
    | error t => exact ringReach_wf hm hw
    | ok _ => exact ih (divertNotice_wf (clearRecords_wf hm ..) ..) _

theorem laneHead_wf {s : State} (h : s.mem.wf = true) (l : Nat) : (laneHead s l).2.mem.wf = true := by
  unfold laneHead
  split
  · exact h
  · rename_i k _
    have hm := headMsg_wf k l 8192 h
    split <;> rename_i he <;> rw [he] at hm
    · exact hm
    · rename_i s' _
      have ht := laneTouch_wf hm l 1 1
      split <;> rename_i hf <;> rw [hf] at ht <;> exact ht

/-- A take keeps the canonical form (09 R291, R295). -/
theorem takeMsg_wf {s : State} (h : s.mem.wf = true) (l : Nat) (m : Msg) (give : Bool) :
    (takeMsg s l m give).mem.wf = true := by
  unfold takeMsg
  split
  · exact h
  · simp only
    rw [laneCount_mem, offQueue_mem]
    refine settleLane_wf ?_ _ _ _
    split
    · exact h
    · rw [gapCount_mem]
      exact h

@[simp] theorem noteServed_mem (s : State) (u l k : Nat) : (noteServed s u l k).mem = s.mem := rfl

theorem unitHead_wf {s : State} (h : s.mem.wf = true) (u l : Nat) : (unitHead s u l).2.mem.wf = true := by
  unfold unitHead
  split
  · exact h
  · split
    · have hr := laneReach_wf h l 1
      split <;> rename_i hh <;> rw [hh] at hr
      · exact hr
      · split
        · have hl := laneHead_wf hr l
          split <;> rename_i he <;> rw [he] at hl
          · exact hl
          · exact hl
        · exact hr
    · exact h

theorem hwTake_wf {s : State} (h : s.mem.wf = true) (u l : Nat) : (hwTake s u l).2.mem.wf = true := by
  unfold hwTake
  have hu := unitHead_wf h u l
  split <;> rename_i hh <;> rw [hh] at hu
  · exact hu
  · dsimp only
    split
    · simpa using hu
    · refine takeMsg_wf ?_ _ _ _
      rw [unitCount_mem]
      simpa using hu

theorem putOrHold_wf {s : State} (h : s.mem.wf = true) (u : Nat) (ch : Option Nat) (req : Option LaneNo) (l : Nat)
    (ws : List Word) : (putOrHold s u ch req l ws).2.mem.wf = true := by
  unfold putOrHold
  simp only
  have hl := putLane_wf h l ws
  split
  · dsimp only
    rw [unitCount_mem]
    exact hl
  · exact hl

theorem rejoinLane_wf {s : State} (h : s.mem.wf = true) (l : Nat) : (rejoinLane s l).mem.wf = true := by
  unfold rejoinLane
  simp only
  split
  · rw [readyLane_mem]
    exact h
  · exact h

end Sys2Proof.Machine
end

