-- ==== Sys2Proof/Laws/Acts.lean ====
section
/-! SUPPORT. Laws of activations, traps and checked accesses: every one keeps memory in canonical form, and what does not
touch memory says so. -/

namespace Sys2Proof.Machine

/-! The unit registers of system space hold no memory. -/

@[simp] theorem ignoreWrite_words (s : State) : (ignoreWrite s).mem.words = s.mem.words := rfl

theorem ignoreWrite_wf {s : State} (h : s.mem.wf = true) : (ignoreWrite s).mem.wf = true := by
  rw [Mem.wf_iff] at h
  unfold ignoreWrite
  rw [Mem.wf_iff]
  exact h

@[simp] theorem bellWrite_mem (s : State) (ch : Nat) (w : Word) : (bellWrite s ch w).mem = s.mem := by
  unfold bellWrite
  simp only
  split <;> simp

@[simp] theorem galleyWrite_mem (s : State) (who : Who) (o : Nat) (w : Word) : (galleyWrite s who o w).mem = s.mem := by
  unfold galleyWrite
  simp only
  repeat' split
  all_goals simp

@[simp] theorem fenceBlockWrite_mem (s : State) (a : Nat) (w : Word) : (fenceBlockWrite s a w).mem = s.mem := by
  unfold fenceBlockWrite
  simp only
  split
  · rfl
  · split <;> rfl

@[simp] theorem mailboxWrite_mem (s : State) (i : Nat) (w : Word) : (mailboxWrite s i w).mem = s.mem := by
  unfold mailboxWrite
  split
  · rfl
  · split <;> rfl

@[simp] theorem gpWrite_mem (s : State) (who : Who) (i : Nat) (w : Word) : (gpWrite s who i w).mem = s.mem := by
  unfold gpWrite
  split
  · rfl
  · split <;> rfl

/-- A write of a system-space word keeps the canonical form. -/
theorem unitWrite_wf {s : State} (h : s.mem.wf = true) (who : Who) (a : Nat) (w : Word) :
    (unitWrite s who a w).mem.wf = true := by
  unfold unitWrite
  split
  · rw [fenceBlockWrite_mem]
    exact h
  split
  · rw [galleyWrite_mem]
    exact h
  split
  · split
    · rw [mailboxWrite_mem]
      exact h
    · exact h
  split
  · exact ignoreWrite_wf h
  split
  · rw [gpWrite_mem]
    exact h
  split
  · exact ignoreWrite_wf h
  · exact h

theorem unitWrites_wf {s : State} (h : s.mem.wf = true) (who : Who) (a : Nat) (ws : List Word) :
    (unitWrites s who a ws).mem.wf = true := by
  induction ws generalizing s a with
  | nil => exact h
  | cons w ws ih => exact ih (unitWrite_wf h _ _ _) _

theorem hostPutWord_wf {s : State} (h : s.mem.wf = true) (a : Nat) (w : Word) : (hostPutWord s a w).mem.wf = true := by
  unfold hostPutWord
  split
  · exact ignoreWrite_wf h
  · dsimp only
    split
    · rw [logEvent_mem]
      exact h
    · exact h

theorem hostPutWords_wf {s : State} (h : s.mem.wf = true) (a : Nat) (ws : List Word) :
    (hostPutWords s a ws).mem.wf = true := by
  induction ws generalizing s a with
  | nil => exact h
  | cons w ws ih => exact ih (hostPutWord_wf h _ _) _

/-- A physical write keeps the canonical form (02 R37). -/
theorem physWrite_wf {s : State} (h : s.mem.wf = true) (who : Who) (a : Nat) (ws : List Word) :
    (physWrite s who a ws).mem.wf = true := by
  unfold physWrite
  split
  · exact unitWrites_wf h _ _ _
  · split
    · exact hostPutWords_wf h _ _
    · exact putRun_wf h _ _

/-! Activations end, are stowed and restored. -/

theorem ite_wf {c : Prop} [Decidable c] {a b : State} (ha : a.mem.wf = true) (hb : b.mem.wf = true) :
    (if c then a else b).mem.wf = true := by
  split
  · exact ha
  · exact hb

theorem laneEnded_wf {s : State} (h : s.mem.wf = true) (l : Nat) : (laneEnded s l).mem.wf = true := by
  have hr := laneReach_wf h l 1
  unfold laneEnded
  dsimp only
  generalize laneReach s l 1 = r at hr ⊢
  split
  · exact hr
  · split
    · exact laneStore_wf hr _ _
    · exact rejoinLane_wf hr _

theorem clearWait_wf {s : State} (h : s.mem.wf = true) (l : Nat) : (clearWait s l).mem.wf = true := by
  have hr := laneReach_wf h l 1
  unfold clearWait
  dsimp only
  generalize laneReach s l 1 = r at hr ⊢
  split
  · exact laneStore_wf hr _ _
  · exact hr

@[simp] theorem postAfterStow_mem (s : State) (q : Nat) (j : StowJob) : (postAfterStow s q j).mem = s.mem := by
  unfold postAfterStow
  dsimp only
  split
  · rw [freeBank_mem, modSeatR_mem]
  · rw [modSeatR_mem]

/-- The end of an activation keeps the canonical form (05 R165, 08 R256). -/
theorem endBank_wf {s : State} (h : s.mem.wf = true) (q b st : Nat) : (endBank s q b st).mem.wf = true := by
  unfold endBank
  dsimp only
  split
  · exact h
  · rw [selectBank_mem]
    apply laneEnded_wf
    have hc : (if ((getBank (getSeat s q) b).st = .blocked ∨ (getBank (getSeat s q) b).st = .stowing) ∧
        (!(getBank (getSeat s q) b).abortTake) = true then
        clearWait s (getBank (getSeat s q) b).waitLane.toNat else s).mem.wf = true := by
      split
      · exact clearWait_wf h _
      · exact h
    generalize (if ((getBank (getSeat s q) b).st = .blocked ∨ (getBank (getSeat s q) b).st = .stowing) ∧
        (!(getBank (getSeat s q) b).abortTake) = true then _ else s) = u at hc ⊢
    have hn : (if st = 0 then u else notice u (getBank (getSeat s q) b).lane.toNat
        (endNotice st q (getBank (getSeat s q) b).lastMsg)).mem.wf = true := by
      split
      · exact hc
      · exact notice_wf hc _ _
    generalize (if st = 0 then u else _) = v at hn ⊢
    split
    · split
      · rw [postAfterStow_mem, freeBank_mem, modSeatR_mem]
        exact hn
      · split
        · rw [modSeatR_mem, freeBank_mem, modSeatR_mem]
          exact hn
        · rw [freeBank_mem, modSeatR_mem]
          exact hn
    · rw [freeBank_mem, modSeatR_mem]
      exact hn

theorem endStowed_wf {s : State} (h : s.mem.wf = true) (e : Stowed) (st : Nat) : (endStowed s e st).mem.wf = true := by
  unfold endStowed
  dsimp only
  apply laneEnded_wf
  have hc : ∀ {u : State}, u.mem.wf = true → (if e.aborted then u else clearWait u e.waitLane.toNat).mem.wf = true :=
    fun hu => ite_wf hu (clearWait_wf hu _)
  have hf : ∀ (drop : Cox → Cox) (u : State), u.mem.wf = true →
      ((List.range 11).foldl (fun s x => modCox s x drop) u).mem.wf = true := by
    intro drop u hu
    rw [foldl_mem _ fun s x => modCox_mem s x _]
    exact hu
  split
  · refine hc (hf _ _ ?_)
    exact h
  · refine notice_wf (hc (hf _ _ ?_)) _ _
    exact h

/-- A stow keeps the canonical form (08 R258 to R260). -/
theorem stowBank_wf {s t : State} (h : s.mem.wf = true) {q b : Nat} (hs : stowBank s q b = .ok t) : t.mem.wf = true := by
  unfold stowBank at hs
  simp only at hs
  split at hs
  · simp at hs
  · simp only [Except.ok.injEq] at hs
    subst hs
    split
    all_goals
      try rw [modSeat_mem]
      apply viewPutRun_wf
      exact foldl_wf _ (fun s i hs => viewPut_wf hs _ _ _ _) _ h

/-- A restore keeps the canonical form (08 R261). -/
theorem restoreBank_wf {s t : State} (h : s.mem.wf = true) {q b l since : Nat} {last : Option (Nat × Nat)} {old : Bool}
    (hs : restoreBank s q b l since last old = .ok t) : t.mem.wf = true := by
  unfold restoreBank at hs
  simp only at hs
  repeat' split at hs
  all_goals
    cases hs
    try rw [modSeatR_mem]
    try exact viewPut_wf h _ _ _ _

@[simp] theorem dropSide_mem (s : State) (l q : Nat) : (dropSide s l q).mem = s.mem := by
  unfold dropSide
  dsimp only
  split <;> simp

@[simp] theorem mismatchTo_mem (s : State) (l q : Nat) : (mismatchTo s l q).mem = s.mem := modSeat_mem ..

@[simp] theorem acceptPost_mem (s : State) (q p : Nat) (lane : LaneNo) (stowed : Bool) (role : PairRole) (partner buf : Nat)
    (old : Bool) : (acceptPost s q p lane stowed role partner buf old).mem = s.mem := by
  unfold acceptPost
  rw [modSeatR_mem]

@[simp] theorem postReferee_mem (s : State) (c i : Nat) : (postReferee s c i).mem = s.mem := by
  unfold postReferee
  simp only
  split <;> simp

@[simp] theorem toReferee_mem (s : State) (c i : Nat) : (toReferee s c i).mem = s.mem := by simp [toReferee]

theorem performOut_wf {s : State} (h : s.mem.wf = true) (o : PairOut) : (performOut s o).mem.wf = true := by
  unfold performOut
  split
  · exact physWrite_wf h _ _ _
  · split
    · exact physWrite_wf h _ _ _
    · exact putGranule_wf h _ _ _
  · exact putLaneTags_wf h _ _ _
  · have hr := laneReach_wf h o.addr 1
    dsimp only
    generalize laneReach s o.addr 1 = r at hr ⊢
    split
    · exact laneStore_wf hr _ _
    · exact hr
  · have hp := putLane_wf h o.addr o.words
    dsimp only
    generalize putLane s o.addr o.words = r at hp
    obtain ⟨st, t⟩ := r
    dsimp only at hp ⊢
    split
    · split
      · rw [seatCount_mem]
        exact hp
      · exact hp
    · exact hp
  · have hr := laneReach_wf h o.addr 1
    dsimp only
    generalize laneReach s o.addr 1 = r at hr ⊢
    split
    · exact hr
    split
    · split
      · rename_i he
        exact ringReach_wf hr he
      · split
        · have ht := laneTouch_wf hr o.addr 1 1
          split <;> rename_i he <;> rw [he] at ht
          · exact takeMsg_wf ht _ _ _
          · exact ht
        · exact hr
    · exact hr

theorem endPair_wf {s : State} (h : s.mem.wf = true) (c i st : Nat) : (endPair s c i st).mem.wf = true := by
  unfold endPair
  dsimp only
  apply laneEnded_wf
  split
  · simpa using h
  · apply notice_wf
    simpa using h

theorem performPair_wf {s : State} (h : s.mem.wf = true) (c i : Nat) (os : List PairOut) :
    (performPair s c i os).mem.wf = true := by
  unfold performPair
  apply endPair_wf
  exact foldl_wf _ (fun _ _ hs => performOut_wf hs _) _ h

theorem refereeCompare_wf {s : State} (h : s.mem.wf = true) (c i : Nat) : (refereeCompare s c i).mem.wf = true := by
  unfold refereeCompare
  simp only
  split
  · apply endPair_wf
    simpa using h
  · apply performPair_wf
    repeat' split
    all_goals simpa using h

/-- The comparison of pair checking keeps the canonical form (08 R266 to R268). -/
theorem pairStep_wf {s : State} (h : s.mem.wf = true) (c i : Nat) : (pairStep s c i).mem.wf = true := by
  unfold pairStep
  simp only
  split
  · rw [coxWake_mem]
    exact refereeCompare_wf h _ _
  · split
    · exact h
    · split
      · simpa using h
      · split
        · have hc : (coxWake (coxCount s c 11) c).mem.wf = true := by simpa using h
          split
          · exact performPair_wf hc _ _ _
          · rw [toReferee_mem]
            exact hc
        · exact h

theorem sideEnded_wf {s : State} (h : s.mem.wf = true) (c i : Nat) (role : PairRole) (bad : Bool) :
    (sideEnded s c i role bad).mem.wf = true := by
  unfold sideEnded
  apply pairStep_wf
  exact h

@[simp] theorem pairPush_mem (s : State) (q : Nat) (o : PairOut) : (pairPush s q o).mem = s.mem := by
  unfold pairPush
  dsimp only
  split <;> rfl

theorem pairOverflow_wf {s : State} (h : s.mem.wf = true) (q : Nat) : (pairOverflow s q).mem.wf = true := by
  unfold pairOverflow
  apply endPair_wf
  simpa using h

theorem endLive_wf {s : State} (h : s.mem.wf = true) (q b st : Nat) : (endLive s q b st).mem.wf = true := by
  unfold endLive
  simp only
  split
  · exact h
  · split
    · have hb := endBank_wf h q b 0
      split
      · exact endStowed_wf hb _ _
      · exact hb
    · split
      · exact endBank_wf h _ _ _
      · exact endPair_wf h _ _ _

/-- A late event keeps the canonical form (05 R175, 08 R249). -/
theorem lateEvent_wf {s : State} (h : s.mem.wf = true) (q b : Nat) (v : Bank) (failed : Bool) :
    (lateEvent s q b v failed).mem.wf = true := by
  have hr := laneReach_wf h v.waitLane.toNat 1
  unfold lateEvent
  dsimp only
  split
  · split
    · rw [wakeBank_mem]
      exact h
    · rw [wakeStowed_mem]
      exact h
  generalize laneReach s v.waitLane.toNat 1 = r at hr ⊢
  split
  · rw [wakeAll_mem]
    split
    · exact laneStore_wf hr _ _
    · exact hr
  · exact hr

/-! Paddle entry, check stop and traps. -/

@[simp] theorem returnHead_mem (s : State) (home pend : Nat) (e : LaneNo × Bool) : (returnHead s home pend e).mem = s.mem := by
  unfold returnHead
  split <;> rfl

@[simp] theorem pushHead_mem (s : State) (l : Nat) (stowed : Bool) : (pushHead s l stowed).mem = s.mem := by
  unfold pushHead
  split <;> simp

theorem endPosted_wf {s : State} (h : s.mem.wf = true) (q : Nat) (j : StowJob) (st : Nat) :
    (endPosted s q j st).mem.wf = true := laneEnded_wf (notice_wf h _ _) _

theorem dropPosts_wf {s : State} (h : s.mem.wf = true) (q : Nat) {one : State → StowJob → State}
    (hone : ∀ s j, s.mem.wf = true → (one s j).mem.wf = true) : (dropPosts s q one).mem.wf = true := by
  unfold dropPosts
  dsimp only
  refine foldl_wf _ hone _ ?_
  rw [modSeat_mem]
  exact h

theorem offAbort_wf {s : State} (h : s.mem.wf = true) (q b : Nat) : (offAbort q s b).mem.wf = true :=
  ite_wf (endLive_wf h _ _ _) h

theorem offStow_wf {s : State} (h : s.mem.wf = true) (q b : Nat) : (offStow q s b).mem.wf = true := by
  unfold offStow
  dsimp only
  have hr := laneReach_wf h (getBank (getSeat s q) b).lane.toNat 3
  generalize laneReach s (getBank (getSeat s q) b).lane.toNat 3 = r at hr ⊢
  refine ite_wf ?_ h
  split
  · rename_i t ht
    apply lateEvent_wf
    rw [freeBank_mem, seatCount_mem]
    split at ht
    · have hw := stowBank_wf hr ht
      exact hw
    · cases ht
  · exact endLive_wf hr _ _ _

theorem offPost_wf {s : State} (h : s.mem.wf = true) (q : Nat) (j : StowJob) : (offPost q s j).mem.wf = true := by
  refine ite_wf (endPair_wf h _ _ _) (ite_wf ?_ (endPosted_wf h _ _ _))
  rw [pushHead_mem]
  exact h

theorem paddleSeatOff_wf {s : State} (h : s.mem.wf = true) (q : Nat) : (paddleSeatOff s q).mem.wf = true := by
  have pass : ∀ t : State, t.mem.wf = true → (allBanks.foldl (offStow q) (allBanks.foldl (offAbort q) t)).mem.wf = true :=
    fun t ht => foldl_wf _ (fun _ _ hs => offStow_wf hs _ _) _ (foldl_wf _ (fun _ _ hs => offAbort_wf hs _ _) _ ht)
  unfold paddleSeatOff
  dsimp only
  rw [modSeat_mem, settleSeat_mem]
  exact pass _ (pass _ (dropPosts_wf h q fun _ _ hs => offPost_wf hs _ _))

@[simp] theorem completeCount_mem (s : State) (u st : Nat) : (completeCount s u st).mem = s.mem := by
  unfold completeCount
  simp only
  split <;> simp

theorem abortJob_wf {s : State} (h : s.mem.wf = true) (j : Job) : (abortJob s j).mem.wf = true := by
  unfold abortJob
  simp only
  rw [completeCount_mem]
  apply putForce_wf
  exact h

@[simp] theorem domainsOff_mem (s : State) (ds : List Nat) : (domainsOff s ds).mem = s.mem := by
  unfold domainsOff
  exact foldl_mem _ settleUnit_mem _ _

theorem offHeld_wf {s : State} (h : s.mem.wf = true) (x : Held) : (offHeld s x).mem.wf = true := by
  unfold offHeld abortHeldResponse
  simp only
  split
  · apply putForce_wf
    exact h
  · rw [unitCount_mem]
    apply putForce_wf
    exact h

theorem enginesOff_wf {s : State} (h : s.mem.wf = true) : (enginesOff s).mem.wf = true :=
  foldl_wf _ (fun _ _ hs => abortJob_wf hs _) _ (foldl_wf _ (fun _ _ hs => offHeld_wf hs _) _ h)

theorem paddleEntry_wf {s : State} (h : s.mem.wf = true) : (paddleEntry s).mem.wf = true := by
  unfold paddleEntry
  simp only
  rw [domainsOff_mem]
  refine enginesOff_wf (foldl_wf _ (fun s q hs => ?_) _ ?_)
  · split
    · exact hs
    · exact paddleSeatOff_wf hs _
  · simpa using h

theorem triggersChanged_wf {s : State} (h : s.mem.wf = true) : (triggersChanged s).mem.wf = true := by
  unfold triggersChanged
  simp only
  split
  · split
    · split
      · rw [domainsOff_mem]
        refine foldl_wf _ (fun s q hs => ?_) _ (enginesOff_wf h)
        simpa using hs
      · exact h
    · exact paddleEntry_wf h
  · split
    · exact h
    · exact h

theorem withPower_wf {s : State} (h : s.mem.wf = true) (f : Power → Power) : (withPower s f).mem.wf = true :=
  triggersChanged_wf h

@[simp] theorem errEdge_mem (s t : State) : (errEdge s t).mem = t.mem := by
  unfold errEdge
  split <;> simp

/-- Check stop keeps the canonical form (07 R234, R235). -/
theorem checkStop_wf {s : State} (h : s.mem.wf = true) (q : Nat) : (checkStop s q).mem.wf = true := by
  unfold checkStop
  dsimp only
  split
  · exact h
  · have hb : ∀ s : State, s.mem.wf = true → ∀ b, (let v := getBank (getSeat s q) b
        if v.st = .free then s
        else if v.role = .none then endLive s q b stBroken
        else sideEnded (freeBank (modSeatR s q fun x => clearSets x b) q b) (leafOf q) v.pairBuf v.role true).mem.wf = true := by
      intro s hs b
      simp only
      split
      · exact hs
      · split
        · exact endLive_wf hs _ _ _
        · apply sideEnded_wf
          simpa using hs
    have hj : ∀ s : State, s.mem.wf = true → ∀ j : StowJob, (if j.role ≠ .none then sideEnded s (leafOf q) j.buf j.role true
        else if j.stowed then s else endPosted s q j stBroken).mem.wf = true := by
      intro s hs j
      split
      · exact sideEnded_wf hs _ _ _ _
      · split
        · exact hs
        · exact endPosted_wf hs _ _ _
    have hd : (settleSeat (seatCount s q 124) q).mem.wf = true := by
      rw [settleSeat_mem, seatCount_mem]
      exact h
    have hx : ∀ s : State, s.mem.wf = true → (endedSides s q).mem.wf = true := fun s hs =>
      foldl_wf _ (fun s i hs => ite_wf (sideEnded_wf hs _ _ _ _) (ite_wf (sideEnded_wf hs _ _ _ _) hs)) _ hs
    split
    · apply withPower_wf
      simp only [modCox_mem, logEvent_mem, errEdge_mem, modSeat_mem]
      exact foldl_wf _ (fun s e hs => endStowed_wf hs _ _) _
        (hx _ (foldl_wf _ (fun s b hs => hb s hs b) _ (dropPosts_wf hd q fun s j hs => hj s hs j)))
    · simp only [modCox_mem, logEvent_mem, errEdge_mem, modSeat_mem]
      exact foldl_wf _ (fun s e hs => endStowed_wf hs _ _) _
        (hx _ (foldl_wf _ (fun s b hs => hb s hs b) _ (dropPosts_wf hd q fun s j hs => hj s hs j)))

/-- A reload of stale code words keeps the canonical form: it may meet an error in case (06 R209, 10 R321). -/
theorem reloadCode_wf {s : State} (h : s.mem.wf = true) (q : Nat) : (reloadCode s q).mem.wf = true := by
  unfold reloadCode
  dsimp only
  rw [modSeat_mem]
  exact viewMeets_wf h _ _

theorem enterS_wf {s : State} (h : s.mem.wf = true) (q : Nat) (t : Trap) : (enterS s q t).mem.wf = true := by
  unfold enterS
  refine reloadCode_wf ?_ q
  rw [modSeatR_mem]
  exact h

theorem enterM_wf {s : State} (h : s.mem.wf = true) (q : Nat) (t : Trap) (async : Bool) (cause orig : Nat) (pcc : Cap)
    (bank : Nat) : (enterM s q t async cause orig pcc bank).mem.wf = true := by
  unfold enterM
  refine reloadCode_wf ?_ q
  rw [modSeatR_mem]
  exact h

/-- Taking a trap keeps the canonical form (07 R213 to R223). -/
theorem takeTrap_wf {s : State} (h : s.mem.wf = true) (q : Nat) (t : Trap) : (takeTrap s q t).mem.wf = true := by
  have hm : ∀ cause orig, (if occupied (getSeat s q).svM then checkStop s q else if mHeld s then s
      else seatCount (enterM s q t false cause orig (curBank (getSeat s q)).pcc (getSeat s q).status.bank) q
        (32 + cause)).mem.wf = true := by
    intro cause orig
    refine ite_wf (checkStop_wf h q) (ite_wf h ?_)
    rw [seatCount_mem]
    exact enterM_wf h ..
  unfold takeTrap
  simp only
  split
  · exact hm _ _
  · split
    · exact hm _ _
    · rw [seatCount_mem]
      exact enterS_wf h ..

theorem takeAsync_wf {s : State} (h : s.mem.wf = true) (q : Nat) (t : Trap) : (takeAsync s q t).mem.wf = true := by
  unfold takeAsync
  simp only
  split
  · rw [seatCount_mem]
    exact enterM_wf h ..
  · rw [seatCount_mem]
    refine enterM_wf ?_ ..
    simpa using h

theorem leaveAborted_wf {s : State} (h : s.mem.wf = true) (q b : Nat) : (leaveAborted s q b).mem.wf = true := by
  refine ite_wf ?_ (endLive_wf h _ _ _)
  simpa using h

theorem returnPass_wf {s : State} (h : s.mem.wf = true) (q : Nat) (atM : Bool) (v : SaveSet) (i : Nat) :
    (returnPass s q atM v i).mem.wf = true := by
  unfold returnPass
  dsimp only
  generalize hs : reloadCode _ _ = t
  have ht : t.mem.wf = true := by
    rw [← hs]
    refine reloadCode_wf ?_ q
    rw [modSeatR_mem]
    exact h
  exact ite_wf (leaveAborted_wf ht _ _) ht

theorem releaseSeat_wf {s : State} (h : s.mem.wf = true) (q : Nat) : (releaseSeat s q).mem.wf = true := by
  unfold releaseSeat
  rw [selectBank_mem]
  refine reloadCode_wf ?_ q
  rw [modSeatR_mem]
  exact h

end Sys2Proof.Machine
end

