-- ==== Sys2Proof/Laws/Access.lean ====
section
/-! SUPPORT. Laws of checked accesses and of the frame of one instruction (02 R48, R55; 05 R140, R159): each keeps memory
in canonical form, and the instruction's body alone decides beside the fetch. -/

namespace Sys2Proof.Machine

/-- A state that a result carries, on either side, has memory in canonical form. -/
def BothWf {ε α : Type} (f : ε → State) (g : α → State) : Except ε α → Prop
  | .error e => (f e).mem.wf = true
  | .ok a => (g a).mem.wf = true

@[simp] theorem timedNote_mem (q : Nat) (s : State) (r : Nat × Bool) : (timedNote q s r).mem = s.mem := by
  unfold timedNote
  simp only
  split
  · split
    · simp
    · simp
  · rfl

theorem tableReach_wf {s : State} (h : s.mem.wf = true) (q : Option Nat) (a : Nat) : (tableReach s q a).mem.wf = true := by
  have hn : (q.elim s fun q => timedNote q s (a, false)).mem.wf = true := by
    cases q with
    | none => exact h
    | some q =>
      rw [Option.elim_some, timedNote_mem]
      exact h
  exact viewMeets_wf hn _ _

theorem walkMeets_wf {s : State} (h : s.mem.wf = true) (q : Option Nat) (m v : Nat) (cached : Option Word) :
    (walkMeets s q m v cached).mem.wf = true := by
  unfold walkMeets
  dsimp only
  split
  · exact ite_wf (tableReach_wf h _ _) h
  · refine ite_wf h ?_
    have ht := tableReach_wf h q (bits (mapBase s m) 35 12 * 4096 + v / 2 ^ 24 % 4096)
    split
    · exact ite_wf (ite_wf (tableReach_wf ht _ _) ht) ht
    · exact ht

@[simp] theorem missCount_mem (s : State) (q : Nat) : (missCount s q).mem = s.mem := by simp [missCount]

theorem tlbLookup_wf {s : State} (h : s.mem.wf = true) (q m v : Nat) (fresh : Bool) :
    BothWf (fun e : WalkFault × State => e.2) (fun a : TlbEntry × State => a.2) (tlbLookup s q m v fresh) := by
  unfold tlbLookup
  simp only
  split
  · dsimp only [BothWf]
    split
    · exact h
    · rw [seatCount_mem]
      exact h
  · rename_i keep _ _
    have hd : (drawFree s).2.mem.wf = true := h
    generalize (drawFree s).2 = u at hd
    split
    · simp only [BothWf, seatCount_mem, missCount_mem]
      exact walkMeets_wf hd _ _ _ _
    · simp only [BothWf, seatCount_mem, missCount_mem, modSeat_mem]
      exact walkMeets_wf hd _ _ _ _

theorem translateSpan_wf (q : Nat) (kind : XKind) (fresh : Bool) (fuel : Nat) {s : State} (h : s.mem.wf = true) (v n : Nat) :
    BothWf (fun e : WalkFault × Nat × State => e.2.2) (fun a : List Run × State => a.2)
      (translateSpan q kind fresh fuel s v n) := by
  induction fuel generalizing s v n with
  | zero => exact h
  | succ k ih =>
    unfold translateSpan
    split
    · exact h
    · simp only
      split
      · exact h
      · have hl := tlbLookup_wf h q ((if (getSeat s q).status.side then 128 else 0) + ctxMap (curBank (getSeat s q))) v fresh
        split <;> rename_i hh <;> rw [hh] at hl
        · exact hl
        · split
          · exact hl
          · rename_i t _
            have hr := ih (s := t) hl (v + min n (4096 - v % 4096)) (n - min n (4096 - v % 4096))
            split <;> rename_i he <;> rw [he] at hr
            · exact hr
            · exact hr

theorem transAll_wf (q : Nat) (fresh : Bool) (as : List Access) {s : State} (h : s.mem.wf = true) :
    BothWf (fun e : Trap × State => e.2) (fun a : List (List Run) × State => a.2) (transAll q fresh as s) := by
  induction as generalizing s with
  | nil => exact h
  | cons a as ih =>
    unfold transAll
    have ht := translateSpan_wf q (accKind a) fresh (a.n / 4096 + 2) h a.ea.toNat a.n
    split <;> rename_i hh <;> rw [hh] at ht
    · exact ht
    · rename_i t
      have hr := ih (s := t) ht
      split <;> rename_i he <;> rw [he] at hr
      · exact hr
      · exact hr

/-- Setting A and D keeps the canonical form (10 R347). -/
theorem touchEntry_wf {s : State} (h : s.mem.wf = true) (q : Nat) (e : TlbEntry) (v : Nat) (store : Bool) :
    BothWf (fun t : State => t) (fun t : State => t) (touchEntry s q e v store) := by
  unfold touchEntry
  simp only
  split
  · exact h
  · generalize pteOf e v = ea
    have hr : (if tableOpen s e.map ea 0 then tableReach s (some q) ea else s).mem.wf = true :=
      ite_wf (tableReach_wf h (some q) ea) h
    generalize (if tableOpen s e.map ea 0 then tableReach s (some q) ea else s) = t at hr ⊢
    split
    · simp only [BothWf, seatCount_mem, tlbDrop, modSeat_mem]
      exact hr
    · split
      · exact hr
      · simp only [BothWf, seatCount_mem, tlbReplace, modSeat_mem]
        exact ite_wf hr (viewPut_wf hr _ _ _ _)

theorem touchAll_wf (q : Nat) (rs : List (Run × Bool)) {s : State} (h : s.mem.wf = true) :
    BothWf (fun t : State => t) (fun t : State => t) (touchAll q rs s) := by
  induction rs generalizing s with
  | nil => exact h
  | cons r rs ih =>
    obtain ⟨r, st⟩ := r
    unfold touchAll
    split
    · exact ih h
    · rename_i e _
      have ht := touchEntry_wf h q (tlbNow s q e) r.v st
      split <;> rename_i hh <;> rw [hh] at ht
      · exact ht
      · exact ih ht

@[simp] theorem spaceNote_mem (q : Nat) (s : State) (r : Nat × Bool) : (spaceNote q s r).mem = s.mem := by
  unfold spaceNote
  repeat' split
  all_goals simp

@[simp] theorem notes_mem (q : Nat) (s : State) (r : Nat × Bool) : (spaceNote q (timedNote q s r) r).mem = s.mem := by simp

theorem accessMeets_wf {s : State} (h : s.mem.wf = true) (q : Nat) (p : Access × List Run) :
    (accessMeets q s p).mem.wf = true := by
  unfold accessMeets
  simp only
  split
  · exact h
  · exact meetWords_wf h _

/-- Steps 7 and 8 of R48, A and D, and the loads keep the canonical form, whether they pass or trap. -/
theorem accessFrom_wf (q : Nat) (as : List Access) (fuel : Nat) (fresh : Bool) {s : State} (h : s.mem.wf = true) :
    BothWf (fun e : Trap × State => e.2) Passed.st (accessFrom q as fuel fresh s) := by
  induction fuel generalizing fresh s with
  | zero =>
    unfold accessFrom
    have ht := transAll_wf q fresh as h
    split <;> rename_i hh <;> rw [hh] at ht
    · exact ht
    · rename_i rss t
      simp only
      split
      · exact ht
      · split
        · exact ht
        · have hm := foldl_wf (accessMeets q) (fun _ p hs => accessMeets_wf hs q p) (as.zip rss) ht
          generalize List.foldl (accessMeets q) t (as.zip rss) = t at hm
          split
          · dsimp only [BothWf]
            refine ite_wf ?_ hm
            rw [foldl_mem _ (timedNote_mem q)]
            exact hm
          · generalize List.flatMap (fun p : Access × List Run => p.2.map fun r => (r, p.1.write)) _ = touches
            have hc := touchAll_wf q touches (s := t) hm
            cases hd : touchAll q touches t <;> rw [hd] at hc
            · simp only [BothWf, foldl_mem _ (notes_mem q)]
              exact hc
            · simp only [BothWf, foldl_mem _ (notes_mem q)]
              exact hc
  | succ k ih =>
    unfold accessFrom
    have ht := transAll_wf q fresh as h
    split <;> rename_i hh <;> rw [hh] at ht
    · exact ht
    · rename_i rss t
      simp only
      split
      · exact ht
      · split
        · exact ht
        · have hm := foldl_wf (accessMeets q) (fun _ p hs => accessMeets_wf hs q p) (as.zip rss) ht
          generalize List.foldl (accessMeets q) t (as.zip rss) = t at hm
          split
          · dsimp only [BothWf]
            refine ite_wf ?_ hm
            rw [foldl_mem _ (timedNote_mem q)]
            exact hm
          · generalize List.flatMap (fun p : Access × List Run => p.2.map fun r => (r, p.1.write)) _ = touches
            have hc := touchAll_wf q touches (s := t) hm
            cases hd : touchAll q touches t <;> rw [hd] at hc
            · exact ih true hc
            · simp only [BothWf, foldl_mem _ (notes_mem q)]
              exact hc

/-- A checked access keeps the canonical form, whether it passes or traps (02 R48, R55). -/
theorem accessAll_wf (q : Nat) (as : List Access) {s : State} (h : s.mem.wf = true) :
    BothWf (fun e : Trap × State => e.2) Passed.st (accessAll q as s) := by
  unfold accessAll
  split
  · exact h
  · exact accessFrom_wf q as 8 false h

/-! Stores. -/

theorem seatPut_wf {s : State} (h : s.mem.wf = true) (q a : Nat) (ws : List Word) (gran tag : Bool) :
    (seatPut s q a ws gran tag).mem.wf = true := by
  have hm : (markStale s q a ws.length).mem = s.mem := by
    unfold markStale
    rw [modSeat_mem]
  unfold seatPut
  simp only
  generalize markStale s q a ws.length = t at hm ⊢
  rw [← hm] at h
  split
  · rw [stickPut_mem]
    exact h
  · split
    · rw [pairPush_mem]
      exact h
    · split
      · exact physWrite_wf h _ _ _
      · exact putGranule_wf h _ _ _

theorem seatWrite_wf {s : State} (h : s.mem.wf = true) (q a : Nat) (ws : List Word) : (seatWrite s q a ws).mem.wf = true :=
  foldl_wf _ (fun _ _ hs => seatPut_wf hs _ _ _ _ _) _ h

theorem storeRuns_wf {p : Passed} (h : p.st.mem.wf = true) (q i : Nat) (ws : List Word) :
    (storeRuns p q i ws).mem.wf = true := foldl_wf _ (fun _ _ hs => seatWrite_wf hs _ _ _) _ h

/-! The frame of one instruction. -/

@[simp] theorem sampleKeep_mem (s : State) (q : Nat) (y : Sample) : (sampleKeep s q y).mem = s.mem := by
  unfold sampleKeep
  split <;> simp

@[simp] theorem retire_mem (q len b : Nat) (d : Done) : (retire q len b d).mem = d.st.mem := by
  unfold retire
  simp only
  split <;> (try split) <;> simp [dropProgress]

@[simp] theorem sampleDone_mem (s : State) (q : Nat) (y : Sample) (d : Done) : (sampleDone s q y d).mem = s.mem := by
  unfold sampleDone
  cases d.next with
  | stopped => rfl
  | blocked => rfl
  | _ => exact sampleKeep_mem ..

@[simp] theorem barredCount_mem (s : State) (q : Nat) (word : Word) : (barredCount s q word).mem = s.mem := by
  unfold barredCount
  split <;> simp

/-- One instruction keeps the canonical form when its body does (05 R140). -/
theorem seatInstr_wf {q : Nat} {word : Word} {len : Nat} {legal : Bool} {permitted : Status → Bool}
    {body : State → Except (Trap × State) Done}
    (hb : ∀ s, s.mem.wf = true → BothWf (fun e : Trap × State => e.2) Done.st (body s)) {s : State} (h : s.mem.wf = true) :
    (seatInstr q word len legal permitted body s).mem.wf = true := by
  have trap : ∀ (c : Bool) (y : Sample) (f : Bank → Bank) (t : Trap) {s : State}, s.mem.wf = true →
      (if c then sampleKeep (if pairOver s q then pairOverflow s q else takeTrap (modCur s q f) q t) q y
        else if pairOver s q then pairOverflow s q else takeTrap (modCur s q f) q t).mem.wf = true := by
    intro c y f t s hs
    have ht : (if pairOver s q then pairOverflow s q else takeTrap (modCur s q f) q t).mem.wf = true := by
      refine ite_wf (pairOverflow_wf hs q) (takeTrap_wf ?_ _ _)
      rw [modCur_mem]
      exact hs
    refine ite_wf ?_ ht
    rw [sampleKeep_mem]
    exact ht
  have done : ∀ (c : Bool) (y : Sample) (d : Done) (b : Nat), d.st.mem.wf = true →
      (if c then sampleDone (if pairOver d.st q then pairOverflow d.st q else retire q len b d) q y d
        else if pairOver d.st q then pairOverflow d.st q else retire q len b d).mem.wf = true := by
    intro c y d b hd
    have ht : (if pairOver d.st q then pairOverflow d.st q else retire q len b d).mem.wf = true := by
      refine ite_wf (pairOverflow_wf hd q) ?_
      rw [retire_mem]
      exact hd
    refine ite_wf ?_ ht
    rw [sampleDone_mem]
    exact ht
  unfold seatInstr
  refine ite_wf h ?_
  dsimp only
  generalize sampleOf s q word = y
  generalize ((getSeat s q).sampTag && sampleOn (getSeat s q)) = c
  have ha := accessAll_wf q [fetchAccess s q len] h
  cases hh : accessAll q [fetchAccess s q len] s with
  | error e =>
    rw [hh] at ha
    exact trap _ _ _ _ ha
  | ok p =>
    rw [hh] at ha
    have hp : (modSeat p.st q decoded).mem.wf = true := by
      rw [modSeat_mem]
      exact ha
    dsimp only
    generalize modSeat p.st q decoded = u at hp ⊢
    refine ite_wf (trap _ _ _ _ (ite_wf (by simpa using hp) hp)) ?_
    have hu := hb u hp
    cases hd : body u with
    | error e =>
      rw [hd] at hu
      exact trap _ _ _ _ hu
    | ok d =>
      rw [hd] at hu
      exact done _ _ _ _ hu

/-- A seat instruction answers a next state, and keeps the canonical form when its body does. -/
theorem seatRun_wf {q : SeatNo} {i : Instr} {permitted : Status → Bool} {body : State → Except (Trap × State) Done}
    (hb : ∀ s, s.mem.wf = true → BothWf (fun e : Trap × State => e.2) Done.st (body s)) {s t : State} (h : s.mem.wf = true)
    (ht : seatRun q i permitted body s = .next t) : t.mem.wf = true := by
  unfold seatRun at ht
  cases ht
  exact seatInstr_wf hb h

end Sys2Proof.Machine
end

