-- ==== Sys2Proof/Laws/Encodings.lean ====
section
/-! SUPPORT. The formats of seat instructions as numbers (04 R128), and the major opcode that each word holds. -/

namespace Sys2Proof

/-- Two fields side by side, as a number. -/
theorem toNat_append_add {m n : Nat} (x : BitVec m) (y : BitVec n) : (x ++ y).toNat = 2 ^ n * x.toNat + y.toNat := by
  rw [BitVec.toNat_append, ← Nat.shiftLeft_add_eq_or_of_lt y.isLt, Nat.shiftLeft_eq, Nat.mul_comm]

theorem encA_toNat (op : BitVec 7) (rd ra rb : Reg) (fn : BitVec 9) (aux : Reg) :
    (encA op rd ra rb fn aux).toNat
      = 2 ^ 29 * op.toNat + 2 ^ 24 * rd.toNat + 2 ^ 19 * ra.toNat + 2 ^ 14 * rb.toNat + 2 ^ 5 * fn.toNat + aux.toNat := by
  show (op ++ rd ++ ra ++ rb ++ fn ++ aux : BitVec (7 + 5 + 5 + 5 + 9 + 5)).toNat = _
  simp only [toNat_append_add]
  omega

theorem encI_toNat (op : BitVec 7) (rd ra : Reg) (imm : BitVec 19) :
    (encI op rd ra imm).toNat = 2 ^ 29 * op.toNat + 2 ^ 24 * rd.toNat + 2 ^ 19 * ra.toNat + imm.toNat := by
  show (op ++ rd ++ ra ++ imm : BitVec (7 + 5 + 5 + 19)).toNat = _
  simp only [toNat_append_add]
  omega

theorem encM_toNat (op : BitVec 7) (rd : Reg) (m : MemOp) :
    (encM op rd m).toNat = 2 ^ 29 * op.toNat + 2 ^ 24 * rd.toNat + 2 ^ 20 * m.ca.toNat + 2 ^ 17 * m.mode.toNat
      + 2 ^ 12 * m.ix.toNat + m.disp.toNat := by
  show (op ++ rd ++ m.ca ++ m.mode ++ m.ix ++ m.disp : BitVec (7 + 5 + 4 + 3 + 5 + 12)).toNat = _
  simp only [toNat_append_add]
  omega

theorem encB_toNat (op : BitVec 7) (cond : BitVec 4) (ra rb : Reg) (disp : BitVec 15) :
    (encB op cond ra rb disp).toNat
      = 2 ^ 29 * op.toNat + 2 ^ 25 * cond.toNat + 2 ^ 20 * ra.toNat + 2 ^ 15 * rb.toNat + disp.toNat := by
  show (op ++ cond ++ ra ++ rb ++ disp : BitVec (7 + 4 + 5 + 5 + 15)).toNat = _
  simp only [toNat_append_add]
  omega

theorem encL_toNat (op : BitVec 7) (rd ra : Reg) (fn : BitVec 9) :
    (encL op rd ra fn).toNat = 2 ^ 29 * op.toNat + 2 ^ 24 * rd.toNat + 2 ^ 19 * ra.toNat + 2 ^ 10 * fn.toNat := by
  show (op ++ rd ++ ra ++ fn ++ (0 : BitVec 10) : BitVec (7 + 5 + 5 + 9 + 10)).toNat = _
  have h : (0 : BitVec 10).toNat = 0 := rfl
  simp only [toNat_append_add, h]
  omega

theorem encS_toNat (op : BitVec 7) (rd ra : Reg) (sw : BitVec 12) :
    (encS op rd ra sw).toNat = 2 ^ 29 * op.toNat + 2 ^ 24 * rd.toNat + 2 ^ 19 * ra.toNat + 2 ^ 5 * sw.toNat := by
  show (op ++ rd ++ ra ++ (0 : BitVec 2) ++ sw ++ (0 : BitVec 5) : BitVec (7 + 5 + 5 + 2 + 12 + 5)).toNat = _
  have h : (0 : BitVec 2).toNat = 0 := rfl
  have k : (0 : BitVec 5).toNat = 0 := rfl
  simp only [toNat_append_add, h, k]
  omega

/-- The major opcode of a word, bits 35 to 29 (04 R128). -/
def majorOf (w : Word) : BitVec 7 := w.extractLsb' 29 7

theorem majorOf_eq {w : Word} {op : BitVec 7} (h : w.toNat / 2 ^ 29 % 2 ^ 7 = op.toNat) : majorOf w = op := by
  apply BitVec.eq_of_toNat_eq
  rw [majorOf, BitVec.extractLsb'_toNat, Nat.shiftRight_eq_div_pow]
  exact h

@[simp] theorem majorOf_encA (op : BitVec 7) (rd ra rb : Reg) (fn : BitVec 9) (aux : Reg) :
    majorOf (encA op rd ra rb fn aux) = op := majorOf_eq (by rw [encA_toNat]; omega)

@[simp] theorem majorOf_encI (op : BitVec 7) (rd ra : Reg) (imm : BitVec 19) : majorOf (encI op rd ra imm) = op :=
  majorOf_eq (by rw [encI_toNat]; omega)

@[simp] theorem majorOf_encM (op : BitVec 7) (rd : Reg) (m : MemOp) : majorOf (encM op rd m) = op :=
  majorOf_eq (by rw [encM_toNat]; omega)

@[simp] theorem majorOf_encB (op : BitVec 7) (cond : BitVec 4) (ra rb : Reg) (disp : BitVec 15) :
    majorOf (encB op cond ra rb disp) = op := majorOf_eq (by rw [encB_toNat]; omega)

@[simp] theorem majorOf_encL (op : BitVec 7) (rd ra : Reg) (fn : BitVec 9) : majorOf (encL op rd ra fn) = op :=
  majorOf_eq (by rw [encL_toNat]; omega)

@[simp] theorem majorOf_encS (op : BitVec 7) (rd ra : Reg) (sw : BitVec 12) : majorOf (encS op rd ra sw) = op :=
  majorOf_eq (by rw [encS_toNat]; omega)

theorem seatLen_eq (i : Instr) : seatLen i = if majorOf (seatWord i) = 0o030 then 2 else 1 := rfl

end Sys2Proof
end

