-- ==== Sys2Proof/Laws/PerInstr.lean ====
section
/-! SUPPORT. Laws proved command by command. Length: the L format alone has two words (04 R128). -/

namespace Sys2Proof.Laws

/-- The long immediate instructions, which are two words (05 R149). -/
def isLong : Instr → Bool
  | .li .. | .addl .. | .andl .. | .orl .. | .xorl .. => true
  | _ => false

/-- The word of a seat instruction is two words long exactly for the long immediates; another command has no word. -/
def Length.Statement (i : Instr) : Prop := seatLen i = if isLong i then 2 else 1

theorem Length.of_major {i : Instr} {op : BitVec 7} (h : majorOf (seatWord i) = op) (ho : op ≠ 0o030)
    (hl : isLong i = false) : Length.Statement i := by
  rw [Length.Statement, seatLen_eq, h, if_neg ho, hl]
  rfl

theorem Length.of_long {i : Instr} (h : majorOf (seatWord i) = 0o030) (hl : isLong i = true) : Length.Statement i := by
  rw [Length.Statement, seatLen_eq, h, if_pos rfl, hl]
  rfl

theorem Length.of_none {i : Instr} (h : seatWord i = 0) (hl : isLong i = false) : Length.Statement i :=
  of_major (by rw [h]; rfl : majorOf (seatWord i) = 0) (by decide) hl

theorem Length.add (q : SeatNo) (rd : Reg) (ra : Reg) (rb : Reg) : Statement (.add q rd ra rb) :=
  of_major (majorOf_encA ..) (by decide) rfl
theorem Length.sub (q : SeatNo) (rd : Reg) (ra : Reg) (rb : Reg) : Statement (.sub q rd ra rb) :=
  of_major (majorOf_encA ..) (by decide) rfl
theorem Length.and (q : SeatNo) (rd : Reg) (ra : Reg) (rb : Reg) : Statement (.and q rd ra rb) :=
  of_major (majorOf_encA ..) (by decide) rfl
theorem Length.or (q : SeatNo) (rd : Reg) (ra : Reg) (rb : Reg) : Statement (.or q rd ra rb) :=
  of_major (majorOf_encA ..) (by decide) rfl
theorem Length.xor (q : SeatNo) (rd : Reg) (ra : Reg) (rb : Reg) : Statement (.xor q rd ra rb) :=
  of_major (majorOf_encA ..) (by decide) rfl
theorem Length.andn (q : SeatNo) (rd : Reg) (ra : Reg) (rb : Reg) : Statement (.andn q rd ra rb) :=
  of_major (majorOf_encA ..) (by decide) rfl
theorem Length.slt (q : SeatNo) (rd : Reg) (ra : Reg) (rb : Reg) : Statement (.slt q rd ra rb) :=
  of_major (majorOf_encA ..) (by decide) rfl
theorem Length.sltu (q : SeatNo) (rd : Reg) (ra : Reg) (rb : Reg) : Statement (.sltu q rd ra rb) :=
  of_major (majorOf_encA ..) (by decide) rfl
theorem Length.min (q : SeatNo) (rd : Reg) (ra : Reg) (rb : Reg) : Statement (.min q rd ra rb) :=
  of_major (majorOf_encA ..) (by decide) rfl
theorem Length.max (q : SeatNo) (rd : Reg) (ra : Reg) (rb : Reg) : Statement (.max q rd ra rb) :=
  of_major (majorOf_encA ..) (by decide) rfl
theorem Length.minu (q : SeatNo) (rd : Reg) (ra : Reg) (rb : Reg) : Statement (.minu q rd ra rb) :=
  of_major (majorOf_encA ..) (by decide) rfl
theorem Length.maxu (q : SeatNo) (rd : Reg) (ra : Reg) (rb : Reg) : Statement (.maxu q rd ra rb) :=
  of_major (majorOf_encA ..) (by decide) rfl
theorem Length.clz (q : SeatNo) (rd : Reg) (ra : Reg) : Statement (.clz q rd ra) :=
  of_major (majorOf_encA ..) (by decide) rfl
theorem Length.popc (q : SeatNo) (rd : Reg) (ra : Reg) : Statement (.popc q rd ra) :=
  of_major (majorOf_encA ..) (by decide) rfl
theorem Length.addco (q : SeatNo) (rd : Reg) (ra : Reg) (rb : Reg) : Statement (.addco q rd ra rb) :=
  of_major (majorOf_encA ..) (by decide) rfl
theorem Length.sll (q : SeatNo) (rd : Reg) (ra : Reg) (rb : Reg) : Statement (.sll q rd ra rb) :=
  of_major (majorOf_encA ..) (by decide) rfl
theorem Length.srl (q : SeatNo) (rd : Reg) (ra : Reg) (rb : Reg) : Statement (.srl q rd ra rb) :=
  of_major (majorOf_encA ..) (by decide) rfl
theorem Length.sra (q : SeatNo) (rd : Reg) (ra : Reg) (rb : Reg) : Statement (.sra q rd ra rb) :=
  of_major (majorOf_encA ..) (by decide) rfl
theorem Length.rol (q : SeatNo) (rd : Reg) (ra : Reg) (rb : Reg) : Statement (.rol q rd ra rb) :=
  of_major (majorOf_encA ..) (by decide) rfl
theorem Length.slla (q : SeatNo) (rd : Reg) (ra : Reg) (aux : Reg) : Statement (.slla q rd ra aux) :=
  of_major (majorOf_encA ..) (by decide) rfl
theorem Length.srla (q : SeatNo) (rd : Reg) (ra : Reg) (aux : Reg) : Statement (.srla q rd ra aux) :=
  of_major (majorOf_encA ..) (by decide) rfl
theorem Length.sraa (q : SeatNo) (rd : Reg) (ra : Reg) (aux : Reg) : Statement (.sraa q rd ra aux) :=
  of_major (majorOf_encA ..) (by decide) rfl
theorem Length.rola (q : SeatNo) (rd : Reg) (ra : Reg) (aux : Reg) : Statement (.rola q rd ra aux) :=
  of_major (majorOf_encA ..) (by decide) rfl
theorem Length.mul (q : SeatNo) (rd : Reg) (ra : Reg) (rb : Reg) : Statement (.mul q rd ra rb) :=
  of_major (majorOf_encA ..) (by decide) rfl
theorem Length.mulh (q : SeatNo) (rd : Reg) (ra : Reg) (rb : Reg) : Statement (.mulh q rd ra rb) :=
  of_major (majorOf_encA ..) (by decide) rfl
theorem Length.mulhu (q : SeatNo) (rd : Reg) (ra : Reg) (rb : Reg) : Statement (.mulhu q rd ra rb) :=
  of_major (majorOf_encA ..) (by decide) rfl
theorem Length.muld (q : SeatNo) (rd : Reg) (ra : Reg) (rb : Reg) : Statement (.muld q rd ra rb) :=
  of_major (majorOf_encA ..) (by decide) rfl
theorem Length.div (q : SeatNo) (rd : Reg) (ra : Reg) (rb : Reg) : Statement (.div q rd ra rb) :=
  of_major (majorOf_encA ..) (by decide) rfl
theorem Length.divu (q : SeatNo) (rd : Reg) (ra : Reg) (rb : Reg) : Statement (.divu q rd ra rb) :=
  of_major (majorOf_encA ..) (by decide) rfl
theorem Length.rem (q : SeatNo) (rd : Reg) (ra : Reg) (rb : Reg) : Statement (.rem q rd ra rb) :=
  of_major (majorOf_encA ..) (by decide) rfl
theorem Length.remu (q : SeatNo) (rd : Reg) (ra : Reg) (rb : Reg) : Statement (.remu q rd ra rb) :=
  of_major (majorOf_encA ..) (by decide) rfl
theorem Length.hswap (q : SeatNo) (rd : Reg) (ra : Reg) : Statement (.hswap q rd ra) :=
  of_major (majorOf_encA ..) (by decide) rfl
theorem Length.hadd (q : SeatNo) (rd : Reg) (ra : Reg) (rb : Reg) : Statement (.hadd q rd ra rb) :=
  of_major (majorOf_encA ..) (by decide) rfl
theorem Length.hsub (q : SeatNo) (rd : Reg) (ra : Reg) (rb : Reg) : Statement (.hsub q rd ra rb) :=
  of_major (majorOf_encA ..) (by decide) rfl
theorem Length.hjoin (q : SeatNo) (rd : Reg) (ra : Reg) (rb : Reg) : Statement (.hjoin q rd ra rb) :=
  of_major (majorOf_encA ..) (by decide) rfl
theorem Length.hsx0 (q : SeatNo) (rd : Reg) (ra : Reg) : Statement (.hsx0 q rd ra) :=
  of_major (majorOf_encA ..) (by decide) rfl
theorem Length.hsx1 (q : SeatNo) (rd : Reg) (ra : Reg) : Statement (.hsx1 q rd ra) :=
  of_major (majorOf_encA ..) (by decide) rfl
theorem Length.extu (q : SeatNo) (rd : Reg) (ra : Reg) (pos : BitVec 6) (aux : Reg) : Statement (.extu q rd ra pos aux) :=
  of_major (majorOf_encA ..) (by decide) rfl
theorem Length.exts (q : SeatNo) (rd : Reg) (ra : Reg) (pos : BitVec 6) (aux : Reg) : Statement (.exts q rd ra pos aux) :=
  of_major (majorOf_encA ..) (by decide) rfl
theorem Length.ins (q : SeatNo) (rd : Reg) (ra : Reg) (pos : BitVec 6) (aux : Reg) : Statement (.ins q rd ra pos aux) :=
  of_major (majorOf_encA ..) (by decide) rfl
theorem Length.addi (q : SeatNo) (rd : Reg) (ra : Reg) (imm : BitVec 19) : Statement (.addi q rd ra imm) :=
  of_major (majorOf_encI ..) (by decide) rfl
theorem Length.andi (q : SeatNo) (rd : Reg) (ra : Reg) (imm : BitVec 19) : Statement (.andi q rd ra imm) :=
  of_major (majorOf_encI ..) (by decide) rfl
theorem Length.ori (q : SeatNo) (rd : Reg) (ra : Reg) (imm : BitVec 19) : Statement (.ori q rd ra imm) :=
  of_major (majorOf_encI ..) (by decide) rfl
theorem Length.xori (q : SeatNo) (rd : Reg) (ra : Reg) (imm : BitVec 19) : Statement (.xori q rd ra imm) :=
  of_major (majorOf_encI ..) (by decide) rfl
theorem Length.slti (q : SeatNo) (rd : Reg) (ra : Reg) (imm : BitVec 19) : Statement (.slti q rd ra imm) :=
  of_major (majorOf_encI ..) (by decide) rfl
theorem Length.sltiu (q : SeatNo) (rd : Reg) (ra : Reg) (imm : BitVec 19) : Statement (.sltiu q rd ra imm) :=
  of_major (majorOf_encI ..) (by decide) rfl
theorem Length.lih (q : SeatNo) (rd : Reg) (ra : Reg) (imm : BitVec 19) : Statement (.lih q rd ra imm) :=
  of_major (majorOf_encI ..) (by decide) rfl
theorem Length.muli (q : SeatNo) (rd : Reg) (ra : Reg) (imm : BitVec 19) : Statement (.muli q rd ra imm) :=
  of_major (majorOf_encI ..) (by decide) rfl
theorem Length.li (q : SeatNo) (rd : Reg) (imm : Word) : Statement (.li q rd imm) := of_long (majorOf_encL ..) rfl
theorem Length.addl (q : SeatNo) (rd : Reg) (ra : Reg) (imm : Word) : Statement (.addl q rd ra imm) :=
  of_long (majorOf_encL ..) rfl
theorem Length.andl (q : SeatNo) (rd : Reg) (ra : Reg) (imm : Word) : Statement (.andl q rd ra imm) :=
  of_long (majorOf_encL ..) rfl
theorem Length.orl (q : SeatNo) (rd : Reg) (ra : Reg) (imm : Word) : Statement (.orl q rd ra imm) :=
  of_long (majorOf_encL ..) rfl
theorem Length.xorl (q : SeatNo) (rd : Reg) (ra : Reg) (imm : Word) : Statement (.xorl q rd ra imm) :=
  of_long (majorOf_encL ..) rfl
theorem Length.opack (q : SeatNo) (rd : Reg) (ra : Reg) (aux : Reg) : Statement (.opack q rd ra aux) :=
  of_major (majorOf_encA ..) (by decide) rfl
theorem Length.ounpk (q : SeatNo) (rd : Reg) (ra : Reg) : Statement (.ounpk q rd ra) :=
  of_major (majorOf_encA ..) (by decide) rfl
theorem Length.oget (q : SeatNo) (rd : Reg) (ra : Reg) (rb : Reg) (aux : Reg) : Statement (.oget q rd ra rb aux) :=
  of_major (majorOf_encA ..) (by decide) rfl
theorem Length.oput (q : SeatNo) (rd : Reg) (ra : Reg) (rb : Reg) (aux : Reg) : Statement (.oput q rd ra rb aux) :=
  of_major (majorOf_encA ..) (by decide) rfl
theorem Length.ocnt (q : SeatNo) (rd : Reg) (ra : Reg) : Statement (.ocnt q rd ra) :=
  of_major (majorOf_encA ..) (by decide) rfl
theorem Length.ldw (q : SeatNo) (rd : Reg) (m : MemOp) : Statement (.ldw q rd m) :=
  of_major (majorOf_encM ..) (by decide) rfl
theorem Length.stw (q : SeatNo) (rd : Reg) (m : MemOp) : Statement (.stw q rd m) :=
  of_major (majorOf_encM ..) (by decide) rfl
theorem Length.ldd (q : SeatNo) (rd : Reg) (m : MemOp) : Statement (.ldd q rd m) :=
  of_major (majorOf_encM ..) (by decide) rfl
theorem Length.std (q : SeatNo) (rd : Reg) (m : MemOp) : Statement (.std q rd m) :=
  of_major (majorOf_encM ..) (by decide) rfl
theorem Length.ldc (q : SeatNo) (rd : Reg) (m : MemOp) : Statement (.ldc q rd m) :=
  of_major (majorOf_encM ..) (by decide) rfl
theorem Length.stc (q : SeatNo) (rd : Reg) (m : MemOp) : Statement (.stc q rd m) :=
  of_major (majorOf_encM ..) (by decide) rfl
theorem Length.ldm (q : SeatNo) (rd : Reg) (m : MemOp) : Statement (.ldm q rd m) :=
  of_major (majorOf_encM ..) (by decide) rfl
theorem Length.stm (q : SeatNo) (rd : Reg) (m : MemOp) : Statement (.stm q rd m) :=
  of_major (majorOf_encM ..) (by decide) rfl
theorem Length.movw (q : SeatNo) (rd : Reg) (ra : Reg) (rb : Reg) (aux : Reg) : Statement (.movw q rd ra rb aux) :=
  of_major (majorOf_encA ..) (by decide) rfl
theorem Length.fillw (q : SeatNo) (rd : Reg) (ra : Reg) (rb : Reg) : Statement (.fillw q rd ra rb) :=
  of_major (majorOf_encA ..) (by decide) rfl
theorem Length.cgetc (q : SeatNo) (rd : Reg) (ca : Reg) : Statement (.cgetc q rd ca) :=
  of_major (majorOf_encA ..) (by decide) rfl
theorem Length.cgetb (q : SeatNo) (rd : Reg) (ca : Reg) : Statement (.cgetb q rd ca) :=
  of_major (majorOf_encA ..) (by decide) rfl
theorem Length.cgetl (q : SeatNo) (rd : Reg) (ca : Reg) : Statement (.cgetl q rd ca) :=
  of_major (majorOf_encA ..) (by decide) rfl
theorem Length.cgetp (q : SeatNo) (rd : Reg) (ca : Reg) : Statement (.cgetp q rd ca) :=
  of_major (majorOf_encA ..) (by decide) rfl
theorem Length.cgett (q : SeatNo) (rd : Reg) (ca : Reg) : Statement (.cgett q rd ca) :=
  of_major (majorOf_encA ..) (by decide) rfl
theorem Length.cmov (q : SeatNo) (rd : Reg) (ca : Reg) : Statement (.cmov q rd ca) :=
  of_major (majorOf_encA ..) (by decide) rfl
theorem Length.ctest (q : SeatNo) (rd : Reg) (ca : Reg) (rb : Reg) (aux : Reg) : Statement (.ctest q rd ca rb aux) :=
  of_major (majorOf_encA ..) (by decide) rfl
theorem Length.cinc (q : SeatNo) (rd : Reg) (ca : Reg) (rb : Reg) : Statement (.cinc q rd ca rb) :=
  of_major (majorOf_encA ..) (by decide) rfl
theorem Length.cinci (q : SeatNo) (rd : Reg) (ca : Reg) (imm : BitVec 19) : Statement (.cinci q rd ca imm) :=
  of_major (majorOf_encI ..) (by decide) rfl
theorem Length.csetb (q : SeatNo) (rd : Reg) (ca : Reg) (rb : Reg) : Statement (.csetb q rd ca rb) :=
  of_major (majorOf_encA ..) (by decide) rfl
theorem Length.csetbi (q : SeatNo) (rd : Reg) (ca : Reg) (imm : BitVec 19) : Statement (.csetbi q rd ca imm) :=
  of_major (majorOf_encI ..) (by decide) rfl
theorem Length.candr (q : SeatNo) (rd : Reg) (ca : Reg) (rb : Reg) : Statement (.candr q rd ca rb) :=
  of_major (majorOf_encA ..) (by decide) rfl
theorem Length.cclg (q : SeatNo) (rd : Reg) (ca : Reg) : Statement (.cclg q rd ca) :=
  of_major (majorOf_encA ..) (by decide) rfl
theorem Length.cseal (q : SeatNo) (rd : Reg) (ca : Reg) (cb : Reg) : Statement (.cseal q rd ca cb) :=
  of_major (majorOf_encA ..) (by decide) rfl
theorem Length.cunseal (q : SeatNo) (rd : Reg) (ca : Reg) (cb : Reg) : Statement (.cunseal q rd ca cb) :=
  of_major (majorOf_encA ..) (by decide) rfl
theorem Length.cinvoke (q : SeatNo) (ca : Reg) (cb : Reg) : Statement (.cinvoke q ca cb) :=
  of_major (majorOf_encA ..) (by decide) rfl
theorem Length.b (q : SeatNo) (cond : BitVec 4) (ra : Reg) (rb : Reg) (disp : BitVec 15) : Statement (.b q cond ra rb disp) :=
  of_major (majorOf_encB ..) (by decide) rfl
theorem Length.j (q : SeatNo) (ra : Reg) (imm : BitVec 19) : Statement (.j q ra imm) :=
  of_major (majorOf_encI ..) (by decide) rfl
theorem Length.jal (q : SeatNo) (rd : Reg) (ra : Reg) (imm : BitVec 19) : Statement (.jal q rd ra imm) :=
  of_major (majorOf_encI ..) (by decide) rfl
theorem Length.trap (q : SeatNo) (imm : BitVec 19) : Statement (.trap q imm) :=
  of_major (majorOf_encI ..) (by decide) rfl
theorem Length.ret (q : SeatNo) : Statement (.ret q) :=
  of_major (majorOf_encA ..) (by decide) rfl
theorem Length.endAct (q : SeatNo) : Statement (.endAct q) :=
  of_major (majorOf_encA ..) (by decide) rfl
theorem Length.synci (q : SeatNo) : Statement (.synci q) :=
  of_major (majorOf_encA ..) (by decide) rfl
theorem Length.fenceFull (q : SeatNo) : Statement (.fenceFull q) :=
  of_major (majorOf_encA ..) (by decide) rfl
theorem Length.fenceAcquire (q : SeatNo) : Statement (.fenceAcquire q) :=
  of_major (majorOf_encA ..) (by decide) rfl
theorem Length.fenceRelease (q : SeatNo) : Statement (.fenceRelease q) :=
  of_major (majorOf_encA ..) (by decide) rfl
theorem Length.fencew (q : SeatNo) : Statement (.fencew q) :=
  of_major (majorOf_encA ..) (by decide) rfl
theorem Length.sealsync (q : SeatNo) : Statement (.sealsync q) :=
  of_major (majorOf_encA ..) (by decide) rfl
theorem Length.mapsyncAll (q : SeatNo) : Statement (.mapsyncAll q) :=
  of_major (majorOf_encA ..) (by decide) rfl
theorem Length.mapsyncMap (q : SeatNo) (ra : Reg) : Statement (.mapsyncMap q ra) :=
  of_major (majorOf_encA ..) (by decide) rfl
theorem Length.mapsyncPage (q : SeatNo) (ra : Reg) (rb : Reg) : Statement (.mapsyncPage q ra rb) :=
  of_major (majorOf_encA ..) (by decide) rfl
theorem Length.doorbell (q : SeatNo) (rd : Reg) (ra : Reg) (rb : Reg) : Statement (.doorbell q rd ra rb) :=
  of_major (majorOf_encA ..) (by decide) rfl
theorem Length.callg (q : SeatNo) (ra : Reg) (imm : BitVec 19) : Statement (.callg q ra imm) :=
  of_major (majorOf_encI ..) (by decide) rfl
theorem Length.lopen (q : SeatNo) (rd : Reg) (ca : Reg) (cb : Reg) (aux : Reg) : Statement (.lopen q rd ca cb aux) :=
  of_major (majorOf_encA ..) (by decide) rfl
theorem Length.lclose (q : SeatNo) (rd : Reg) (ca : Reg) : Statement (.lclose q rd ca) :=
  of_major (majorOf_encA ..) (by decide) rfl
theorem Length.lput (q : SeatNo) (rd : Reg) (ca : Reg) (rb : Reg) : Statement (.lput q rd ca rb) :=
  of_major (majorOf_encA ..) (by decide) rfl
theorem Length.ltake (q : SeatNo) (rd : Reg) (ca : Reg) (rb : Reg) (aux : Reg) : Statement (.ltake q rd ca rb aux) :=
  of_major (majorOf_encA ..) (by decide) rfl
theorem Length.lgive (q : SeatNo) (rd : Reg) (ra : Reg) (rb : Reg) : Statement (.lgive q rd ra rb) :=
  of_major (majorOf_encA ..) (by decide) rfl
theorem Length.larm (q : SeatNo) (rd : Reg) (ca : Reg) (rb : Reg) : Statement (.larm q rd ca rb) :=
  of_major (majorOf_encA ..) (by decide) rfl
theorem Length.lstat (q : SeatNo) (rd : Reg) (ca : Reg) (aux : Reg) : Statement (.lstat q rd ca aux) :=
  of_major (majorOf_encA ..) (by decide) rfl
theorem Length.sysrd (q : SeatNo) (rd : Reg) (sw : BitVec 12) : Statement (.sysrd q rd sw) :=
  of_major (majorOf_encS ..) (by decide) rfl
theorem Length.syswr (q : SeatNo) (ra : Reg) (sw : BitVec 12) : Statement (.syswr q ra sw) :=
  of_major (majorOf_encS ..) (by decide) rfl
theorem Length.wayen (q : SeatNo) (rd : Reg) (ra : Reg) (rb : Reg) : Statement (.wayen q rd ra rb) :=
  of_major (majorOf_encA ..) (by decide) rfl
theorem Length.vadd (q : SeatNo) (vd : Reg) (va : Reg) (vb : Reg) : Statement (.vadd q vd va vb) :=
  of_major (majorOf_encA ..) (by decide) rfl
theorem Length.vsub (q : SeatNo) (vd : Reg) (va : Reg) (vb : Reg) : Statement (.vsub q vd va vb) :=
  of_major (majorOf_encA ..) (by decide) rfl
theorem Length.vand (q : SeatNo) (vd : Reg) (va : Reg) (vb : Reg) : Statement (.vand q vd va vb) :=
  of_major (majorOf_encA ..) (by decide) rfl
theorem Length.vor (q : SeatNo) (vd : Reg) (va : Reg) (vb : Reg) : Statement (.vor q vd va vb) :=
  of_major (majorOf_encA ..) (by decide) rfl
theorem Length.vxor (q : SeatNo) (vd : Reg) (va : Reg) (vb : Reg) : Statement (.vxor q vd va vb) :=
  of_major (majorOf_encA ..) (by decide) rfl
theorem Length.vandn (q : SeatNo) (vd : Reg) (va : Reg) (vb : Reg) : Statement (.vandn q vd va vb) :=
  of_major (majorOf_encA ..) (by decide) rfl
theorem Length.vcmpeq (q : SeatNo) (rd : Reg) (va : Reg) (vb : Reg) : Statement (.vcmpeq q rd va vb) :=
  of_major (majorOf_encA ..) (by decide) rfl
theorem Length.vaddw (q : SeatNo) (vd : Reg) (va : Reg) (vb : Reg) : Statement (.vaddw q vd va vb) :=
  of_major (majorOf_encA ..) (by decide) rfl
theorem Length.vsubw (q : SeatNo) (vd : Reg) (va : Reg) (vb : Reg) : Statement (.vsubw q vd va vb) :=
  of_major (majorOf_encA ..) (by decide) rfl
theorem Length.vshlw (q : SeatNo) (vd : Reg) (va : Reg) (rb : Reg) : Statement (.vshlw q vd va rb) :=
  of_major (majorOf_encA ..) (by decide) rfl
theorem Length.vshrw (q : SeatNo) (vd : Reg) (va : Reg) (rb : Reg) : Statement (.vshrw q vd va rb) :=
  of_major (majorOf_encA ..) (by decide) rfl
theorem Length.vld (q : SeatNo) (rd : Reg) (m : MemOp) : Statement (.vld q rd m) :=
  of_major (majorOf_encM ..) (by decide) rfl
theorem Length.vst (q : SeatNo) (rd : Reg) (m : MemOp) : Statement (.vst q rd m) :=
  of_major (majorOf_encM ..) (by decide) rfl
theorem Length.vins (q : SeatNo) (vd : Reg) (ra : Reg) (aux : Reg) : Statement (.vins q vd ra aux) :=
  of_major (majorOf_encA ..) (by decide) rfl
theorem Length.vext (q : SeatNo) (rd : Reg) (va : Reg) (aux : Reg) : Statement (.vext q rd va aux) :=
  of_major (majorOf_encA ..) (by decide) rfl
theorem Length.vsplat (q : SeatNo) (vd : Reg) (ra : Reg) : Statement (.vsplat q vd ra) :=
  of_major (majorOf_encA ..) (by decide) rfl
theorem Length.cxenc (q : SeatNo) (vd : Reg) (va : Reg) (cb : Reg) : Statement (.cxenc q vd va cb) :=
  of_major (majorOf_encA ..) (by decide) rfl
theorem Length.cxdec (q : SeatNo) (vd : Reg) (va : Reg) (cb : Reg) : Statement (.cxdec q vd va cb) :=
  of_major (majorOf_encA ..) (by decide) rfl
theorem Length.dgs256 (q : SeatNo) (vd : Reg) (va : Reg) : Statement (.dgs256 q vd va) :=
  of_major (majorOf_encA ..) (by decide) rfl
theorem Length.pmul18 (q : SeatNo) (vd : Reg) (va : Reg) (vb : Reg) : Statement (.pmul18 q vd va vb) :=
  of_major (majorOf_encA ..) (by decide) rfl
theorem Length.pmac18 (q : SeatNo) (vd : Reg) (va : Reg) (vb : Reg) : Statement (.pmac18 q vd va vb) :=
  of_major (majorOf_encA ..) (by decide) rfl
theorem Length.tbLoRead (q : SeatNo) (rd : Reg) : Statement (.tbLoRead q rd) :=
  of_major (majorOf_encS ..) (by decide) rfl
theorem Length.sealLiveWrite (q : SeatNo) (ra : Reg) : Statement (.sealLiveWrite q ra) :=
  of_major (majorOf_encS ..) (by decide) rfl
theorem Length.regpass (q : SeatNo) (ra : Reg) : Statement (.regpass q ra) :=
  of_major (majorOf_encS ..) (by decide) rfl
theorem Length.registerPass (c : LeafNo) : Statement (.registerPass c) := of_none rfl rfl
theorem Length.svXferLoad (q : SeatNo) (ra : Reg) : Statement (.svXferLoad q ra) :=
  of_major (majorOf_encS ..) (by decide) rfl
theorem Length.svXferStore (q : SeatNo) (ra : Reg) : Statement (.svXferStore q ra) :=
  of_major (majorOf_encS ..) (by decide) rfl
theorem Length.bankSelFetch (q : SeatNo) (ra : Reg) : Statement (.bankSelFetch q ra) :=
  of_major (majorOf_encS ..) (by decide) rfl
theorem Length.bankSelPlace (q : SeatNo) (ra : Reg) : Statement (.bankSelPlace q ra) :=
  of_major (majorOf_encS ..) (by decide) rfl
theorem Length.bankDataWrite (q : SeatNo) (ra : Reg) : Statement (.bankDataWrite q ra) :=
  of_major (majorOf_encS ..) (by decide) rfl
theorem Length.loadData (q : SeatNo) (ra : Reg) : Statement (.loadData q ra) :=
  of_major (majorOf_encS ..) (by decide) rfl
theorem Length.saveData (q : SeatNo) (ra : Reg) : Statement (.saveData q ra) :=
  of_major (majorOf_encS ..) (by decide) rfl
theorem Length.loadCode (q : SeatNo) (ra : Reg) : Statement (.loadCode q ra) :=
  of_major (majorOf_encS ..) (by decide) rfl
theorem Length.release (q : SeatNo) (ra : Reg) : Statement (.release q ra) :=
  of_major (majorOf_encS ..) (by decide) rfl
theorem Length.laneBaseWrite (q : SeatNo) (ra : Reg) : Statement (.laneBaseWrite q ra) :=
  of_major (majorOf_encS ..) (by decide) rfl
theorem Length.setasideSet (q : SeatNo) (ra : Reg) : Statement (.setasideSet q ra) :=
  of_major (majorOf_encS ..) (by decide) rfl
theorem Length.setasideClear (q : SeatNo) (ra : Reg) : Statement (.setasideClear q ra) :=
  of_major (majorOf_encS ..) (by decide) rfl
theorem Length.paddleReq (q : SeatNo) (ra : Reg) : Statement (.paddleReq q ra) :=
  of_major (majorOf_encS ..) (by decide) rfl
theorem Length.measExtend (q : SeatNo) (ra : Reg) : Statement (.measExtend q ra) :=
  of_major (majorOf_encS ..) (by decide) rfl
theorem Length.ethModeWrite (q : SeatNo) (ra : Reg) : Statement (.ethModeWrite q ra) :=
  of_major (majorOf_encS ..) (by decide) rfl
theorem Length.fenceDescriptorWrite (q : SeatNo) (rd : Reg) (m : MemOp) : Statement (.fenceDescriptorWrite q rd m) :=
  of_major (majorOf_encM ..) (by decide) rfl
theorem Length.activationEntry (q : SeatNo) : Statement (.activationEntry q) :=
  of_none rfl rfl
theorem Length.preemption (q : SeatNo) : Statement (.preemption q) := of_none rfl rfl
theorem Length.activationOverrun (lane : LaneNo) : Statement (.activationOverrun lane) :=
  of_none rfl rfl
theorem Length.residenceTimeout (q : SeatNo) : Statement (.residenceTimeout q) :=
  of_none rfl rfl
theorem Length.stowComplete (q : SeatNo) : Statement (.stowComplete q) := of_none rfl rfl
theorem Length.restoreComplete (q : SeatNo) : Statement (.restoreComplete q) :=
  of_none rfl rfl
theorem Length.stowDelivery (q : SeatNo) : Statement (.stowDelivery q) := of_none rfl rfl
theorem Length.pairMismatchDelivery (q : SeatNo) : Statement (.pairMismatchDelivery q) :=
  of_none rfl rfl
theorem Length.pairWaitExpiry (c : LeafNo) (buf : Fin 8) : Statement (.pairWaitExpiry c buf) :=
  of_none rfl rfl
theorem Length.applySubstitution (c : LeafNo) : Statement (.applySubstitution c) :=
  of_none rfl rfl
theorem Length.sparePowerOn (c : LeafNo) : Statement (.sparePowerOn c) := of_none rfl rfl
theorem Length.strokeBoundary (x : CoxNo) : Statement (.strokeBoundary x) :=
  of_none rfl rfl
theorem Length.pickReturn (x : CoxNo) (lane : LaneNo) : Statement (.pickReturn x lane) :=
  of_none rfl rfl
theorem Length.coxAdd (x : CoxNo) (rd : Reg) (ra : Reg) (rb : Reg) : Statement (.coxAdd x rd ra rb) :=
  of_none rfl rfl
theorem Length.coxSub (x : CoxNo) (rd : Reg) (ra : Reg) (rb : Reg) : Statement (.coxSub x rd ra rb) :=
  of_none rfl rfl
theorem Length.coxAnd (x : CoxNo) (rd : Reg) (ra : Reg) (rb : Reg) : Statement (.coxAnd x rd ra rb) :=
  of_none rfl rfl
theorem Length.coxOr (x : CoxNo) (rd : Reg) (ra : Reg) (rb : Reg) : Statement (.coxOr x rd ra rb) :=
  of_none rfl rfl
theorem Length.coxXor (x : CoxNo) (rd : Reg) (ra : Reg) (rb : Reg) : Statement (.coxXor x rd ra rb) :=
  of_none rfl rfl
theorem Length.shl (x : CoxNo) (rd : Reg) (ra : Reg) (imm : BitVec 18) : Statement (.shl x rd ra imm) :=
  of_none rfl rfl
theorem Length.shr (x : CoxNo) (rd : Reg) (ra : Reg) (imm : BitVec 18) : Statement (.shr x rd ra imm) :=
  of_none rfl rfl
theorem Length.coxAddi (x : CoxNo) (rd : Reg) (ra : Reg) (imm : BitVec 18) : Statement (.coxAddi x rd ra imm) :=
  of_none rfl rfl
theorem Length.ld (x : CoxNo) (rd : Reg) (ra : Reg) (imm : BitVec 18) : Statement (.ld x rd ra imm) :=
  of_none rfl rfl
theorem Length.st (x : CoxNo) (rd : Reg) (ra : Reg) (imm : BitVec 18) : Statement (.st x rd ra imm) :=
  of_none rfl rfl
theorem Length.beq (x : CoxNo) (ra : Reg) (rb : Reg) (target : BitVec 13) : Statement (.beq x ra rb target) :=
  of_none rfl rfl
theorem Length.bne (x : CoxNo) (ra : Reg) (rb : Reg) (target : BitVec 13) : Statement (.bne x ra rb target) :=
  of_none rfl rfl
theorem Length.bltu (x : CoxNo) (ra : Reg) (rb : Reg) (target : BitVec 13) : Statement (.bltu x ra rb target) :=
  of_none rfl rfl
theorem Length.jmp (x : CoxNo) (target : BitVec 13) : Statement (.jmp x target) :=
  of_none rfl rfl
theorem Length.bnxt (x : CoxNo) (target : BitVec 13) : Statement (.bnxt x target) :=
  of_none rfl rfl
theorem Length.waits (x : CoxNo) (rd : Reg) : Statement (.waits x rd) := of_none rfl rfl
theorem Length.idle (x : CoxNo) : Statement (.idle x) := of_none rfl rfl
theorem Length.strk (x : CoxNo) (rd : Reg) : Statement (.strk x rd) := of_none rfl rfl
theorem Length.pend (x : CoxNo) (rd : Reg) (ra : Reg) : Statement (.pend x rd ra) :=
  of_none rfl rfl
theorem Length.pick (x : CoxNo) (rd : Reg) (ra : Reg) : Statement (.pick x rd ra) :=
  of_none rfl rfl
theorem Length.seatst (x : CoxNo) (rd : Reg) (ra : Reg) : Statement (.seatst x rd ra) :=
  of_none rfl rfl
theorem Length.post (x : CoxNo) (rd : Reg) (ra : Reg) (rb : Reg) : Statement (.post x rd ra rb) :=
  of_none rfl rfl
theorem Length.postp (x : CoxNo) (rd : Reg) (ra : Reg) (rb : Reg) : Statement (.postp x rd ra rb) :=
  of_none rfl rfl
theorem Length.relay (x : CoxNo) (rd : Reg) (ra : Reg) (rb : Reg) : Statement (.relay x rd ra rb) :=
  of_none rfl rfl
theorem Length.taker (x : CoxNo) (rd : Reg) : Statement (.taker x rd) := of_none rfl rfl
theorem Length.cnt (x : CoxNo) (imm : BitVec 18) : Statement (.cnt x imm) :=
  of_none rfl rfl
theorem Length.frameReceive (p : PortNo) (octets : List Octet) (fcsGood : Bool) : Statement (.frameReceive p octets fcsGood) :=
  of_none rfl rfl
theorem Length.frameTransmit (p : PortNo) (lane : LaneNo) : Statement (.frameTransmit p lane) :=
  of_none rfl rfl
theorem Length.hostPut (record : List Octet) : Statement (.hostPut record) :=
  of_none rfl rfl
theorem Length.heldMessageRetry (lane : LaneNo) : Statement (.heldMessageRetry lane) :=
  of_none rfl rfl
theorem Length.laneTimeout (lane : LaneNo) : Statement (.laneTimeout lane) :=
  of_none rfl rfl
theorem Length.steeringSwitch : Statement (.steeringSwitch) := of_none rfl rfl
theorem Length.imbalanceEvent (p : PortNo) (bucket : BitVec 12) : Statement (.imbalanceEvent p bucket) :=
  of_none rfl rfl
theorem Length.descriptorFetch (ch : ChannelNo) : Statement (.descriptorFetch ch) :=
  of_none rfl rfl
theorem Length.copy (ch : ChannelNo) : Statement (.copy ch) := of_none rfl rfl
theorem Length.proof (ch : ChannelNo) : Statement (.proof ch) := of_none rfl rfl
theorem Length.zero (ch : ChannelNo) : Statement (.zero ch) := of_none rfl rfl
theorem Length.tagSweep (ch : ChannelNo) : Statement (.tagSweep ch) := of_none rfl rfl
theorem Length.descriptorCompletion (ch : ChannelNo) : Statement (.descriptorCompletion ch) :=
  of_none rfl rfl
theorem Length.channelEnable (q : SeatNo) (ch : ChannelNo) (v : Word) : Statement (.channelEnable q ch v) :=
  of_none rfl rfl
theorem Length.channelPause (q : SeatNo) (ch : ChannelNo) (v : Word) : Statement (.channelPause q ch v) :=
  of_none rfl rfl
theorem Length.channelPaused (ch : ChannelNo) : Statement (.channelPaused ch) :=
  of_none rfl rfl
theorem Length.channelResume (q : SeatNo) (ch : ChannelNo) (v : Word) : Statement (.channelResume q ch v) :=
  of_none rfl rfl
theorem Length.galleyDoorbell (q : SeatNo) (ch : ChannelNo) (v : Word) : Statement (.galleyDoorbell q ch v) :=
  of_none rfl rfl
theorem Length.modadd (unit : UnitCode) (lane : LaneNo) : Statement (.modadd unit lane) :=
  of_none rfl rfl
theorem Length.modmul (unit : UnitCode) (lane : LaneNo) : Statement (.modmul unit lane) :=
  of_none rfl rfl
theorem Length.modexp (unit : UnitCode) (lane : LaneNo) : Statement (.modexp unit lane) :=
  of_none rfl rfl
theorem Length.rsaPriv (unit : UnitCode) (lane : LaneNo) : Statement (.rsaPriv unit lane) :=
  of_none rfl rfl
theorem Length.rsaPub (unit : UnitCode) (lane : LaneNo) : Statement (.rsaPub unit lane) :=
  of_none rfl rfl
theorem Length.aesEcb (unit : UnitCode) (lane : LaneNo) : Statement (.aesEcb unit lane) :=
  of_none rfl rfl
theorem Length.aesCbc (unit : UnitCode) (lane : LaneNo) : Statement (.aesCbc unit lane) :=
  of_none rfl rfl
theorem Length.aesCtr (unit : UnitCode) (lane : LaneNo) : Statement (.aesCtr unit lane) :=
  of_none rfl rfl
theorem Length.aesGcm (unit : UnitCode) (lane : LaneNo) : Statement (.aesGcm unit lane) :=
  of_none rfl rfl
theorem Length.aesCmac (unit : UnitCode) (lane : LaneNo) : Statement (.aesCmac unit lane) :=
  of_none rfl rfl
theorem Length.tdesEcb (unit : UnitCode) (lane : LaneNo) : Statement (.tdesEcb unit lane) :=
  of_none rfl rfl
theorem Length.tdesCbc (unit : UnitCode) (lane : LaneNo) : Statement (.tdesCbc unit lane) :=
  of_none rfl rfl
theorem Length.tdesCmac (unit : UnitCode) (lane : LaneNo) : Statement (.tdesCmac unit lane) :=
  of_none rfl rfl
theorem Length.pinXlate (unit : UnitCode) (lane : LaneNo) : Statement (.pinXlate unit lane) :=
  of_none rfl rfl
theorem Length.dukptPin (unit : UnitCode) (lane : LaneNo) : Statement (.dukptPin unit lane) :=
  of_none rfl rfl
theorem Length.dukptDec (unit : UnitCode) (lane : LaneNo) : Statement (.dukptDec unit lane) :=
  of_none rfl rfl
theorem Length.random (unit : UnitCode) (lane : LaneNo) : Statement (.random unit lane) :=
  of_none rfl rfl
theorem Length.kgen (unit : UnitCode) (lane : LaneNo) : Statement (.kgen unit lane) :=
  of_none rfl rfl
theorem Length.kimport (unit : UnitCode) (lane : LaneNo) : Statement (.kimport unit lane) :=
  of_none rfl rfl
theorem Length.kexport (unit : UnitCode) (lane : LaneNo) : Statement (.kexport unit lane) :=
  of_none rfl rfl
theorem Length.kdel (unit : UnitCode) (lane : LaneNo) : Statement (.kdel unit lane) :=
  of_none rfl rfl
theorem Length.kinfo (unit : UnitCode) (lane : LaneNo) : Statement (.kinfo unit lane) :=
  of_none rfl rfl
theorem Length.kseal (unit : UnitCode) (lane : LaneNo) : Statement (.kseal unit lane) :=
  of_none rfl rfl
theorem Length.sha (unit : UnitCode) (lane : LaneNo) : Statement (.sha unit lane) :=
  of_none rfl rfl
theorem Length.hmacGen (unit : UnitCode) (lane : LaneNo) : Statement (.hmacGen unit lane) :=
  of_none rfl rfl
theorem Length.hmacVer (unit : UnitCode) (lane : LaneNo) : Statement (.hmacVer unit lane) :=
  of_none rfl rfl
theorem Length.parse (unit : UnitCode) (lane : LaneNo) : Statement (.parse unit lane) :=
  of_none rfl rfl
theorem Length.engineResponse (unit : UnitCode) (lane : LaneNo) : Statement (.engineResponse unit lane) :=
  of_none rfl rfl
theorem Length.entropyFailure (src : Fin 2) : Statement (.entropyFailure src) :=
  of_none rfl rfl
theorem Length.drbgReseed (inst : Fin 4) : Statement (.drbgReseed inst) := of_none rfl rfl
theorem Length.caseScrub (a : Word) (errors : BitErrors) : Statement (.caseScrub a errors) :=
  of_none rfl rfl
theorem Length.rowRepair (a : Word) : Statement (.rowRepair a) := of_none rfl rfl
theorem Length.bulkPatrol (stripe : BitVec 28) (found : StripeCheck) : Statement (.bulkPatrol stripe found) :=
  of_none rfl rfl
theorem Length.hostReadTimeout (reader : HostReader) : Statement (.hostReadTimeout reader) :=
  of_none rfl rfl
theorem Length.counterDump : Statement (.counterDump) := of_none rfl rfl
theorem Length.dumpRecordComplete : Statement (.dumpRecordComplete) := of_none rfl rfl
theorem Length.sampleTag (q : SeatNo) : Statement (.sampleTag q) := of_none rfl rfl
theorem Length.sampleRecord (q : SeatNo) : Statement (.sampleRecord q) := of_none rfl rfl
theorem Length.feedStateChange (feed : Fin 2) (st : FeedState) : Statement (.feedStateChange feed st) :=
  of_none rfl rfl
theorem Length.monitorOutOfRange (m : Monitor) : Statement (.monitorOutOfRange m) :=
  of_none rfl rfl
theorem Length.thermalLimit (sensor : Fin 112) (reading : Int) : Statement (.thermalLimit sensor reading) :=
  of_none rfl rfl
theorem Length.throttleStart (sensor : Fin 112) (reading : Int) : Statement (.throttleStart sensor reading) :=
  of_none rfl rfl
theorem Length.throttleEnd (readings : List Int) : Statement (.throttleEnd readings) :=
  of_none rfl rfl
theorem Length.holdAssert : Statement (.holdAssert) := of_none rfl rfl
theorem Length.holdClear : Statement (.holdClear) := of_none rfl rfl
theorem Length.paddleCourseSwitch : Statement (.paddleCourseSwitch) := of_none rfl rfl
theorem Length.paddleExit : Statement (.paddleExit) := of_none rfl rfl
theorem Length.paddleExitComplete : Statement (.paddleExitComplete) := of_none rfl rfl
theorem Length.journalSeal (cause : SealCause) : Statement (.journalSeal cause) :=
  of_none rfl rfl
theorem Length.journalSealComplete : Statement (.journalSealComplete) := of_none rfl rfl
theorem Length.dropout : Statement (.dropout) := of_none rfl rfl
theorem Length.readReq (f : Frame) : Statement (.readReq f) := of_none rfl rfl
theorem Length.writeReq (f : Frame) : Statement (.writeReq f) := of_none rfl rfl
theorem Length.segment (f : Frame) : Statement (.segment f) := of_none rfl rfl
theorem Length.transferAbort (f : Frame) : Statement (.transferAbort f) := of_none rfl rfl
theorem Length.transferTimeout (tr : Transport) (mgr : BitVec 8) : Statement (.transferTimeout tr mgr) :=
  of_none rfl rfl
theorem Length.wayenough (f : Frame) : Statement (.wayenough f) := of_none rfl rfl
theorem Length.authRequest (f : Frame) : Statement (.authRequest f) := of_none rfl rfl
theorem Length.authSignature (f : Frame) (signature : List Octet) : Statement (.authSignature f signature) :=
  of_none rfl rfl
theorem Length.authTimeout (tr : Transport) (mgr : BitVec 8) : Statement (.authTimeout tr mgr) :=
  of_none rfl rfl
theorem Length.sessionIdleTimeout (tr : Transport) (mgr : BitVec 8) : Statement (.sessionIdleTimeout tr mgr) :=
  of_none rfl rfl
theorem Length.heartbeat (fp : Fin 2) : Statement (.heartbeat fp) := of_none rfl rfl
theorem Length.busOffRecovery (fp : Fin 2) : Statement (.busOffRecovery fp) :=
  of_none rfl rfl
theorem Length.dictionaryWindowRequest (record : List Octet) : Statement (.dictionaryWindowRequest record) :=
  of_none rfl rfl
theorem Length.windowEventDrop : Statement (.windowEventDrop) := of_none rfl rfl
theorem Length.mirrorDatagram (p : PortNo) (src : List Octet) (payload : List Octet) : Statement (.mirrorDatagram p src payload) :=
  of_none rfl rfl
theorem Length.mirrorNeighbour (p : PortNo) (target : List Octet) : Statement (.mirrorNeighbour p target) :=
  of_none rfl rfl
theorem Length.mailboxSubmit (q : SeatNo) : Statement (.mailboxSubmit q) := of_none rfl rfl
theorem Length.tbSet (f : Frame) : Statement (.tbSet f) := of_none rfl rfl
theorem Length.steerSw (f : Frame) : Statement (.steerSw f) := of_none rfl rfl
theorem Length.image (f : Frame) : Statement (.image f) := of_none rfl rfl
theorem Length.masterKeyGenerate (f : Frame) : Statement (.masterKeyGenerate f) :=
  of_none rfl rfl
theorem Length.masterKeyZeroise (f : Frame) : Statement (.masterKeyZeroise f) :=
  of_none rfl rfl
theorem Length.rootkeyRevoke (f : Frame) : Statement (.rootkeyRevoke f) := of_none rfl rfl
theorem Length.wayenoughWrite (f : Frame) : Statement (.wayenoughWrite f) :=
  of_none rfl rfl
theorem Length.wayenoughLane (lane : LaneNo) : Statement (.wayenoughLane lane) :=
  of_none rfl rfl
theorem Length.wayenoughJob (number : Word) : Statement (.wayenoughJob number) :=
  of_none rfl rfl
theorem Length.wayenoughPlaten (number : Word) : Statement (.wayenoughPlaten number) :=
  of_none rfl rfl
theorem Length.wayenoughChannel (ch : ChannelNo) : Statement (.wayenoughChannel ch) :=
  of_none rfl rfl
theorem Length.wayenoughCompartment (sealv : BitVec 16) : Statement (.wayenoughCompartment sealv) :=
  of_none rfl rfl
theorem Length.wayenoughCrew (x : CoxNo) : Statement (.wayenoughCrew x) := of_none rfl rfl
theorem Length.wayenoughDevice : Statement (.wayenoughDevice) := of_none rfl rfl
theorem Length.wayenoughComplete : Statement (.wayenoughComplete) := of_none rfl rfl
theorem Length.paddleCommand (f : Frame) : Statement (.paddleCommand f) := of_none rfl rfl
theorem Length.changeoverVerify (f : Frame) : Statement (.changeoverVerify f) :=
  of_none rfl rfl
theorem Length.changeoverSwitch (f : Frame) : Statement (.changeoverSwitch f) :=
  of_none rfl rfl
theorem Length.changeoverDiscard (f : Frame) : Statement (.changeoverDiscard f) :=
  of_none rfl rfl
theorem Length.verifyComplete : Statement (.verifyComplete) := of_none rfl rfl
theorem Length.mHold : Statement (.mHold) := of_none rfl rfl
theorem Length.changeoverBoundary : Statement (.changeoverBoundary) := of_none rfl rfl
theorem Length.drainEnd : Statement (.drainEnd) := of_none rfl rfl
theorem Length.proofRequest (f : Frame) : Statement (.proofRequest f) := of_none rfl rfl
theorem Length.proofSheetComplete : Statement (.proofSheetComplete) := of_none rfl rfl
theorem Length.subst (f : Frame) : Statement (.subst f) := of_none rfl rfl
theorem Length.porAssert : Statement (.porAssert) := of_none rfl rfl
theorem Length.porRelease (node : BitVec 7) (en0 : Bool) (en1 : Bool) : Statement (.porRelease node en0 en1) :=
  of_none rfl rfl
theorem Length.bootLaneTimeout : Statement (.bootLaneTimeout) := of_none rfl rfl
theorem Length.tamperDetect (source : TamperSource) : Statement (.tamperDetect source) :=
  of_none rfl rfl
theorem Length.endpointReset : Statement (.endpointReset) := of_none rfl rfl
theorem Length.apertureRead (off : BarOff) (n : BitVec 13) : Statement (.apertureRead off n) :=
  of_none rfl rfl
theorem Length.apertureWrite (off : BarOff) (octets : List Octet) : Statement (.apertureWrite off octets) :=
  of_none rfl rfl
theorem Length.linkUp (p : PortNo) : Statement (.linkUp p) := of_none rfl rfl
theorem Length.refclkLoss : Statement (.refclkLoss) := of_none rfl rfl
theorem Length.tbSyncEdge : Statement (.tbSyncEdge) := of_none rfl rfl
theorem Length.tbOutPulse : Statement (.tbOutPulse) := of_none rfl rfl
theorem Length.bypass : Statement (.bypass) := of_none rfl rfl
theorem Length.idcode : Statement (.idcode) := of_none rfl rfl
theorem Length.samplePreload (preload : List Bool) : Statement (.samplePreload preload) :=
  of_none rfl rfl
theorem Length.extest : Statement (.extest) := of_none rfl rfl
theorem Length.clamp : Statement (.clamp) := of_none rfl rfl
theorem Length.highz : Statement (.highz) := of_none rfl rfl
theorem Length.unassignedOpcode (q : SeatNo) (word : Word) (next : Word) : Statement (.unassignedOpcode q word next) :=
  of_none rfl rfl
theorem Length.thermalClear (readings : List Int) : Statement (.thermalClear readings) :=
  of_none rfl rfl
theorem Length.monitorInRange (m : Monitor) : Statement (.monitorInRange m) :=
  of_none rfl rfl
theorem Length.refclkReturn : Statement (.refclkReturn) := of_none rfl rfl
theorem Length.pcieLinkUp : Statement (.pcieLinkUp) := of_none rfl rfl
theorem Length.linkLoss (p : PortNo) : Statement (.linkLoss p) := of_none rfl rfl
theorem Length.busOff (fp : Fin 2) : Statement (.busOff fp) := of_none rfl rfl
theorem Length.rspHeadWrite (head : BitVec 4) : Statement (.rspHeadWrite head) :=
  of_none rfl rfl

end Sys2Proof.Laws
end

