-- ==== Sys2Proof/Laws/Seat.lean ====
section
/-! SUPPORT. Laws of seats, banks and registers, and of the frame of one seat instruction. -/

namespace Sys2Proof.Machine

/-- Reading a seat after another is set. -/
theorem getSeat_setSeat (s : State) (q p : Nat) (x : Seat) :
    getSeat (setSeat s q x) p = if p = q then x else getSeat s p := smGet_smSet ..

@[simp] theorem getSeat_setSeat_self (s : State) (q : Nat) (x : Seat) : getSeat (setSeat s q x) q = x := by
  simp [getSeat_setSeat]

theorem getSeat_modSeat (s : State) (q p : Nat) (f : Seat → Seat) :
    getSeat (modSeat s q f) p = if p = q then f (getSeat s q) else getSeat s p := getSeat_setSeat ..

@[simp] theorem getSeat_modSeat_self (s : State) (q : Nat) (f : Seat → Seat) :
    getSeat (modSeat s q f) q = f (getSeat s q) := getSeat_setSeat_self ..

@[simp] theorem setSeat_setSeat (s : State) (q : Nat) (x y : Seat) : setSeat (setSeat s q x) q y = setSeat s q y := by
  simp [setSeat]

/-- Two changes of one seat are one. -/
theorem modSeat_modSeat (s : State) (q : Nat) (f g : Seat → Seat) :
    modSeat (modSeat s q f) q g = modSeat s q (g ∘ f) := by
  simp [modSeat]

@[simp] theorem getBank_setBank_self (x : Seat) (b : Nat) (v : Bank) : getBank (setBank x b v) b = v := smGet_smSet_self ..

theorem getBank_setBank (x : Seat) (b c : Nat) (v : Bank) :
    getBank (setBank x b v) c = if c = b then v else getBank x c := smGet_smSet ..

@[simp] theorem setBank_status (x : Seat) (b : Nat) (v : Bank) : (setBank x b v).status = x.status := rfl

@[simp] theorem curBank_modBank (x : Seat) (f : Bank → Bank) : curBank (modBank x x.status.bank f) = f (curBank x) := by
  simp [curBank, modBank]

@[simp] theorem curBank_modCur (s : State) (q : Nat) (f : Bank → Bank) :
    curBank (getSeat (modCur s q f) q) = f (curBank (getSeat s q)) := by
  simp [modCur]

@[simp] theorem status_modCur (s : State) (q : Nat) (f : Bank → Bank) :
    (getSeat (modCur s q f) q).status = (getSeat s q).status := by
  simp [modCur, modBank]

/-- Two changes of the bank in use are one. -/
theorem modCur_modCur (s : State) (q : Nat) (f g : Bank → Bank) : modCur (modCur s q f) q g = modCur s q (g ∘ f) := by
  unfold modCur
  rw [modSeat_modSeat]
  congr 1
  funext x
  simp [modBank, setBank, getBank]

theorem bankW_bankSetW (b : Bank) (r k : Nat) (v : Word) :
    bankW (bankSetW b r v) k = if k = r ∧ r ≠ 0 then v else bankW b k := by
  unfold bankW bankSetW
  by_cases hr : r = 0
  · simp [hr]
  · by_cases hk : k = 0
    · simp [hk, Ne.symm hr]
    · simp [hk, hr, smGet_smSet]

theorem bankC_bankSetC (b : Bank) (r k : Nat) (v : Cap) :
    bankC (bankSetC b r v) k = if k = r ∧ r ≠ 0 then v else bankC b k := by
  unfold bankC bankSetC
  by_cases hr : r = 0
  · simp [hr]
  · by_cases hk : k = 0
    · simp [hk, Ne.symm hr]
    · simp [hk, hr, smGet_smSet]

/-- Reading a word register after a write of one: w0 discards the write (05 R141). -/
theorem wGet_wSet (s : State) (q r k : Nat) (v : Word) :
    wGet (wSet s q r v) q k = if k = r ∧ r ≠ 0 then v else wGet s q k := by
  simp [wGet, wSet, bankW_bankSetW]

/-- Reading a capability register after a write of one: c0 discards the write (02 R30). -/
theorem cGet_cSet (s : State) (q r k : Nat) (v : Cap) :
    cGet (cSet s q r v) q k = if k = r ∧ r ≠ 0 then v else cGet s q k := by
  simp [cGet, cSet, bankC_bankSetC]

theorem counterAdd_eq (s : State) (off i n : Nat) :
    counterAdd s off i n = { s with counters := (counterAdd s off i n).counters } := rfl

/-- Counting an event of a seat changes counters only. -/
theorem seatCount_eq (s : State) (q i : Nat) : ∃ c, seatCount s q i = { s with counters := c } := by
  unfold seatCount
  simp only
  split
  · exact ⟨_, rfl⟩
  · exact ⟨s.counters, rfl⟩

@[simp] theorem quiet_counters (q : Nat) (s : State) (c : SMap Nat) : quiet q { s with counters := c } = quiet q s := rfl

@[simp] theorem quiet_seatCount (q : Nat) (s : State) (p i : Nat) : quiet q (seatCount s p i) = quiet q s := by
  obtain ⟨c, h⟩ := seatCount_eq s p i
  rw [h, quiet_counters]

theorem quiet_samples (q : Nat) (s : State) (f : Seat → Seat) (h : ∀ x, { f x with samples := [] } = { x with samples := [] }) :
    quiet q (modSeat s q f) = quiet q s := by
  unfold quiet
  rw [modSeat_modSeat]
  have : ((fun x : Seat => { x with samples := [] }) ∘ f) = fun x : Seat => { x with samples := [] } := funext h
  rw [this]

@[simp] theorem quiet_sampleKeep (q : Nat) (s : State) (y : Sample) : quiet q (sampleKeep s q y) = quiet q s := by
  unfold sampleKeep
  split
  · simp
  · exact quiet_samples q s _ fun _ => rfl

/-- Retirement at the next instruction. -/
theorem retire_advance (q len b : Nat) (d : Done) (h : d.next = .advance) :
    quiet q (retire q len b d) = quiet q (nextInstr q len d.st) := by
  have e : dropProgress (pcSet d.st q ((pcOf d.st q + len) % space36)) q = nextInstr q len d.st := by
    unfold dropProgress pcSet pccSet nextInstr goOn
    rw [modCur_modCur]
    simp only [modCur, modSeat, pccGet, curBank]
    rfl
  unfold retire
  simp only [h, e]
  split <;> simp

/-- Retirement at a jump's target. -/
theorem retire_jump (q len b a : Nat) (d : Done) (h : d.next = .jump a) :
    quiet q (retire q len b d) = quiet q (goOn q a d.st) := by
  have e : dropProgress (pcSet d.st q (a % space36)) q = goOn q a d.st := by
    unfold dropProgress pcSet pccSet goOn
    rw [modCur_modCur]
    simp only [modCur, modSeat, pccGet, curBank]
    rfl
  unfold retire
  simp only [h, e]
  split <;> simp

/-- Retirement of an instruction that has placed the seat itself. -/
theorem retire_placed (q len b : Nat) (d : Done) (h : d.next = .placed) :
    quiet q (retire q len b d) = quiet q d.st := by
  unfold retire
  simp only [h]
  split <;> simp

/-- An instruction that waits to execute again has not retired. -/
theorem retire_blocked (q len b : Nat) (d : Done) (h : d.next = .blocked) : retire q len b d = d.st := by
  unfold retire
  rw [h]

/-- An instruction that does not stop part-way leaves its sample, if it is tagged, and nothing else. -/
theorem quiet_sampleDone (q : Nat) (s : State) (y : Sample) (d : Done) (h : ∀ p, d.next ≠ .stopped p) :
    quiet q (sampleDone s q y d) = quiet q s := by
  unfold sampleDone
  cases hn : d.next with
  | stopped p => exact absurd hn (h p)
  | blocked => rfl
  | _ => exact quiet_sampleKeep ..

/-- Everything an issued and permitted instruction does when its body completes. -/
theorem seatRun_retires {s s1 : State} {q : SeatNo} {i : Instr} {permitted : Status → Bool}
    {body : State → Except (Trap × State) Done} {d : Done} (hi : Issues s q i s1)
    (hp : permitted (statusOfSeat s1 q.val) = true) (hb : body s1 = .ok d) (hn : ∀ p, d.next ≠ .stopped p)
    (ho : pairOver d.st q.val = false) :
    ∃ t b, seatRun q i permitted body s = .next t ∧ quiet q.val t = quiet q.val (retire q.val (seatLen i) b d) := by
  obtain ⟨hc, -, hl, p, ha, rfl⟩ := hi
  refine ⟨_, (sampleOf s q.val (seatWord i)).bank, rfl, ?_⟩
  simp only [seatInstr, hc, ha, hl, hp, hb]
  simp only [ho, Bool.not_true, Bool.false_or, Bool.false_eq_true, if_false]
  split
  · exact quiet_sampleDone _ _ _ _ hn
  · rfl

/-- An instruction that only changes registers and advances. -/
theorem seatRun_done {s s1 r : State} {q : SeatNo} {i : Instr} {permitted : Status → Bool}
    {body : State → Except (Trap × State) Done} (hi : Issues s q i s1)
    (hp : permitted (statusOfSeat s1 q.val) = true) (hb : body s1 = done r)
    (ho : pairOver r q.val = false) :
    ∃ t, seatRun q i permitted body s = .next t ∧ quiet q.val t = quiet q.val (nextInstr q.val (seatLen i) r) := by
  obtain ⟨t, b, ht, hq⟩ := seatRun_retires hi hp hb (by intro p h; cases h) ho
  exact ⟨t, ht, hq.trans (retire_advance _ _ _ _ rfl)⟩

end Sys2Proof.Machine
end

