-- ==== Sys2Proof/Machine/Stripes.lean ====
section
/-! DEFINITION. A bulk stripe as DRAM holds it (10 R329 to R331) and where it lies (R337). State holds a stripe's words, tags,
generation and epoch and the bulk key, which fix its image. -/

namespace Sys2Proof.Machine

/-- The channel of stripe n (R337). -/
def stripeChannel (n : Nat) : Nat :=
  let f := fun lo => n / 2 ^ lo % 16
  f 0 ^^^ f 4 ^^^ f 8 ^^^ f 12

/-- The bank of stripe n within its channel (R337). -/
def stripeBank (n : Nat) : Nat :=
  let f := fun lo => n / 2 ^ lo % 16
  f 4 ^^^ f 16 ^^^ f 24

/-- The position of stripe n within its channel and bank (R337). -/
def stripePosition (n : Nat) : Nat := n / 256

/-- The 145 bits of granule j of stripe n, the first the most significant: four words, then the tag (R329). The tag of a
poisoned stripe does not show here: the image is what was last written. -/
def granuleBits (m : Mem) (n j : Nat) : Nat :=
  let a := bulkBase + 40 * n + 4 * j
  (((List.range 4).map fun i => (memWord m (a + i)).toNat).foldl (fun x w => x * 2 ^ 36 + w) 0) * 2
    + (if smGet false m.tags (a / 4) then 1 else 0)

/-- The 182-octet plaintext of stripe n: ten granules and six bits zero (R329). -/
def stripePlain (m : Mem) (n : Nat) : List Octet :=
  beOctets 182 (64 * ((List.range 10).foldl (fun x j => x * 2 ^ 145 + granuleBits m n j) 0))

/-- The nonce of a stripe's write: number, generation, epoch (R331 step 2). -/
def stripeNonce (n g e : Nat) : List Octet := beOctets 4 n ++ beOctets 6 g ++ beOctets 2 e

/-- The first 8 octets of the GCM tag of a ciphertext (R331 steps 3, 4): the nonce is the additional data too. -/
def stripeMac (key : List Octet) (n g e : Nat) (ct : List Octet) : List Octet :=
  let iv := stripeNonce n g e
  (gcmTag key iv iv ct).take 8

/-- The 192 octets of stripe n: ciphertext, epoch, MAC (R329, R331). An unwritten stripe has none (R330). -/
def stripeImage (s : State) (n : Nat) : Option (List Octet) :=
  let g := smGet 0 s.mem.gen n
  let e := smGet 0 s.mem.epoch n
  let ct := gcmCrypt s.custody.bulkKey (stripeNonce n g e) (stripePlain s.mem n)
  if g = 0 then none else some (ct ++ beOctets 2 e ++ stripeMac s.custody.bulkKey n g e ct)

/-- The controller's check of an image against the generation of the metadata entry: the plaintext, or none where the MAC fails
(R331, R334). -/
def openStripe (key : List Octet) (n g : Nat) (image : List Octet) : Option (List Octet) :=
  let ct := image.take 182
  let e := beNat ((image.drop 182).take 2)
  if (image.drop 184).take 8 = stripeMac key n g e ct then some (gcmCrypt key (stripeNonce n g e) ct) else none

/-- The metadata entry of stripe n, without its check bits: the generation, most significant octet first (R330). -/
def metadataOctets (s : State) (n : Nat) : List Octet := beOctets 6 (smGet 0 s.mem.gen n)

end Sys2Proof.Machine
end

