-- ==== Sys2Proof/Tests/Slice0.lean ====
section
/-! SUPPORT. Tests of the model, and a witness for the hypotheses of every statement. Every expected value is written out
from the rule that the test names. -/

set_option Elab.async false

namespace Sys2Proof.Machine

/-- The state after the fetch of an instruction that issues; none where it does not. -/
def fetched (s : State) (q : SeatNo) (i : Instr) : Option State :=
  if canIssue s q.val && !pairOver s q.val && seatLegal i then
    match accessAll q.val [fetchAccess s q.val (seatLen i)] s with
    | .ok p => some (modSeat p.st q.val decoded)
    | .error _ => none
  else none

theorem issues_of_fetched {s s1 : State} {q : SeatNo} {i : Instr} (h : fetched s q i = some s1) : Issues s q i s1 := by
  unfold fetched at h
  split at h
  · rename_i hc
    simp only [Bool.and_eq_true, Bool.not_eq_true'] at hc
    split at h
    · rename_i p hp
      exact ⟨hc.1.1, hc.1.2, hc.2, p, hp, (Option.some.inj h).symm⟩
    · simp at h
  · simp at h

/-- Does the instruction, of the table, issue in s and meet the conditions of its row? -/
def meets (table : EffectTable) (i : Instr) (s : State) : Bool :=
  match table i with
  | none => false
  | some (q, f) =>
    match fetched s q i with
    | none => false
    | some s1 => (f s1).any fun r => !pairOver r q.val

/-- What meets says: the hypotheses of Completes hold together. -/
theorem meets_sound {table : EffectTable} {i : Instr} {s : State} (h : meets table i s = true) :
    ∃ q f s1 r, table i = some (q, f) ∧ Issues s q i s1 ∧ f s1 = some r ∧ pairOver r q.val = false := by
  unfold meets at h
  split at h
  · simp at h
  · rename_i q f ht
    split at h
    · simp at h
    · rename_i s1 hf
      obtain ⟨r, hr, hp⟩ := (Option.any_eq_true _ _).1 h
      exact ⟨q, f, s1, r, ht, issues_of_fetched hf, hr, by simpa using hp⟩

/-- Seat C0.0 after reset, at M in bank T, with word and capability registers given. -/
def atM0 (w : SMap Word) (c : SMap Cap) : State :=
  modCur State.reset 0 fun b =>
    { b with w := w, c := c.foldl (fun m e => smSet {} m e.1 e.2) b.c }

/-- The words 12 and 5 in w1 and w2. -/
def two : State := atM0 [(1, 12), (2, 5)] []

/-- A capability for everything with some rights, at a cursor. -/
def capAt (cursor : Word) (rights : Nat) : Cap := { rootCap 0o777777777777 rights false with w0 := cursor }

/-- A plain address: base register, no index, a displacement. -/
def plain (ca : BitVec 4) (disp : BitVec 12) : MemOp := { ca := ca, mode := 0, ix := 0, disp := disp }

/-! R143 to R150, R145, R141: the conditions of the register instructions hold together. -/

theorem test_meets_integer : ([.add 0 3 1 2, .sub 0 3 1 2, .and 0 3 1 2, .or 0 3 1 2, .xor 0 3 1 2, .andn 0 3 1 2,
    .slt 0 3 1 2, .sltu 0 3 1 2, .min 0 3 1 2, .max 0 3 1 2, .minu 0 3 1 2, .maxu 0 3 1 2, .clz 0 3 1, .popc 0 3 1,
    .addco 0 3 1 2, .mul 0 3 1 2, .mulh 0 3 1 2, .mulhu 0 3 1 2, .hswap 0 3 1, .hadd 0 3 1 2, .hsub 0 3 1 2,
    .hjoin 0 3 1 2, .hsx0 0 3 1, .hsx1 0 3 1].all fun i => meets integerResult i two) = true := by decide +kernel
theorem test_meets_shift : ([.sll 0 3 1 2, .srl 0 3 1 2, .sra 0 3 1 2, .rol 0 3 1 2, .slla 0 3 1 9, .srla 0 3 1 9,
    .sraa 0 3 1 9, .rola 0 3 1 9].all fun i => meets shiftResult i two) = true := by decide +kernel
theorem test_meets_muld : meets wideProductResult (.muld 0 4 1 2) two = true := by decide +kernel
theorem test_meets_division : ([.div 0 3 1 2, .divu 0 3 1 2, .rem 0 3 1 2, .remu 0 3 1 2].all
    fun i => meets divisionResult i two) = true := by decide +kernel
theorem test_meets_field : ([.extu 0 3 1 2 4, .exts 0 3 1 2 4, .ins 0 3 1 2 4].all
    fun i => meets fieldResult i two) = true := by decide +kernel
theorem test_meets_immediate : ([.addi 0 3 1 7, .andi 0 3 1 7, .ori 0 3 1 7, .xori 0 3 1 7, .slti 0 3 1 7,
    .sltiu 0 3 1 7, .lih 0 3 1 7, .muli 0 3 1 7, .li 0 3 7, .addl 0 3 1 7, .andl 0 3 1 7, .orl 0 3 1 7, .xorl 0 3 1 7].all
    fun i => meets immediateResult i two) = true := by decide +kernel
theorem test_meets_octet : ([.opack 0 3 1 4, .ounpk 0 3 1, .oget 0 3 1 2 0, .oput 0 3 1 2 0, .ocnt 0 3 1].all
    fun i => meets octetResult i two) = true := by decide +kernel

/-- Does the instruction issue in s, with a test of the state after its fetch? -/
def issuesWith (s : State) (q : SeatNo) (i : Instr) (p : State → Bool) : Bool :=
  match fetched s q i with
  | none => false
  | some s1 => p s1

theorem issuesWith_sound {s : State} {q : SeatNo} {i : Instr} {p : State → Bool} (h : issuesWith s q i p = true) :
    ∃ s1, Issues s q i s1 ∧ p s1 = true := by
  unfold issuesWith at h
  split at h
  · simp at h
  · rename_i s1 hf
    exact ⟨s1, issues_of_fetched hf, h⟩

/-- Does an event of the table have its occasion in s? -/
def occurs (table : EventTable) (c : Instr) (s : State) : Bool := (table c s).isSome

/-! A seat at U or S: map 0 translates each of the first two blocks of 16 Mi words to itself, which descriptor 0 of the fence
opens to every class as a gate region. -/

/-- The bank in which seat C0.0 runs: PCC may execute everywhere, w1 is the second block's first word. -/
def codeBank : Bank := { w := [(1, 0o100000000)], pcc := capAt 8 (rEX + rRD), st := .running, lane := 5 }

/-- Descriptor 0 of the fence: the whole space, every class, a gate region of ring limit 0. -/
def openFence : SMap Word := [(1, 0o777777777777), (2, 0o000007777777), (3, 0b11100000001)]

/-- Seat C0.0 in bank 0 on stroke side at a level. -/
def running (lvl : Level) (ringMode : Bool) : State :=
  let s := setSeat State.reset 0
    { status := { ringMode := ringMode, bank := 0, lvl := lvl }, banks := [(0, codeBank)], idle := false }
  { s with sys := { s.sys with mapBase := [(0, 0o14000)] }, mem := { s.mem with words := [(4096, 0o5000), (4097, 0o100005000)] },
           fence := { s.fence with d := openFence } }

theorem test_division_by_zero :
    issuesWith State.reset 0 (.div 0 3 1 2) (fun s => wGet s 0 2 == 0 && !occupied (getSeat s 0).svM) = true := by
  decide +kernel
theorem test_meets_capRead : ([.cgetc 0 3 1, .cgetb 0 3 1, .cgetl 0 3 1, .cgetp 0 3 1, .cgett 0 3 1, .cmov 0 8 1,
    .ctest 0 3 1 2 16].all fun i => meets capReadEffect i two) = true := by decide +kernel
theorem test_meets_derive : ([.cinc 0 8 1 2, .cinci 0 8 1 5, .csetb 0 8 1 2, .csetbi 0 8 1 5, .candr 0 8 1 2,
    .cclg 0 8 1].all fun i => meets deriveEffect i two) = true := by decide +kernel

/-- Seal 5 is live, c8 may seal and unseal with it, c9 is sealed with it, and c10, c11 are a gate pair under it. -/
def sealing : State :=
  let s := atM0 [] [(8, capAt 5 (rSE + rUS)), (9, capSetSeal (capAt 64 rRD) 5),
    (10, capSetSeal (capAt 64 (rGT + rEX)) 5), (11, capSetSeal (capAt 64 (rGT + rRD)) 5)]
  { s with sys := { s.sys with sealLive := [(5, true)] } }

theorem test_meets_seal : meets sealEffect (.cseal 0 12 1 8) sealing = true := by decide +kernel
theorem test_meets_unseal : meets sealEffect (.cunseal 0 12 9 8) sealing = true := by decide +kernel
theorem test_meets_branch : ([.b 0 1 1 2 5, .j 0 1 4, .jal 0 31 1 4].all fun i => meets jumpEffect i two) = true := by
  decide +kernel
theorem test_meets_invoke : meets jumpEffect (.cinvoke 0 10 11) sealing = true := by decide +kernel
theorem test_meets_callg : meets jumpEffect (.callg 0 1 0) (running .U true) = true := by decide +kernel
theorem test_meets_release : meets leaveEffect (.ret 0) State.reset = true := by decide +kernel
theorem test_meets_end : meets leaveEffect (.endAct 0) (running .U false) = true := by decide +kernel
theorem test_meets_sync : ([.synci 0, .fenceFull 0, .fenceAcquire 0, .fenceRelease 0, .fencew 0, .sealsync 0, .mapsyncAll 0,
    .mapsyncMap 0 1, .mapsyncPage 0 1 2].all fun i => meets syncEffect i State.reset) = true := by decide +kernel

/-- The save set of a trap from U in bank 0. -/
def trapped : SaveSet := { pcc := capAt 9 rEX, bank := flag 35 true ||| flag 6 true }

/-- A return at S from a trap in bank 0 (07 R232). -/
theorem test_return :
    let s := modSeat (running .S false) 0 fun x => { x with svStroke := trapped }
    issuesWith s 0 (.ret 0) (fun s => levelOf s 0 == .S && returnFail (getSeat s 0) false trapped == 0 &&
      (getSeat s 0).svStroke == trapped) = true := by decide +kernel

/-- A return at M to bank 0, with no way-enough waiting for it (07 R230, R237). -/
theorem test_return_at_m :
    let s := modSeat State.reset 0 fun x => { x with svM := trapped }
    issuesWith s 0 (.ret 0) (fun s => levelOf s 0 == .M && occupied (getSeat s 0).svM &&
      returnFail (getSeat s 0) true trapped == 0 && (getSeat s 0).svM == trapped &&
      !(getBank (getSeat s 0) 0).abortHeld) = true := by decide +kernel

/-- The refused instructions issue at the levels that refuse them (05 R162, R164). -/
theorem test_refused_levels :
    issuesWith (running .U false) 0 (.fencew 0) (fun s => levelOf s 0 == .U) = true ∧
    issuesWith (running .S false) 0 (.sealsync 0) (fun s => levelOf s 0 != .M) = true ∧
    issuesWith (running .U false) 0 (.ret 0) (fun s => levelOf s 0 == .U && !inRing s 0) = true := by decide +kernel

/-- A system word that U may not read, and one that code without SY may not (04 R125). -/
theorem test_sysword_refused :
    issuesWith (running .U false) 0 (.sysrd 0 3 0o401) (fun s => !sysAllowed (statusOfSeat s 0) 0o401 false) = true ∧
    issuesWith (running .S false) 0 (.sysrd 0 3 0o40) (fun s => sysAllowed (statusOfSeat s 0) 0o40 false &&
      !holds (capRights (pccGet s 0)) rSY) = true ∧
    issuesWith (running .U false) 0 (.syswr 0 3 0o401) (fun s => !sysAllowed (statusOfSeat s 0) 0o401 true) = true ∧
    issuesWith (running .S false) 0 (.syswr 0 3 0o100) (fun s => sysAllowed (statusOfSeat s 0) 0o100 true &&
      !holds (capRights (pccGet s 0)) rSY) = true := by decide +kernel

/-- TRAP issues, and the all-zero word is no instruction (04 R137). -/
theorem test_trap_and_zero_word :
    issuesWith State.reset 0 (.trap 0 5) (fun s => (getSeat s 0).status.bank == 8 && !mHeld s && !occupied (getSeat s 0).svM) = true ∧
    issuesWith (running .U false) 0 (.trap 0 5) (fun s => decide ((getSeat s 0).status.bank < 8) && !mHeld s &&
      !trapToM (getSeat s 0) { cause := 0o30, addr := 5 } && !occupied (getSeat s 0).svStroke) = true ∧
    (canIssue State.reset 0 && (decodeSeat 0 0 0).isOk == false &&
      (accessAll 0 [fetchAccess State.reset 0 1] State.reset).isOk) = true := by decide +kernel

/-- A trap to S, to M, a DOUBLE and a check stop each have a state (07 R214 to R222, R234). -/
theorem test_trap_routes :
    let u := running .U false
    let t : Trap := { cause := cCALL }
    (trapToM (getSeat u 0) t = false ∧ (getSeat u 0).status.bank < 8 ∧ occupied (getSeat u 0).svStroke = false) ∧
    (mHeld State.reset = false ∧ occupied (getSeat State.reset 0).svM = false ∧ trapToM (getSeat State.reset 0) t = true) ∧
    (let d := modSeat u 0 fun x => { x with svStroke := trapped }
     trapToM (getSeat d 0) t = false ∧ occupied (getSeat d 0).svStroke = true ∧ occupied (getSeat d 0).svM = false) ∧
    (let d := modSeat State.reset 0 fun x => { x with svM := trapped }
     levelOf d 0 = .M ∧ occupied (getSeat d 0).svM = true) := by decide +kernel

/-- C0.0 at M with the wide file of bank T. -/
def wide0 : State := modSeat two 0 fun x => { x with wideOwned := true, wideOwner := 8 }

theorem test_meets_wide : ([.vadd 0 1 2 3, .vsub 0 1 2 3, .vand 0 1 2 3, .vor 0 1 2 3, .vxor 0 1 2 3, .vandn 0 1 2 3,
    .vcmpeq 0 3 1 2, .vaddw 0 1 2 3, .vsubw 0 1 2 3, .vshlw 0 1 2 3, .vshrw 0 1 2 3, .vins 0 1 2 3, .vext 0 3 1 2,
    .vsplat 0 1 2, .dgs256 0 1 2, .pmul18 0 1 2 3, .pmac18 0 1 2 3].all fun i => meets wideEffect i wide0) = true := by
  decide +kernel
theorem test_meets_vld : ([.vld 0 1 (plain 1 0o100), .vst 0 1 (plain 1 0o100)].all
    fun i => meets wideKeyEffect i wide0) = true := by decide +kernel
theorem test_wide_off : ([.vadd 0 1 2 3, .cxenc 0 1 2 8, .vld 0 1 (plain 1 0o100)].all fun i =>
    ((wideEffect i).isSome || (wideKeyEffect i).isSome) && issuesWith two 0 i (fun s => !inRing s 0 &&
      !(statusOfSeat s 0).wideOn && !(getSeat s 0).wideOwned)) = true := by decide +kernel
theorem test_meets_load : ([.ldw 0 3 (plain 1 0o100), .ldd 0 4 (plain 1 0o100), .ldc 0 8 (plain 1 0o100)].all
    fun i => meets loadEffect i two) = true := by decide +kernel
theorem test_meets_store : ([.stw 0 3 (plain 1 0o100), .std 0 4 (plain 1 0o100), .stc 0 8 (plain 1 0o100)].all
    fun i => meets storeEffect i two) = true := by decide +kernel
/-- The whole of descriptor 2, an STC to its first word at M (11 R356). -/
theorem test_meets_descriptor_write :
    meets storeEffect (.fenceDescriptorWrite 0 0 (plain 8 0)) (atM0 [] [(8, capAt 0o200000010 rWR)]) = true := by
  decide +kernel

/-- The state after the fetch of an instruction that issues. -/
def after (s : State) (q : SeatNo) (i : Instr) : State := (fetched s q i).getD s

theorem issues_after {s : State} {q : SeatNo} {i : Instr} (h : (fetched s q i).isSome = true) : Issues s q i (after s q i) := by
  obtain ⟨t, ht⟩ := Option.isSome_iff_exists.1 h
  simpa [after, ht] using issues_of_fetched ht

/-- Slot 7 holds an AES-128 key that may encrypt, of owner 0, and c8 is a handle for it. -/
def keyed : State :=
  let s := modSeat (atM0 [] [(8, capSetSeal { w0 := 7, w1 := 7, w2 := 7, w3 := field 8 rKY, tag := true } 65535)]) 0
    fun x => { x with wideOwned := true, wideOwner := 8 }
  { s with sys := { s.sys with sealLive := [(65535, true)] },
           custody := { s.custody with slots := smSetList 0 [] 112 [field 33 1 ||| field 28 1 ||| field 19 (uENC + uDEC)] } }

theorem test_meets_key_handle : ([.cxenc 0 1 2 8, .cxdec 0 1 2 8].all fun i => meets wideKeyEffect i keyed) = true := by
  decide +kernel

theorem test_plain_load :
    let i := Instr.ldc 0 8 (plain 1 0o100)
    Issues two 0 i (after two 0 i) ∧ memEa (after two 0 i) 0 (plain 1 0o100) 4 = (64 : Nat) ∧
      memBadIndex (after two 0 i) 0 (plain 1 0o100) = false ∧ PlainSpan (after two 0 i) 0 64 4 ∧
      Reaches (cGet (after two 0 i) 0 1) 64 4 (rRD + rWR) :=
  ⟨issues_after (by decide +kernel), by decide +kernel, by decide +kernel, by unfold PlainSpan; decide +kernel,
    by unfold Reaches; decide +kernel⟩

theorem test_plain_store :
    let i := Instr.stc 0 8 (plain 1 0o100)
    Issues two 0 i (after two 0 i) ∧ (cGet (after two 0 i) 0 8).tag = false ∧ PlainSpan (after two 0 i) 0 64 4 ∧
      memEa (after two 0 i) 0 (plain 1 0o100) 4 = (64 : Nat) :=
  ⟨issues_after (by decide +kernel), by decide +kernel, by unfold PlainSpan; decide +kernel, by decide +kernel⟩

/-- w3 selects w1 and w2, and c8 and c9 stand at words 64 and 128. -/
def blocks : State := atM0 [(1, 12), (2, 5), (3, 6)] [(8, capAt 64 (rRD + rWR)), (9, capAt 128 (rRD + rWR))]

theorem test_block_register_list :
    let i := Instr.ldm 0 3 (plain 1 0o100)
    Issues blocks 0 i (after blocks 0 i) ∧
      ((List.range 32).filter fun r => decide (1 ≤ r) && (wGet (after blocks 0 i) 0 3).getLsbD r) = [1, 2] ∧
      PlainSpan (after blocks 0 i) 0 64 2 ∧ Reaches (cGet (after blocks 0 i) 0 1) 64 2 (rRD + rWR) ∧
      bit (curBank (getSeat (after blocks 0 i) 0)).progress 35 = false ∧ (fetched blocks 0 (.stm 0 3 (plain 1 0o100))).isSome :=
  ⟨issues_after (by decide +kernel), by decide +kernel, by unfold PlainSpan; decide +kernel,
    by unfold Reaches; decide +kernel, by decide +kernel, by decide +kernel⟩

theorem test_block_copy :
    let i := Instr.movw 0 8 9 2 0
    Issues blocks 0 i (after blocks 0 i) ∧ (wGet (after blocks 0 i) 0 2).toNat % 2 ^ 35 = 5 ∧
      capCursor (cGet (after blocks 0 i) 0 8) = 64 ∧ capCursor (cGet (after blocks 0 i) 0 9) = 128 ∧
      PlainSpan (after blocks 0 i) 0 64 5 ∧ PlainSpan (after blocks 0 i) 0 128 5 ∧
      Reaches (cGet (after blocks 0 i) 0 8) 64 5 rWR ∧ Reaches (cGet (after blocks 0 i) 0 9) 128 5 rRD ∧
      (fetched blocks 0 (.fillw 0 8 1 2)).isSome :=
  ⟨issues_after (by decide +kernel), by decide +kernel, by decide +kernel, by decide +kernel,
    by unfold PlainSpan; decide +kernel, by unfold PlainSpan; decide +kernel, by unfold Reaches; decide +kernel,
    by unfold Reaches; decide +kernel, by decide +kernel⟩

/-- Each access that FailedAccessTraps names fails through the null capability c8 (02 R48 step 1). -/
theorem test_failed_access :
    (∀ i ∈ [Instr.ldw 0 3 (plain 8 0), .stw 0 3 (plain 8 0), .ldd 0 4 (plain 8 0), .std 0 4 (plain 8 0),
        .ldc 0 9 (plain 8 0), .stc 0 9 (plain 8 0), .fenceDescriptorWrite 0 9 (plain 8 0)],
      issuesWith two 0 i (fun s => !inRing s 0 && !occupied (getSeat s 0).svM) = true) ∧
    (stepsFail .M false [memAccess two 0 (plain 8 0) 4 4 rRD false] [1, 2, 3, 4, 5, 6]).isSome = true ∧
    (stepsFail .M false [{ memAccess two 0 (plain 8 0) 4 4 rWR true with tagged := false, local_ := true }]
      [1, 2, 3, 4, 5, 6]).isSome = true ∧
    (stepsFail .M false [memAccess two 0 (plain 8 0) 1 1 rRD false] [1, 2, 3, 4, 5, 6]).isSome = true ∧
    (stepsFail .M false [memAccess two 0 (plain 8 0) 2 2 rWR true] [1, 2, 3, 4, 5, 6]).isSome = true := by decide +kernel

theorem test_meets_sysrd : meets sysReadEffect (.sysrd 0 3 0o167) two = true := by decide +kernel
theorem test_meets_tb : meets sysReadEffect (.tbLoRead 0 3) two = true := by decide +kernel
theorem test_meets_syswr : meets sysWriteEffect (.syswr 0 1 0o167) two = true := by decide +kernel
theorem test_meets_system_rows :
    meets sysWriteEffect (.sealLiveWrite 0 1) two = true ∧ meets sysWriteEffect (.paddleReq 0 1) two = true ∧
    meets sysWriteEffect (.ethModeWrite 0 1) two = true ∧ meets sysWriteEffect (.bankDataWrite 0 1) two = true ∧
    meets sysWriteEffect (.laneBaseWrite 0 1) two = true ∧
    meets sysWriteEffect (.regpass 0 1) (atM0 [(1, 16)] []) = true ∧
    meets sysWriteEffect (.svXferLoad 0 1) two = true ∧ meets sysWriteEffect (.svXferStore 0 1) (atM0 [(1, 32)] []) = true ∧
    meets sysWriteEffect (.bankSelFetch 0 1) (atM0 [(1, 0o10000)] []) = true ∧
    meets sysWriteEffect (.bankSelPlace 0 1) (atM0 [(1, 0o20000)] []) = true ∧
    meets sysWriteEffect (.saveData 0 1) (atM0 [(1, 2)] []) = true ∧
    meets sysWriteEffect (.release 0 1) (atM0 [(1, 4)] []) = true ∧
    meets sysWriteEffect (.setasideSet 0 1) (atM0 [(1, 128)] []) = true ∧
    meets sysWriteEffect (.measExtend 0 1) (atM0 [(1, 0o400000000000)] []) = true := by decide +kernel
/-- The eight words of a class of one lane, of 8 slots of 16 words, whose home is leaf cox 3 and whose ring stands at
2^21 + 4096 k (09 R277). -/
def someClass (k kind lane unit : Nat) : List Word :=
  [field 32 kind ||| field 0 lane, field 0 (2 ^ 21 + 4096 * k), field 32 3 ||| field 16 1 ||| field 12 3 ||| field 0 7, 0,
   field 18 10, 1, field 16 5 ||| field 0 unit, 0]

/-- Lanes 0 to 5 are open, lane k of kind k, its unit given; lane 6 is closed and of kind 2; notices go to lane 5. -/
def laneful (unit : Nat) (w : SMap Word) (c : SMap Cap) : State :=
  let s := atM0 w c
  let cls := (List.range 7).foldl (fun m k => smSetList 0 m (8 * k) (someClass k (if k = 6 then 2 else k) k unit)) []
  let s := { s with fence := { s.fence with d := openFence }, sys := { s.sys with laneBase := 1 },
                    boot := { s.boot with done := true, laneOpened := true }, lanes := { s.lanes with cls := cls } }
  (List.range 6).foldl (fun s l => setLane s l { credit := 8, state := lsOpen, cls := l }) s

theorem test_meets_lopen : meets laneEffect (.lopen 0 3 8 9 10)
    (laneful 0 [] [(8, capAt 6 rLN), (9, capSetSeal (capAt 64 (rGT + rEX)) 5), (10, capAt 0o1000 (rRD + rWR))]) = true := by
  decide +kernel
theorem test_meets_lclose : meets laneEffect (.lclose 0 3 8) (laneful 0 [] [(8, capAt 2 rLN)]) = true := by decide +kernel
theorem test_meets_larm : meets laneEffect (.larm 0 3 8 1) (laneful 0 [(1, 100)] [(8, capAt 2 rLN)]) = true := by decide +kernel
theorem test_meets_lstat : meets laneEffect (.lstat 0 3 8 5) (laneful 0 [] [(8, capAt 2 rLN)]) = true := by decide +kernel
theorem test_meets_lgive : meets laneEffect (.lgive 0 3 1 2) (laneful 0 [(1, 2)] []) = true := by decide +kernel
theorem test_meets_lput : meets laneEffect (.lput 0 3 8 1) (laneful 0 [(1, field 16 4 ||| 2)] [(8, capAt 64 rRD)]) = true := by
  decide +kernel
/-- Lane 2 holds a message of three words. -/
def messaged : State := (putLane (laneful 0 [(1, 2)] [(8, capAt 64 (rRD + rWR))]) 2 [7, 8, 9]).2
theorem test_meets_ltake : meets laneEffect (.ltake 0 3 8 1 0) messaged = true := by decide +kernel
theorem test_meets_wayen : meets laneEffect (.wayen 0 3 1 2) (laneful 0 [(1, 1), (2, 2)] []) = true := by decide +kernel
/-- Lane 2 is of kind 6 and the doorbell lane of seat C0.1, which has power. -/
def belled : State :=
  let s := setSeat (laneful 0 [(1, 1), (2, 2)] []) 1 {}
  { s with lanes := { s.lanes with doorbell := [(1, 2)], cls := smSet 0 s.lanes.cls 16 (field 32 6 ||| 2) } }
theorem test_meets_doorbell : meets laneEffect (.doorbell 0 3 1 2) belled = true := by decide +kernel

/-- Each refusal of a put has its case, at the edges: no class, a closed lane, a message of 0 or of 257 words on slots of 16,
and 129 words, of 9 slots, for a credit of 8 (09 R289). -/
theorem test_put_refusals :
    let s := laneful 0 [] []
    classOf s 7 = none ∧ classOf s 2 = some 2 ∧ (descAdmits s 2 1).isOk = true ∧ (descAdmits s 6 1).isOk = true ∧
    (laneSt s 6).state = lsClosed ∧ (laneSt s 2).state = lsOpen ∧ 16 * clSS s 2 = 256 ∧ (laneSt s 2).credit = 8 ∧
    (129 + clSS s 2 - 1) / clSS s 2 = 9 ∧
    (putLane s 7 [1]).1 = 1 ∧ (putLane s 6 [1]).1 = 1 ∧ (putLane s 2 []).1 = 1 ∧
    (putLane s 2 (List.replicate 257 1)).1 = 1 ∧ (putLane s 2 (List.replicate 129 1)).1 = 9 := by decide +kernel

/-- A lane descriptor of lane 2 in case, with every field at its largest value (09 R281, R282). -/
theorem test_lane_descriptor :
    let s := laneful 0 [] []
    let x : LaneSt := { head := 8191, tail := 8191, taken := 8191, credit := 8191, state := 4, tof := true, wait := true,
                        armed := true, cls := 1023, seq := 262143, resv := 8191, tseq := 262143 }
    descAddr s 2 + 16 ≤ caseEnd ∧ smGet false s.lanes.fault 2 = false ∧ laneSt (setLane s 2 x) 2 = x := by decide +kernel

/-- The message that a put accepts on lane 2 is the one at its HEAD (09 R283 to R287). -/
theorem test_message_reaches_head :
    let s := laneful 0 [] []
    (putLane s 2 [7, 8, 9]).1 = 0 ∧ ((laneHead (putLane s 2 [7, 8, 9]).2 2).1.map Msg.words) = some [7, 8, 9] ∧
      (laneSt s 2).head = (laneSt s 2).tail ∧ (3 + clSS s 2 - 1) / clSS s 2 ≤ 2 ^ clRlog s 2 ∧
      ringBase s 2 2 + ringLen s 2 ≤ caseEnd ∧ s.mem.poison = [] ∧ descAddr s 2 + 16 ≤ ringBase s 2 2 := by decide +kernel

/-- Lane 0's activation is posted to bank 1 of seat C0.1, its gate pair in granule 2 of its descriptor and at word 1024, under
the live seal 5. -/
def postedLane : State :=
  let s := laneful 0 [] []
  let s := putGranule s (descAddr s 0 + 8) (capWords (capSetSeal (capAt 64 (rGT + rEX)) 5)) true
  let s := putGranule s (descAddr s 0 + 12) [0, 0, 1024, 0] false
  let s := putGranule s 1024 (capWords (capSetSeal (capAt 64 (rGT + rRD)) 5)) true
  setSeat { s with sys := { s.sys with sealLive := [(5, true)] } } 1 { banks := [(1, { st := .posted, lane := 0 })] }

theorem test_activation_entry :
    entryBank postedLane 1 = some 1 ∧ classOf postedLane 0 = some 0 ∧ (entryPair postedLane 1 0).isOk = true := by
  decide +kernel

/-- C0.0 runs bank 0 and bank 2 is READY, or POSTED. -/
def preempted (st : BankSt) : State :=
  modSeat (running .U false) 0 fun x => setBank x 2 { st := st, lane := 6 }

theorem test_preemption : ([.ready, .posted].all fun st =>
    let s := preempted st
    seatServes s 0 && !(getSeat s 0).idle && topBank (getSeat s 0) == some 2 && !anyOccupied (getSeat s 0) &&
      (getSeat s 0).pendStow.isEmpty && (getSeat s 0).pendPair.isEmpty && (curBank (getSeat s 0)).st == .running &&
      (getBank (getSeat s 0) 2).st == st) = true := by decide +kernel
/-- Bank 1 of seat C0.1 BLOCKED on lane 2 and its stow at work, for lane 0's post; then its stowed activation. -/
def stowWork (stowing : Bool) : State :=
  let s := laneful 0 [] []
  let s := putGranule s (descAddr s 6 + 12) [0, 0, 4096, 0] false
  let j : StowJob := { bank := 1, stowing := stowing, lane := if stowing then 0 else 6, stowed := !stowing, since := 0 }
  let s := setSeat s 1 { banks := [(1, { st := if stowing then .stowing else .restoring, lane := 6, waitLane := 2 })], stow := [j] }
  if stowing then s else
    { s with lanes := { s.lanes with
      stowed := [{ lane := 6, seat := 1, prio := 1, waitLane := 2, since := 0, offFor := 0, lastMsg := none,
                   det := false, aborted := false, old := false }] } }

/-- Seat C0.1 as given. -/
def withSeat (x : Seat) : State := setSeat State.reset 1 x

theorem test_seat_events :
    occurs seatEventEffect (.activationOverrun 0) { postedLane with time := 20000 } = true ∧
    occurs seatEventEffect (.residenceTimeout 1) { withSeat { residFrom := some 0 } with time := 2000 } = true ∧
    occurs seatEventEffect (.stowComplete 1) (stowWork true) = true ∧
    occurs seatEventEffect (.restoreComplete 1) (stowWork false) = true ∧
    occurs seatEventEffect (.stowDelivery 1) (withSeat { pendStow := [(6, 4096)] }) = true ∧
    occurs seatEventEffect (.pairMismatchDelivery 1) (withSeat { pendPair := [6] }) = true ∧
    occurs seatEventEffect (.pairWaitExpiry 0 0)
      (setCox State.reset 3 { pairs := [(0, { used := true, lane := 6, waitFrom := some 0 })] }) = true ∧
    occurs seatEventEffect (.registerPass 0) { setCox State.reset 3 { passDue := some 0 } with time := 2000 } = true ∧
    occurs seatEventEffect (.applySubstitution 0) (setCox State.reset 3 { pendSub := [1] }) = true ∧
    occurs seatEventEffect (.sparePowerOn 0) (setCox State.reset 3 { pendSub := [1] }) = true ∧
    occurs seatEventEffect (.sampleTag 1)
      (withSeat { sampOn := true, sampStroke := true, sampCount := 1, status := { det := false } }) = true ∧
    occurs seatEventEffect (.sampleRecord 1) (withSeat { samples := [⟨0, 0, 0, false, 0, false, 0, 0, 0, false, false, 5, 0, 0⟩] }) = true ∧
    occurs seatEventEffect (.sampleRecord 1) (setSeat (laneful 0o200 [] []) 1
      { samples := [⟨0, 0, 0, false, 0, false, 0, 0, 0, false, false, 5, 0, 0⟩], sampLane := 5 }) = true := by decide +kernel

/-- The module is booted, and cox 3 is as given. -/
def booted (x : Nat) (c : Cox) : State :=
  setCox { laneful 0 [] [] with time := 2000 } x c

theorem test_cox_acts : coxActs (booted 3 {}) 3 = true ∧
    ([Instr.coxAdd 3 1 2 3, .coxSub 3 1 2 3, .coxAnd 3 1 2 3, .coxOr 3 1 2 3, .coxXor 3 1 2 3, .shl 3 1 2 3, .shr 3 1 2 3,
      .coxAddi 3 1 2 3, .ld 3 1 2 3, .st 3 1 2 3, .beq 3 1 2 3, .bne 3 1 2 3, .bltu 3 1 2 3, .jmp 3 1, .bnxt 3 1, .waits 3 1,
      .idle 3, .strk 3 1, .pend 3 1 2, .seatst 3 1 2, .cnt 3 47].all fun i => (coxResult i).isSome) = true := by
  decide +kernel

/-- Both cases of R241: no result outstanding, and one for a register that the instruction reads. -/
theorem test_signed_reads : SignedReads (getCox (booted 3 {}) 3) (.coxAdd 3 1 2 3) ∧
    ¬SignedReads { delayed := [(2, 0)] } (.coxAdd 3 1 2 3) := by unfold SignedReads; decide +kernel

/-- A word of each format, as R242 and R243 lay them out: POST rd 4, ra 6, rb 7; ADDI rd 1, ra 2, imm 5; BEQ ra 1, rb 2,
target 0o12345; and opcode 0o33, which no row assigns. -/
theorem test_cox_words : decodeCox 3 0o261030700000 = some (.post 3 4 6 7) ∧
    decodeCox 3 0o100210000005 = some (.coxAddi 3 1 2 5) ∧ decodeCox 3 0o130210012345 = some (.beq 3 1 2 0o12345) ∧
    decodeCox 3 0o330000000000 = none := by decide +kernel

/-- A pick of lane 0, not stowed, by cox 3 at 1,986 ns. -/
def pick0 : Pick := { lane := 0, stowed := false, home := 3, pend := 0, at_ := 1986 }

/-- A cox that holds the pick of lane 0 in h1. -/
def picker : Cox := { h := [(1, 2 ^ 17)], picks := [pick0], relays := [(2 ^ 17, 5)] }

theorem test_cox_queues :
    heldPick picker (hGet picker 1) = some pick0 ∧ memberOf 0 ((hGet picker 0).toNat % 8) = some 1 ∧
    coxActs (booted 0 picker) 0 = true ∧ (getCox (booted 0 picker) 1).relays.length < 64 ∧
    picker.picks.find? (fun y => y.lane == pick0.lane) = some pick0 ∧ pick0.at_ + 14 ≤ (booted 3 picker).time := by
  decide +kernel

/-- The target of a POST by cox 3 to position 0, priority 1, with bank 1 in a state. -/
def target (st : BankSt) : State := setSeat (booted 3 picker) 0 { banks := [(1, { st := st })] }

theorem test_post :
    classOf (booted 3 picker) 0 = some 0 ∧ clPair (booted 3 picker) 0 = false ∧ postTarget (booted 3 picker) 3 0 pick0 0 = 0 ∧
    postable (getSeat (target .free) 0) 1 = true ∧ postable (getSeat (target .blocked) 0) 1 = true ∧
    postable (getSeat (target .ready) 0) 1 = false := by decide +kernel

/-- Triple 0 names positions 1, 2 and 3. -/
theorem test_pair_post :
    let c := { picker with triples := [(240, field 6 3 ||| field 3 2 ||| field 0 1)] }
    let s := setSeat (setSeat (booted 3 c) 1 {}) 2 {}
    let w := tripleWord c 0
    coxActs s 3 = true ∧ mapSeat s 3 (bits w 2 0) = 1 ∧ mapSeat s 3 (bits w 5 3) = 2 ∧ mapSeat s 3 (bits w 8 6) = 3 ∧
    ((List.range 8).find? fun i => !(getPair s 3 i).used) = some 0 ∧ (getBank (getSeat s 1) 4).st = .free ∧
    postable (getSeat s 1) 4 = true ∧ postable (getSeat s 2) 4 = true ∧ heldPick c (hGet c 1) = some pick0 := by decide +kernel

theorem test_stroke_boundary :
    let s := booted 3 { waiting := some 4 }
    s.pins.porN = true ∧ dark s.power = false ∧ s.boot.done = true ∧ s.time % (500 * ((getCox s 3).n + 1)) = 0 ∧
    (getCox s 3).lastStroke = none ∧ coxRuns s 3 = true ∧ coxRuns (booted 3 {}) 3 = true := by decide +kernel
/-- The block with port 0 up. -/
def ported (s : State) : State := modPort s 0 fun x => { x with linkUp := true }

/-- A frame of n octets. -/
def frameOf (n : Nat) : List Octet := List.replicate n 7

theorem test_lane_events :
    let s := ported (laneful 0 [] [])
    occurs laneEventEffect (.frameReceive 0 (frameOf 60) false) s = true ∧
    occurs laneEventEffect (.frameReceive 0 (frameOf 59) true) s = true ∧
    occurs laneEventEffect (.frameReceive 0 (frameOf 60) true)
      { s with eth := { s.eth with steerKey := List.replicate 16 0 } } = true ∧
    occurs laneEventEffect (.hostPut (List.replicate 4 0 ++ List.replicate 12 0))
      (let s := laneful 0 [] []
       { s with pins := { s.pins with pcieUp := true }, sys := { s.sys with hwinOn := true },
                lanes := { s.lanes with cls := smSet 0 s.lanes.cls 3 256 } }) = true ∧
    occurs laneEventEffect (.heldMessageRetry 2)
      { s with lanes := { s.lanes with held := [{ lane := 2, unit := 0, channel := none, words := [1], req := none }] } } = true ∧
    occurs laneEventEffect (.laneTimeout 2)
      (let t := setDeadline (setLane s 2 { credit := 8, state := lsOpen, armed := true, cls := 2 }) 2 100
       { t with time := 300 }) = true ∧
    occurs laneEventEffect .steeringSwitch { s with time := 1000000, eth := { s.eth with switchReq := some 0 } } = true ∧
    occurs laneEventEffect (.imbalanceEvent 0 9) (modPort s 0 fun x => { x with counts := [(9, 65536)] }) = true ∧
    occurs laneEventEffect (.linkUp 0) { s with sys := { s.sys with ethMode := 1 } } = true ∧
    occurs laneEventEffect (.linkLoss 0) s = true := by decide +kernel

theorem test_frame_transmit :
    let s := (putLane (ported (laneful 0 [] [])) 1 (seqWords (frameOf 60))).2
    occurs laneEventEffect (.frameTransmit 0 1) s = true := by decide +kernel
theorem ok_of_isOk {ε α : Type} {r : Except ε α} (h : r.isOk = true) : ∃ g, r = .ok g := by
  cases r with
  | error e => simp [Except.isOk, Except.toBool] at h
  | ok g => exact ⟨g, rfl⟩

theorem galleyReaches_of {s : State} {dir a n : Nat}
    (h : ((List.range n).all fun i => (List.range n).all fun j =>
      (fenceCheck s { cls := 3, dir := dir, p := a + i, n := j + 1 }).isOk) = true) : GalleyReaches s dir a n := by
  intro b m hb hm hbm
  have h1 := List.all_eq_true.1 (List.all_eq_true.1 h (b - a) (List.mem_range.2 (by omega))) (m - 1)
    (List.mem_range.2 (by omega))
  rw [show a + (b - a) = b by omega, show m - 1 + 1 = m by omega] at h1
  exact ok_of_isOk h1

/-- The words 12 to 15 of a descriptor of n words under an operation. -/
def descTail (op palg n : Nat) : List Word := [field 0 n, field 33 op ||| field 24 palg, 0, 0]

/-- A transfer of 4 words of an operation in progress, from word 64 to word 256. -/
def moving (op palg : Nat) : Xfer :=
  { words := List.replicate 12 0 ++ descTail op palg 4, srcCap := capAt 64 (rRD + rWR), dstCap := capAt 256 (rRD + rWR),
    idxCap := {}, pages := [], profile := [], total := 4 }

/-- Channel 0 in RUN with that transfer. -/
def running4 (op palg : Nat) : State :=
  setChan (laneful 0 [] []) 0
    { enable := true, state := 2, priv := true, rlog := 4, tail := 1, clane := 5, xfer := some (moving op palg) }

theorem test_galley_runs :
    Runs (running4 0 0) 0 0 (moving 0 0) ∧ Runs (running4 1 1) 0 1 (moving 1 1) ∧ Runs (running4 2 0) 0 2 (moving 2 0) ∧
    Runs (running4 3 0) 0 3 (moving 3 0) ∧ xIndex (moving 0 0) = false ∧ xOct (moving 0 0) = 0 ∧ xPalg (moving 1 1) = 1 ∧
    caseBurst 64 4 = 4 ∧ caseBurst 256 4 = 4 ∧ SoundCase (running4 0 0) 64 4 ∧ SoundCase (running4 0 0) 256 4 ∧
    GalleyReaches (running4 0 0) 0 64 4 ∧ GalleyReaches (running4 0 0) 0 256 4 ∧ GalleyReaches (running4 0 0) 1 256 4 := by
  refine ⟨?_, ?_, ?_, ?_, ?_, ?_, ?_, ?_, ?_, ?_, ?_, galleyReaches_of ?_, galleyReaches_of ?_, galleyReaches_of ?_⟩ <;>
    first | decide +kernel | (unfold Runs; decide +kernel) | (unfold SoundCase; decide +kernel)

theorem test_galley_events :
    let s := running4 0 0
    occurs galleyEventEffect (.descriptorCompletion 0)
      (setChan s 0 { getChan s 0 with xfer := some { moving 0 0 with ended := true } }) = true ∧
    occurs galleyEventEffect (.channelPaused 0) (setChan s 0 { getChan s 0 with pause := true }) = true ∧
    occurs galleyEventEffect .counterDump { s with galley := { s.galley with dumpK := 1 } } = true ∧
    occurs galleyEventEffect .dumpRecordComplete { s with galley := { s.galley with
      dump := some { seq := 0, stamp := 0, words := [1], lane := 5, base := 4096, rlog := 0 } } } = true := by decide +kernel

/-- Channel 0 is idle and its ring at word 1024 holds a descriptor. -/
def fetchable (ws : List Word) (tagged : Bool) : State :=
  let s := setChan (laneful 0 [] []) 0 { enable := true, priv := true, rlog := 4, rbase := 1024, tail := 1, clane := 5 }
  let s := (List.range 4).foldl (fun s i => putGranule s (1024 + 4 * i) ((ws.drop (4 * i)).take 4) (tagged && decide (i < 2))) s
  s

/-- The descriptor of a COPY of 4 words. -/
def copyDesc : List Word := capWords (capAt 64 (rRD + rWR)) ++ capWords (capAt 256 (rRD + rWR)) ++ List.replicate 4 0 ++ descTail 0 0 4

/-- The descriptor that the channel fetches. -/
def fetchedX (s : State) : Xfer := xferOf s (memWords s.mem 1024 16) ((List.range 4).map fun i => memTag s.mem (1024 + 4 * i))

theorem test_descriptor_fetch :
    (∀ s ∈ [fetchable (List.replicate 16 0) false, fetchable copyDesc false, fetchable copyDesc true],
      galleyRuns s = true ∧ (getChan s 0).state = 0 ∧ (getChan s 0).head ≠ (getChan s 0).tail ∧ wayOnChannel s 0 = false ∧
        (fenceCheck s { cls := 3, dir := 0, p := chanEntry (getChan s 0), n := 16 }).isOk = true) ∧
    xFormBad {} (fetchedX (fetchable (List.replicate 16 0) false)) = true ∧
    (let s := fetchable copyDesc false
     xFormBad (getChan s 0) (fetchedX s) = false ∧ xCapStep (getChan s 0) (fetchedX s) = some 1) ∧
    (let s := fetchable copyDesc true
     xFormBad (getChan s 0) (fetchedX s) = false ∧ xCapStep (getChan s 0) (fetchedX s) = none ∧ xOct (fetchedX s) = 0 ∧
       ((xSpans (fetchedX s)).map fun p => (p.ea, p.n, p.write)) = [(64, 4, false), (256, 4, true)]) := by decide +kernel

theorem test_fetch_spans_reach : GalleyReaches (fetchable copyDesc true) 0 64 4 ∧ GalleyReaches (fetchable copyDesc true) 1 256 4 ∧
    SoundCase (fetchable copyDesc true) 1024 16 :=
  ⟨galleyReaches_of (by decide +kernel), galleyReaches_of (by decide +kernel), by unfold SoundCase; decide +kernel⟩

theorem test_channel_words : StoresAtM two 0 0o201000000 ∧ StoresAtM two 0 0o201040000 :=
  ⟨⟨by decide +kernel, by decide +kernel, by decide +kernel, by decide +kernel, by decide +kernel, ok_of_isOk (by decide +kernel)⟩,
    ⟨by decide +kernel, by decide +kernel, by decide +kernel, by decide +kernel, by decide +kernel,
      ok_of_isOk (by decide +kernel)⟩⟩

/-- Words that enable channel 0 with RLOG 1 and RLOG 12, and a TAIL as far ahead as RLOG 0 lets it be. -/
theorem test_channel_values :
    bit (0o400020000000 : Word) 35 = true ∧ bits (0o400020000000 : Word) 25 22 = 1 ∧ bits (0o400300000000 : Word) 25 22 = 12 ∧
    (getChan two 0).state = 0 ∧ (8192 + 1 - (getChan two 0).head) % 8192 ≤ 2 ^ (getChan two 0).rlog := by decide +kernel
/-- The request at HEAD of lane l that unit u takes, and the state after the take; none where it takes none. -/
def headed (s : State) (u l most : Nat) : Option (Msg × State) :=
  match classOf s l, laneReach s l 1 with
  | some k, (true, b) =>
    match laneHead b l with
    | (some m, a) =>
      if unitRuns s u && decide ((s.engines.jobs.filter fun j => j.unit == u).length < most) && clKind s k == 3 && clUnit s k == u
          && !s.power.paddle && servesNext s u l k && (laneSt b l).state == lsOpen then
        some (m, unitCount (takeMsg (noteServed a u l k) l m true) u 0 1)
      else none
    | _ => none
  | _, _ => none

theorem headed_sound {s t : State} {u l most : Nat} {m : Msg} (h : headed s u l most = some (m, t)) : EngineHead s u l most m t := by
  unfold headed at h
  split at h
  · rename_i k b hk hb
    split at h
    · rename_i m' a hm
      split at h
      · rename_i hc
        simp only [Bool.and_eq_true, decide_eq_true_eq, beq_iff_eq, Bool.not_eq_true'] at hc
        obtain ⟨⟨⟨⟨⟨⟨h1, h2⟩, h3⟩, h4⟩, h5⟩, h6⟩, h8⟩ := hc
        obtain ⟨rfl, rfl⟩ := Prod.mk.inj (Option.some.inj h)
        exact ⟨h1, h2, k, a, b, hk, h3, h4, by simp [h5], h6, hb, h8, hm, rfl⟩
      · simp at h
    · simp at h
  · simp at h

/-- As headed, of a request whose response lane serves. -/
def taken (s : State) (u l most : Nat) : Option (Msg × State) :=
  (headed s u l most).filter fun r => rlaneOk r.2 l (bits (r.1.words.getD 0 0) 15 0)

theorem taken_sound {s t : State} {u l most : Nat} {m : Msg} (h : taken s u l most = some (m, t)) : EngineTakes s u l most m t :=
  ⟨headed_sound (Option.filter_eq_some_iff.1 h).1, (Option.filter_eq_some_iff.1 h).2⟩

/-- A request to unit u on lane 3, whose response goes to lane 4; K1 may be a tagged handle. -/
def requested (u op mode : Nat) (k1 : Cap) (ops : List Word) : State :=
  let ws := [field 27 op ||| field 16 mode ||| 4, 77, field 0 ops.length, 0] ++ capWords k1 ++ [0, 0, 0, 0] ++ ops
  let s := laneful u [] []
  let gate := capWords (capSetSeal { (capAt 0 0) with w3 := flag 6 true } 5)
  let s := putGranule (putGranule s (descAddr s 3 + 8) gate true) (descAddr s 4 + 8) gate true
  (putLaneTags { s with custody := { s.custody with mkState := .present } } 3 ws [false, k1.tag]).2

/-- Does unit u take that request, and read it as one of operation op, whole, whose conditions p hold? -/
def requestServed (u most op mode : Nat) (k1 : Cap) (ops : List Word) (p : State → Req → Bool) : Bool :=
  match taken (requested u op mode k1 ops) u 3 most with
  | some (m, t) => let r := reqOf t u 3 m; r.op == op && r.whole && p t r
  | none => false

/-- 1 + 3 modulo 5, a random number of 4 octets, the SHA-256 of nothing, and the master key's check value. -/
theorem test_engine_requests :
    requestServed 0o100 1 0o100 0 {} [1, 1, 3, 5] (fun _ r => r.mode == 0 && r.k1 == capNull && r.k2 == capNull &&
      r.ops == [1, 1, 3, 5]) = true ∧
    requestServed 0o140 16 0o230 0 {} [4] (fun t r => r.k1 == capNull && r.k2 == capNull && r.ops == [4] && !drbgRefuses t 2) = true ∧
    requestServed 0o160 4 0o300 0 {} [] (fun _ r => r.k1 == capNull && r.k2 == capNull && shaOf r.mode == some .sha256 &&
      r.mode / 16 % 4 == 0 && r.ops == []) = true ∧
    requestServed 0o140 16 0o245 0 {} [] (fun t r => r.k1 == capNull && r.k2 == capNull && capSide r.gate &&
      t.custody.mkState == .present && r.ops == []) = true := by decide +kernel

/-- Under those conditions each operation has its answer. -/
theorem test_engine_answers (t : State) (r : Req) (unit : UnitCode) (lane : LaneNo) (h1 : r.k1 = capNull) (h2 : r.k2 = capNull) :
    (r.mode = 0 → r.ops = [1, 1, 3, 5] → PlatenAnswers (.modadd unit lane) t r [4] t) ∧
    (r.ops = [4] → drbgRefuses t 2 = false → ∃ v ws, CipherAnswers (.random unit lane) t r ws v) ∧
    (shaOf r.mode = some .sha256 → r.mode / 16 % 4 = 0 → r.ops = [] → ∃ ws, DigestAnswers (.sha unit lane) t r ws t) ∧
    (capSide r.gate = true → t.custody.mkState = .present → r.ops = [] → ∃ ws, CustodyAnswers (.kseal unit lane) t r ws none t) := by
  refine ⟨?_, ?_, ?_, ?_⟩
  · intro hm ho
    refine Or.inl ?_
    unfold PlatenResult
    rw [ho]
    exact ⟨hm, h1, h2, by decide, by decide, by decide, by decide, by decide, by simp, rfl, by decide⟩
  · intro ho hd
    refine ⟨(drbgDraw t 2 4).2, seqWords (drbgDraw t 2 4).1, ?_⟩
    unfold CipherAnswers
    rw [ho]
    exact ⟨h1, h2, by decide, by decide, by decide, hd, rfl, rfl⟩
  · intro hs hm ho
    refine ⟨seqWords (shaFinish .sha256 (shaInit .sha256) 0 []), .sha256, shaInit .sha256, 0, [], hs, ?_, h1, h2, by decide, rfl,
      Or.inl ⟨by omega, rfl⟩⟩
    unfold DigestStart
    simp only
    rw [if_neg (by omega), ho]
    exact ⟨trivial, trivial, rfl⟩
  · intro hg hk ho
    exact ⟨[kcvOf 3 t.custody.mkKey []], h1, h2, ho, hg, hk, rfl, rfl, rfl⟩

/-- A key slot of a type and a usage, whose octets are all 1, with arena words. -/
def slotOf (ty usage alen : Nat) : List Word :=
  [field 33 1 ||| field 28 ty ||| field 19 usage, field 21 alen, 0, 0] ++
    seqWords (List.replicate (if ty = 3 ∨ ty = 8 then 32 else 16) 1)

/-- The handle of a slot. -/
def handleOf (n : Nat) : Cap :=
  capSetSeal { w0 := BitVec.ofNat 36 n, w1 := BitVec.ofNat 36 n, w2 := BitVec.ofNat 36 n, w3 := field 8 rKY, tag := true } 65535

/-- A request of a command to its unit, under the handles of slots 7 and 8 where it uses them: the words of the slots, MODE,
the operands. -/
structure Trial where
  cmd  : Instr
  mode : Nat := 0
  k1   : List Word := []
  k2   : List Word := []
  use1 : Bool := false
  use2 : Bool := false
  arena : List Word := []
  ops  : List Word

/-- The state in which the request waits at HEAD of lane 3. -/
def Trial.state (x : Trial) : State :=
  match engineOf x.cmd with
  | none => State.reset
  | some (u, _, op, _) =>
    let cap := fun (b : Bool) n => if b then handleOf n else {}
    let ws := [field 27 op ||| field 16 x.mode ||| 4, 77, field 0 x.ops.length, 0] ++ capWords (cap x.use1 7) ++
      capWords (cap x.use2 8) ++ x.ops
    let s := laneful u.toNat [] []
    let gate := capWords (capSetSeal { (capAt 0 0) with w3 := flag 6 true } 5)
    let s := putGranule (putGranule s (descAddr s 3 + 8) gate true) (descAddr s 4 + 8) gate true
    let s := { s with
      lanes := { s.lanes with cls := smSet 0 s.lanes.cls (8 * 3 + 3) 64 },
      sys := { s.sys with sealLive := [(65535, true)] },
      custody := { s.custody with mkState := .present, mkKey := List.replicate 16 1,
                                  drbgs := [(1, some ⟨List.replicate 32 0, List.replicate 16 0⟩)], arena := smSetList 0 [] 0 x.arena,
                                  slots := smSetList 0 (smSetList 0 [] 112 x.k1) 128 x.k2 } }
    (putLaneTags s 3 ws [false, x.use1, x.use2]).2

/-- Does the command take its request and end its job OK? -/
def Trial.ok (x : Trial) : Bool :=
  match exec x.cmd x.state with
  | .next t => (t.engines.jobs.map fun j => (j.op, j.status)) == [(match engineOf x.cmd with | some e => e.2.2.1 | none => 0, 0)]
  | _ => false

/-- n octets of 2 as a packed sequence. -/
def twos (n : Nat) : List Word := seqWords (List.replicate n 2)

/-- Every engine operation has a request that it serves (12 R382 to R391). -/
theorem test_platen_jobs :
    (Trial.ok ⟨.modadd 0o100 3, 0, [], [], false, false, [], [1, 1, 3, 5]⟩ &&
     Trial.ok ⟨.modmul 0o100 3, 0, [], [], false, false, [], [1, 2, 3, 5]⟩ &&
     Trial.ok ⟨.modexp 0o100 3, 0, [], [], false, false, [], [1, 2, 3, 5]⟩ &&
     Trial.ok ⟨.rsaPub 0o100 3, 16, [], [], false, false, [], [2, 15, 3]⟩ &&
     Trial.ok ⟨.rsaPriv 0o100 3, 0, slotOf 6 uSIGN 9, [], true, false, [143, 0, 7, 0, 11, 13, 3, 7, 6], [2, 0]⟩) = true := by
  decide +kernel

theorem test_cipher_jobs :
    (Trial.ok ⟨.aesEcb 0o140 3, 0, slotOf 1 uENC 0, [], true, false, [], twos 16⟩ &&
     Trial.ok ⟨.aesCbc 0o140 3, 0, slotOf 1 uENC 0, [], true, false, [], twos 32⟩ &&
     Trial.ok ⟨.aesCtr 0o140 3, 0, slotOf 1 uENC 0, [], true, false, [], twos 32⟩ &&
     Trial.ok ⟨.aesGcm 0o140 3, 0, slotOf 1 uENC 0, [], true, false, [], twos 12 ++ [0] ++ twos 16⟩ &&
     Trial.ok ⟨.aesCmac 0o140 3, 0xF0, slotOf 1 uSIGN 0, [], true, false, [], twos 16⟩ &&
     Trial.ok ⟨.tdesEcb 0o140 3, 0, slotOf 4 uENC 0, [], true, false, [], twos 8⟩ &&
     Trial.ok ⟨.tdesCbc 0o140 3, 0, slotOf 4 uENC 0, [], true, false, [], twos 16⟩ &&
     Trial.ok ⟨.tdesCmac 0o140 3, 0x70, slotOf 4 uSIGN 0, [], true, false, [], twos 8⟩ &&
     Trial.ok ⟨.dukptDec 0o140 3, 0, slotOf 9 uDERIVE 0, [], true, false, [], twos 28 ++ twos 16⟩ &&
     Trial.ok ⟨.random 0o140 3, 0, [], [], false, false, [], [4]⟩) = true := by decide +kernel

theorem test_digest_and_custody_jobs :
    (Trial.ok ⟨.sha 0o160 3, 0, [], [], false, false, [], []⟩ &&
     Trial.ok ⟨.hmacGen 0o160 3, 16, slotOf 8 uSIGN 0, [], true, false, [], twos 16⟩ &&
     Trial.ok ⟨.kgen 0o140 3, 0, [], [], false, true, [], [field 28 1, 0]⟩ &&
     Trial.ok ⟨.kexport 0o140 3, 0, [], slotOf 1 uEXPORT 0, false, true, [], []⟩ &&
     Trial.ok ⟨.kdel 0o140 3, 0, [], slotOf 1 uENC 0, false, true, [], []⟩ &&
     Trial.ok ⟨.kinfo 0o140 3, 0, [], slotOf 1 uENC 0, false, true, [], []⟩ &&
     Trial.ok ⟨.kseal 0o140 3, 0, [], [], false, false, [], []⟩) = true := by decide +kernel
/-- The operations that need a right PIN block or tag: their octets are those of the standards that 12 names, under keys
of octets 1. -/
theorem test_verifying_jobs :
    (Trial.ok ⟨.pinXlate 0o140 3, 0x11, slotOf 4 uPIN 0, slotOf 4 uPIN 0, true, true, [],
       seqWords (beOctets 8 4111398060056368288)⟩ &&
     Trial.ok ⟨.hmacVer 0o160 3, 16, slotOf 8 uVERIFY 0, [], true, false, [], twos 4 ++ seqWords (beOctets 4 1140607385)⟩) = true := by
  decide +kernel
/-- A DUKPT PIN block under the initial key of slot 7 and the counter 0 (12 R387). -/
theorem test_dukpt_job :
    Trial.ok ⟨.dukptPin 0o140 3, 4, slotOf 10 uDERIVE 0 ++ [0, 0, 0, 0] ++ seqWords (List.replicate 8 0), slotOf 1 uPIN 0,
      true, true, [], seqWords (List.replicate 12 0) ++ seqWords (beOctets 16 46330300232374220696542739418874899610) ++
        seqWords (List.replicate 12 0x30)⟩ = true := by decide +kernel
/-- The blob that AES-KWP (SP 800-38F) makes of an empty AES-128 slot under the master key of octets 1 is imported (12 R390). -/
theorem test_kimport_job :
    Trial.ok ⟨.kimport 0o140 3, 0, [], [], false, true, [], [field 28 1, 0] ++ seqWords (beOctets 64
      (4077174745111055774024292910809960553622655561178847622470946559486713841067574961911346185437297763247251010416448287172305181740847981585025424259612129))⟩ = true := by
  decide +kernel
/-- Form 0 with one state, in the compositor's store (14 R424), and a request on lane 3. -/
def formedWith (ws : List Word) : State :=
  let s := laneful 0o010 [] []
  let gate := capWords (capSetSeal { (capAt 0 0) with w3 := flag 6 true } 5)
  let s := putGranule (putGranule s (descAddr s 3 + 8) gate true) (descAddr s 4 + 8) gate true
  let s := { s with engines := { s.engines with forms := smSetList 0 [] 0 [field 12 1, 0] } }
  (putLane s 3 ws).2

/-- A request of form 0 whose OPLEN is its operands' count. -/
def formed (op : Nat) (ops : List Word) : State := formedWith ([field 27 op ||| 4, 77, field 0 ops.length, 0] ++ ops)

theorem test_parse_requests :
    (match taken (formed 0o400 (seqWords [1, 2])) 0o010 3 1 with
     | some (m, t) => bits (m.words.getD 0 0) 35 27 == 0o400 && m.words.length == 4 + bits (m.words.getD 2 0) 12 0 &&
         formResident t 0 && seqOctets (m.words.drop 4) == some [1, 2]
     | none => false) = true ∧
    (match taken (formed 0o401 []) 0o010 3 1 with
     | some (m, _) => bits (m.words.getD 0 0) 35 27 != 0o400
     | none => false) = true := by decide +kernel

/-- A job of a digest engine. -/
def job0 : Job :=
  { unit := 0o160, lane := 3, rlane := 4, reqId := 77, op := 0o300, status := 0, detail := 0, result := [1], slots := [] }

theorem test_engine_events :
    let s := laneful 0o160 [] []
    occurs engineEventEffect (.engineResponse 0o160 3) { s with engines := { s.engines with jobs := [job0] } } = true ∧
    occurs engineEventEffect (.entropyFailure 0) { s with custody := { s.custody with entropy0 := true } } = true ∧
    occurs engineEventEffect (.entropyFailure 1) { s with custody := { s.custody with entropy1 := true } } = true ∧
    occurs engineEventEffect (.drbgReseed 2) { s with time := 100000000 } = true ∧
    occurs engineEventEffect (.drbgReseed 2)
      { s with custody := { s.custody with entropy0 := true, requests := [(2, 65536)] } } = true := by decide +kernel

/-- Requests whose response lane is lane 2, of kind 2: a SHA, a MODADD and a KSEAL. -/
theorem test_refused_request :
    ([(0o160, 0o300, 4), (0o100, 0o100, 1), (0o140, 0o245, 16)].all fun e =>
      match headed (putLane (laneful e.1 [] []) 3 ([field 27 e.2.1 ||| 2, 77, 0, 0] ++ List.replicate 8 0)).2 e.1 3 e.2.2 with
      | some (m, t) => bits (m.words.getD 0 0) 35 27 == e.2.1 && !rlaneOk t 3 (bits (m.words.getD 0 0) 15 0) &&
          !custodyWaits t (reqOf t e.1 3 m)
      | none => false) = true := by decide +kernel

theorem test_memory_events :
    let s := State.reset
    ([Instr.caseScrub 5 .none, .caseScrub 5 .single, .caseScrub 5 .double, .bulkPatrol 5 .good, .bulkPatrol 5 .passesOnReread,
      .bulkPatrol 5 .fails, .bulkPatrol 5 .metadataLost, .caseScrub 5 .latentSingle, .caseScrub 5 .latentDouble,
      .bulkPatrol 5 .latentReread, .bulkPatrol 5 .latentFails, .bulkPatrol 5 .latentLost, .bulkPatrol 161061274 .fails].all fun c => occurs memoryEventEffect c s) = true ∧
    occurs memoryEventEffect (.rowRepair 5) { s with mem := { s.mem with poison := [(1, true)] } } = true ∧
    (let s := { laneful 0 [] [] with pins := { s.pins with pcieUp := true }, sys := { (laneful 0 [] []).sys with hwinOn := true } }
     occurs memoryEventEffect (.hostReadTimeout (.galleyBurst 0)) s = true ∧
     occurs memoryEventEffect (.hostReadTimeout (.hostPut ([0, 0, 1, 0] ++ List.replicate 12 0)))
       { s with lanes := { s.lanes with cls := smSet 0 s.lanes.cls 3 256 } } = true) := by decide +kernel

/-- A seat at M with the host window on, and c8 for a host word. -/
def hostLoading : State :=
  let s := atM0 [] [(8, capAt 0o200000000000 rRD)]
  { s with pins := { s.pins with pcieUp := true }, sys := { s.sys with hwinOn := true } }

/-- Its load times out (10 R341): every other check of the access passes. -/
theorem test_host_load :
    hostUp hostLoading = true ∧ hostRead hostLoading 0 (memAccess hostLoading 0 (plain 8 0) 1 1 rRD false) = true ∧
    (match fetched { hostLoading with pins := { hostLoading.pins with readFails := true } } 0 (.ldw 0 3 (plain 8 0)) with
     | some s1 =>
       let a := memAccess s1 0 (plain 8 0) 1 1 rRD false
       (stepsFail (levelOf s1 0) (sideOf s1 0) [a] [1, 2, 3, 4, 5, 6]).isNone &&
         match transAll 0 false [a] s1 with
         | .ok ([[r]], e) => isHost r.pa && !isSystem r.pa && (fenceAll e (getSeat e 0).status [(a, [r])]).isOk &&
             !watched (getSeat e 0) a
         | _ => false
     | none => false) = true := by decide +kernel
/-- Reset with other power fields. -/
def withPow (f : Power → Power) : State := { State.reset with power := f State.reset.power }

theorem test_power_events :
    occurs powerEventEffect (.feedStateChange 0 .sag) State.reset = true ∧
    occurs powerEventEffect (.monitorOutOfRange (.rail 3)) State.reset = true ∧
    occurs powerEventEffect (.monitorOutOfRange (.droop 3)) State.reset = true ∧
    occurs powerEventEffect (.monitorInRange (.rail 3)) State.reset = true ∧
    occurs powerEventEffect (.monitorOutOfRange (.ageing 3)) State.reset = true ∧
    occurs powerEventEffect (.monitorInRange (.ageing 3)) State.reset = true ∧
    occurs powerEventEffect (.thermalLimit 0 841) State.reset = true ∧
    occurs powerEventEffect (.thermalClear (List.replicate 112 800)) State.reset = true ∧
    occurs powerEventEffect (.throttleStart 0 800) State.reset = true ∧
    occurs powerEventEffect (.throttleEnd (List.replicate 112 776)) State.reset = true ∧
    occurs powerEventEffect .holdAssert State.reset = true ∧ occurs powerEventEffect .holdClear State.reset = true ∧
    occurs powerEventEffect .paddleCourseSwitch (withPow fun p => { p with paddle := true, courseDue := true }) = true ∧
    occurs powerEventEffect .paddleExit (withPow fun p => { p with settleEnd := some 0 }) = true ∧
    occurs powerEventEffect .paddleExitComplete
      { withPow (fun p => { p with exitFrom := some 0 }) with time := 200000 } = true ∧
    occurs powerEventEffect (.journalSeal .temperature) (withPow fun p => { p with thermalT := true }) = true ∧
    occurs powerEventEffect (.journalSeal .feeds) (withPow fun p => { p with feedA := .loss, feedB := .loss }) = true ∧
    occurs powerEventEffect .journalSealComplete (withPow fun p => { p with sealing := some .feeds }) = true := by
  decide +kernel

theorem test_pin_events :
    ([Instr.endpointReset, .pcieLinkUp, .refclkLoss, .refclkReturn, .tbSyncEdge, .tbOutPulse, .bypass, .idcode,
      .samplePreload [], .extest, .clamp, .highz].all fun c => occurs pinEventEffect c State.reset) = true := by decide +kernel

/-- POR_N is high after reset; a dropout needs both feeds gone. -/
theorem test_reset_dropout : State.reset.pins.porN = true ∧
    (let p := (withPow fun p => { p with feedA := .loss, feedB := .loss }).power
     p.dropout = false ∧ p.feedA ≠ .good ∧ p.feedB ≠ .good) := by decide +kernel

/-- A boot may begin at reset, whose fuses hold no identity and whose flash holds no set (18 R495, R501). -/
theorem test_boot : State.reset.power.dropout = false ∧ State.reset.boot.result = 1 ∧ unwrapIdentity State.reset = none ∧
    State.reset.custody.tamper = [] ∧ chooseSet State.reset = none := by decide +kernel

theorem test_tamper : tamperArmed State.reset .lidMesh = true ∧ tamperArmed State.reset .vbat = false ∧
    State.reset.pins.porN = true ∧ State.reset.power.dropout = false := by decide +kernel

/-- Reset with other boot fields, at a timebase. -/
def booting (time : Nat) (f : Boot → Boot) : State := { State.reset with time := time, boot := f State.reset.boot }

theorem test_changeover_events :
    occurs changeoverEventEffect .verifyComplete (booting 0 fun b => { b with phase := 1 }) = true ∧
    occurs changeoverEventEffect .mHold (booting 998000 fun b => { b with keelNew := true, armedAt := some 0 }) = true ∧
    occurs changeoverEventEffect .changeoverBoundary (booting 1000000 fun b => { b with phase := 3, armedAt := some 0 }) = true ∧
    occurs changeoverEventEffect .drainEnd (booting 0 fun b => { b with phase := 4 }) = true ∧
    occurs changeoverEventEffect .bootLaneTimeout (booting 2500000000 fun b => { b with done := true, result := 0 }) = true ∧
    occurs changeoverEventEffect .proofSheetComplete
      { State.reset with irrix := { State.reset.irrix with mail := { nonce := some (List.replicate 32 0) } },
                         custody := { State.reset.custody with identity := some [] } } = true := by decide +kernel

/-- Case word 8 is sound, and the fence admits the host to it. -/
theorem test_aperture :
    let s := laneful 0 [] []
    let s := { s with pins := { s.pins with pcieUp := true } }
    hostReaches s = true ∧ SoundCase s (2 ^ 28 * s.pins.aperBase + (32 : BitVec 30).toNat / 4) 2 ∧
      (fenceCheck s { cls := 4, dir := 0, p := 8, n := 2 }).isOk = true ∧
      (fenceCheck s { cls := 4, dir := 1, p := 8, n := 2 }).isOk = true ∧ ((32 : BitVec 30).toNat + 7 - 1) / 4 - 8 + 1 = 2 :=
  ⟨by decide +kernel, by unfold SoundCase; decide +kernel, by decide +kernel, by decide +kernel, by decide +kernel⟩

/-- BAR0: ID reads 0x3672B100 (19 R538), a reserved offset zero; a write sets APER_BASE. -/
theorem test_bar0 :
    let s := { State.reset with pins := { State.reset.pins with pcieUp := true } }
    (match exec (.apertureRead (.bar0 0) 4) s, exec (.apertureRead (.bar0 0x10) 1) s, exec (.apertureWrite (.bar0 0x20000) [7, 1, 0, 0]) s,
        exec (.apertureWrite (.bar0 0x10) [1]) s with
     | .next t, .next u, .next v, .next w =>
       t.pins.completions == [(some [0x00, 0xB1, 0x72, 0x36], false)] && u.pins.completions == [(some [0], false)] &&
         v.pins.aperBase == 7 && w.pins.barIgnored == 1
     | _, _, _, _ => false) = true := by decide +kernel
/-- A frame of a function by a transport, from manager 1 under sequence 5, with a body. -/
def frameBy (tr : Transport) (fn : Nat) (body : List Octet) : Frame :=
  { transport := tr, ident := BitVec.ofNat 29 (identOf fn 0 1 5), octets := plainFrame body }

/-- An expedited write by the monitor mailbox, which C0.0 at M submits. -/
def mailWrite (i sub ty : Nat) (v : List Octet) : Frame := frameBy (.mailbox 0) 3 (frameBody 0 i sub ty v)

/-- The frame of a command is accepted from the mailbox, and its request has an effect: the hypotheses of FrameRequestResults. -/
def mailServes (s : State) (c : Instr) : Bool :=
  match requestFrame c with
  | some f => trClassOf f.transport == 3 && transportUp s f.transport && frameForUs s f && fFn f != 9 &&
      (commandEffect s.irrix.mail (frameCount s 1) c).isSome
  | none => false

theorem mailServes_sound {s : State} {c : Instr} (h : mailServes s c = true) :
    ∃ f x a r, requestFrame c = some f ∧ Accepted s f x a ∧ commandEffect x a c = some r := by
  unfold mailServes at h
  split at h
  · rename_i f hf
    simp only [Bool.and_eq_true, beq_iff_eq, bne_iff_ne, ne_eq] at h
    obtain ⟨⟨⟨⟨h1, h2⟩, h3⟩, h4⟩, h5⟩ := h
    obtain ⟨r, hr⟩ := Option.isSome_iff_exists.1 h5
    exact ⟨f, s.irrix.mail, frameCount s 1, r, hf, ⟨h2, h3, h4, Or.inl ⟨h1, rfl, rfl⟩⟩, hr⟩
  · simp at h

/-- The mailbox's session with every role, and its selectors at a kind and a number of way-enough. -/
def mailed (f : Session → Session) : State :=
  { State.reset with irrix := { State.reset.irrix with mail := f { roles := 7 } },
                     custody := { State.reset.custody with identity := some [] } }

theorem test_frame_requests :
    mailServes (mailed id) (.tbSet (mailWrite 0x1203 0 7 (beOctets 9 5))) = true ∧
    mailServes (mailed id) (.steerSw (mailWrite 0x4011 0 1 [1])) = true ∧
    mailServes (mailed id) (.image (mailWrite 0x4002 2 9 [7])) = true ∧
    mailServes (mailed id) (.masterKeyGenerate (mailWrite 0xA001 0 8 [1])) = true ∧
    mailServes (mailed id) (.masterKeyZeroise (mailWrite 0xA001 0 8 [2])) = true ∧
    mailServes (mailed fun x => { x with sel := [(256 * 0xF001 + 1, 4), (256 * 0xF001 + 2, 9)] })
      (.wayenoughWrite (mailWrite 0xF001 3 1 [1])) = true ∧
    mailServes (mailed id) (.paddleCommand (mailWrite 0xF002 0 1 [1])) = true ∧
    mailServes (mailed id) (.changeoverVerify (mailWrite 0xF003 0 8 [1])) = true ∧
    (let s := mailed id
     mailServes { s with boot := { s.boot with standby := 2 } } (.changeoverSwitch (mailWrite 0xF003 0 8 [2])) = true) ∧
    mailServes (mailed id) (.changeoverDiscard (mailWrite 0xF003 0 8 [3])) = true ∧
    mailServes (mailed id) (.proofRequest (mailWrite 0xF004 1 9 (List.replicate 32 1))) = true ∧
    mailServes (mailed id) (.subst (mailWrite 0xF005 0 2 [71])) = true ∧
    mailServes (mailed id) (.readReq (frameBy (.mailbox 0) 1 (frameBody 0 0x1103 0 0 []))) = true ∧
    mailServes (mailed fun x => { x with xfer := some ⟨true, 0x1110, 1, 9, 5, 389, [], 0, 0⟩ })
      (.segment (frameBy (.mailbox 0) 5 ([0, 0, 0, 50] ++ List.replicate 50 1))) = true ∧
    mailServes (mailed fun x => { x with xfer := some ⟨true, 0x1110, 1, 9, 5, 389, [], 0, 0⟩ })
      (.transferAbort (frameBy (.mailbox 0) 6 (frameBody 0 0 0 0 []))) = true ∧
    mailServes (mailed id) (.wayenough (frameBy (.mailbox 0) 0 (frameBody 0 0xF001 0 9 ([4] ++ beOctets 5 9)))) = true := by
  decide +kernel

/-- A write of an entry that persists has its effect, whether or not the log store takes it. -/
theorem test_write_request : mailServes (mailed id) (.writeReq (mailWrite 0x1103 0 3 [0, 100])) = true := by
  simp only [mailServes, requestFrame, commandEffect]
  generalize Config.persistFails _ = b
  cases b <;> decide +kernel

/-- Four root key hashes, of which record 1 may be revoked. -/
theorem test_rootkey_revoke :
    mailServes (let s := mailed id
                { s with boot := { s.boot with otp := smSetList 0 [] 0 (List.replicate 32 1) } })
      (.rootkeyRevoke (mailWrite 0x9001 1 8 [1])) = true := by decide +kernel

/-- A session of manager 1 on the dictionary window, and a frame under its next counter and tag (17 R482). -/
theorem test_frame_with_tag :
    let key : List Octet := List.replicate 32 9
    let y : Session := { trClass := 1, tr := .window, mgr := 1, roles := 7, key := key }
    let s := { State.reset with irrix := { State.reset.irrix with sessions := [y] }, pins := { State.reset.pins with pcieUp := true } }
    let f : Frame := { transport := .window, ident := BitVec.ofNat 29 (identOf 1 0 1 5),
                       octets := tagFrame key (identOf 1 0 1 5) 1 (frameBody 0 0x1103 0 0 []) }
    transportUp s f.transport = true ∧ frameForUs s f = true ∧ fFn f = 1 ∧ findSession s 1 (fMgr f) = some y ∧
      fullCounter y.rxCount (be16 f.octets 54) = 1 ∧ tagVerifies y f 1 = true := by decide +kernel

/-- A key record 1 whose modulus has 528 bits and whose exponent is 1. -/
def keyRecord : List Octet := [7] ++ beOctets 384 (2 ^ 528 - 1) ++ beOctets 4 1

/-- Reset with the window up, that key record, and an attempt of manager 1. -/
def authState : State :=
  let s := mailed id
  { s with pins := { s.pins with pcieUp := true },
           irrix := { s.irrix with values := [(256 * 0x1110 + 1, keyRecord)],
                                   auths := [⟨.window, 1, 1, 1, [], [], 0, []⟩] } }

/-- The signature verifies under it (17 R480, 18 R498). -/
theorem test_auth_signature :
    let f := frameBy .window 9 ([3] ++ List.replicate 53 0)
    transportUp authState .window = true ∧ frameForUs authState f = true ∧ fFn f = 9 ∧ fControl f = 3 ∧
      findAuth authState 1 (fMgr f) = some ⟨.window, 1, 1, 1, [], [], 0, []⟩ ∧
      managerRecord (frameCount authState 1) 1 = keyRecord ∧
      pssVerify (beNat (slice keyRecord 1 384)) (beNat (slice keyRecord 385 4)) [0, 1, 1, 1] (beOctets 66
        125835464705652211685605447545842790571975871317846377253506244838548167048500449871290958789974538515599005415674612894326942933368725525814983910243851644860)
        = true ∧ drbgRefuses authState 3 = false ∧ authState.custody.identity = some [] := by decide +kernel

/-- Reset with the dictionary window up and other fields of the management side. -/
def irrixed (time : Nat) (f : Irrix → Irrix) : State :=
  { State.reset with time := time, pins := { State.reset.pins with pcieUp := true }, irrix := f State.reset.irrix }

theorem test_frame_events :
    occurs frameEventEffect (.authRequest (frameBy .window 9 ([1, 0, 0, 18, 1, 1] ++ List.replicate 48 0)))
      (irrixed 0 fun x => { x with values := [(256 * 0x1110 + 1, keyRecord)] }) = true ∧
    occurs frameEventEffect (.authTimeout .window 1)
      (irrixed 1000000001 fun x => { x with auths := [⟨.window, 1, 1, 1, [], [], 0, []⟩] }) = true ∧
    occurs frameEventEffect (.sessionIdleTimeout .window 1)
      (irrixed (10 ^ 13) fun x => { x with sessions := [{ trClass := 1, tr := .window, mgr := 1 }] }) = true ∧
    occurs frameEventEffect (.transferTimeout (.mailbox 0) 1)
      (irrixed 100000000 fun x => { x with mail := { xfer := some ⟨true, 0x1110, 1, 9, 5, 389, [], 0, 0⟩ } }) = true ∧
    occurs frameEventEffect (.heartbeat 0)
      (let s := irrixed 1000000000 fun x => { x with values := [(256 * 0x1101, [0])] }
       { s with pins := { s.pins with node := 1 } }) = true ∧
    occurs frameEventEffect (.busOff 0) State.reset = true ∧ occurs frameEventEffect (.busOffRecovery 0) State.reset = true ∧
    occurs frameEventEffect .windowEventDrop (irrixed 1000000 fun x => { x with held := [(true, 0, [])] }) = true ∧
    occurs frameEventEffect (.rspHeadWrite 3) (irrixed 0 id) = true ∧
    occurs frameEventEffect (.rspHeadWrite 3) (irrixed 0 fun x => { x with held := [(true, 0, [])] }) = true ∧
    occurs frameEventEffect (.dictionaryWindowRequest (List.replicate 128 0)) (irrixed 0 id) = true ∧
    occurs frameEventEffect (.mailboxSubmit 0) State.reset = true := by decide +kernel

theorem test_mirror_events :
    let s := ported (laneful 0 [] [])
    let s := { s with irrix := { s.irrix with values := [(256 * 0x1105 + 1, [1])] } }
    occurs frameEventEffect (.mirrorNeighbour 0 (stored s 0x1105 2)) s = true ∧
      occurs frameEventEffect (.mirrorDatagram 0 [] []) s = true ∧
      occurs frameEventEffect (.mirrorDatagram 0 [] (List.replicate 68 0)) s = true := by decide +kernel

/-- A way-enough command of a kind and a number waits for its action. -/
def waiting (kind n : Nat) (acted : Bool) : State :=
  let s := laneful 0 [] []
  { s with irrix := { s.irrix with way := [{ kind := kind, number := n, at_ := 0, acted := acted, by_ := none, tr := none }] } }

theorem test_way_events :
    occurs wayEffect (.wayenoughLane 2) (waiting 1 2 false) = true ∧ occurs wayEffect (.wayenoughJob 5) (waiting 2 5 false) = true ∧
    occurs wayEffect (.wayenoughPlaten 5) (waiting 3 5 false) = true ∧
    occurs wayEffect (.wayenoughChannel 9) (waiting 4 9 false) = true ∧
    occurs wayEffect (.wayenoughCompartment 5) (waiting 5 5 false) = true ∧
    occurs wayEffect (.wayenoughCrew 3) (waiting 6 3 false) = true ∧ occurs wayEffect .wayenoughDevice (waiting 7 0 false) = true ∧
    occurs wayEffect .wayenoughComplete (waiting 4 9 true) = true ∧ dark (waiting 4 9 false).power = false := by decide +kernel
/-- Both sides of a stroke boundary of crew T, whose stroke is 2,000 ns (08 R244). -/
theorem test_idle_tick : 500 * ((getCox State.reset 0).n + 1) = 2000 ∧
    (match step { State.reset with time := 1999, counters := [(5, 1)] }, step { State.reset with time := 1998, counters := [(5, 1)] } with
     | .next t, .next u => t.time == 2000 && t.galley.shadow == [(5, 1)] && u.time == 1999 && u.galley.shadow == []
     | _, _ => false) = true := by decide +kernel

/-- A derivation from the untagged c8, and one that would widen it, fail their conditions. -/
theorem test_derivation_refused :
    (match deriveEffect (.cinc 0 8 9 2), fetched two 0 (.cinc 0 8 9 2) with
     | some (_, f), some s1 => (f s1).isNone && !occupied (getSeat s1 0).svM
     | _, _ => false) = true := by decide +kernel

/-- END in bank 0 and at M, and a RET that releases the seat (05 R164, R165). -/
theorem test_control_cases :
    let s := laneful 0 [] []
    let u := modSeat (running .U false) 0 fun x => setBank x 2 { st := .ready }
    let u := { u with lanes := s.lanes, sys := { u.sys with laneBase := 1 } }
    let m := modSeat s 0 fun x => { setBank x 0 { st := .running, lane := 5 } with svM := trapped }
    issuesWith u 0 (.endAct 0) (fun s => descReads s 5 1 && (laneSt s 5).state != lsClosing &&
      (getBank (getSeat s 0) 0).st == .running && !anyOccupied (getSeat s 0) && (getSeat s 0).pendStow.isEmpty &&
      (getSeat s 0).pendPair.isEmpty && !residDue s.time (getSeat s 0) && (getBank (getSeat s 0) 2).st == .ready &&
      (List.range 8).all fun c => (getBank (getSeat s 0) c).role == .none) = true ∧
    issuesWith m 0 (.endAct 0) (fun s => saveBank (getSeat s 0).svM == 0 && classOf s 5 == some 5 && clReject s 5 == 5 &&
      descReads s 5 1 && (laneSt s 5).state != lsClosing && (getBank (getSeat s 0) 0).st == .running &&
      (List.range 8).all fun c => !bankAsks (getBank (getSeat s 0) c).st || c == 0) = true ∧
    issuesWith State.reset 0 (.ret 0) (fun s => !occupied (getSeat s 0).svM &&
      (List.range 8).all fun c => (getBank (getSeat s 0) c).role == .none) = true := by decide +kernel

/-- SYNCI with a stale word, and SEALSYNC behind a job. -/
theorem test_sync_cases :
    let s := modSeat State.reset 0 fun x => { x with codeOn := true, stale := [(3, true)], code := [(3, 7)] }
    issuesWith s 0 (.synci 0) (fun s => (getSeat s 0).stale == [(3, true)]) = true ∧
    issuesWith { State.reset with engines := { State.reset.engines with jobs := [{ job0 with sealWaits := [0] }] } } 0 (.sealsync 0)
      (fun s => s.engines.jobs.any fun j => j.sealWaits.contains 0) = true := by decide +kernel

/-- A check stop of a crew that has none (07 R235). -/
theorem test_check_stop :
    let d := modSeat State.reset 0 fun x => { x with svM := trapped }
    (getSeat d 0).checkStop = none ∧ (getCox d (leafOf 0)).pendSub = [] ∧
      ∀ r ∈ crewSeats (leafOf 0), (getSeat d r).checkStop = none := by decide +kernel

/-- The stick is bound to the last 16 Ki words of the first 16 Mi, and its code store to the same. -/
def sticked : State := modSeat two 0 fun x =>
  { x with stickOn := true, stickUse := true, stickBase := 1023, codeOn := true, codeBase := 1023, stick := [(5, 9)] }

theorem test_stick_span :
    let a := 16384 * 1023
    let m : MemOp := plain 8 5
    let s := modCur sticked 0 fun b => { b with c := smSet {} b.c 8 (capAt 0o77740000 (rRD + rWR)) }
    ([Instr.ldw 0 3 m, .stw 0 3 m].all fun i => (fetched s 0 i).isSome) = true ∧
      memEa (after s 0 (.ldw 0 3 m)) 0 m 1 = ((a + 5 : Nat) : Int) ∧ memBadIndex (after s 0 (.ldw 0 3 m)) 0 m = false ∧
      StickSpan (after s 0 (.ldw 0 3 m)) 0 (a + 5) 1 ∧ StickSpan (after s 0 (.stw 0 3 m)) 0 (a + 5) 1 ∧
      Reaches (cGet (after s 0 (.ldw 0 3 m)) 0 8) (a + 5) 1 (rRD + rWR) :=
  ⟨by decide +kernel, by decide +kernel, by decide +kernel, by unfold StickSpan; decide +kernel, by unfold StickSpan; decide +kernel,
    by unfold Reaches; decide +kernel⟩

/-- A load of seat C0.0 that passes the steps of its capability, and what then refuses it: translation, the fence, a watch range,
or poison (02 R48 steps 7 and 8, 07 R228, 10 R322). -/
def refusedBy (s : State) (m : MemOp) (p : State → Access → List Run → Bool) (untranslated : Bool) : Bool :=
  issuesWith s 0 (.ldw 0 3 m) fun s1 =>
    let a := memAccess s1 0 m 1 1 rRD false
    (stepsFail (levelOf s1 0) (sideOf s1 0) [a] [1, 2, 3, 4, 5, 6]).isNone && s1.mem.flips.isEmpty && s1.mem.rot.isEmpty &&
      !occupied (getSeat s1 0).svM &&
      match transAll 0 false [a] s1 with
      | .error (t, _) => untranslated && t.step == 7
      | .ok ([rs], e) => !untranslated && p e a rs
      | .ok _ => false

/-- As running, with a capability for data in c8. -/
def loading (cursor : Word) : State := modCur (running .U false) 0 fun b => { b with c := [(8, capAt cursor rRD)] }

theorem test_later_refusals :
    let l := loading 0o100000100
    let isOk := fun (e : State) a rs => (fenceAll e (getSeat e 0).status [(a, rs)]).isOk
    refusedBy (loading 0o200000000) (plain 8 0) (fun _ _ _ => true) true = true ∧
    refusedBy
      { l with fence := { l.fence with d := [(1, 0o77777777), (2, 0o000007777777), (3, 0b11100000001)] } } (plain 8 0) (fun e a rs => !isOk e a rs) false = true ∧
    refusedBy (modSeat l 0 fun x => { x with watchBase := 0o100000100, watchLast := 0o100000100, watchCtl := 1 }) (plain 8 0)
      (fun e a rs => isOk e a rs && watched (getSeat e 0) a) false = true ∧
    refusedBy { l with mem := { l.mem with poison := [(0o20000020, true)] } } (plain 8 0)
      (fun e a rs => isOk e a rs && !watched (getSeat e 0) a &&
        (rs.findSome? fun r => seatPoison e 0 r.pa r.n false) == some 0o100000100) false = true := by decide +kernel

/-- The commands of STICK_CTL that copy nothing, and the value of each that does (06 R210). -/
theorem test_stick_commands :
    (let s := atM0 [(1, 2)] []
     issuesWith s 0 (.saveData 0 1) (fun s => sysGranted s 0 0o203 true 2 && !(getSeat s 0).stickOn && s.mem.flips.isEmpty)) = true ∧
    (let s := atM0 [(1, 4)] []
     issuesWith s 0 (.release 0 1) (fun s => sysGranted s 0 0o203 true 4)) = true ∧
    (let s := modSeat (atM0 [(1, 1)] []) 0 fun x => { x with stickBase := 5 }
     issuesWith s 0 (.loadData 0 1) (fun s => sysGranted s 0 0o203 true 1 && s.mem.poison.isEmpty && s.fence.d.isEmpty)) = true := by
  decide +kernel

/-- A fence with no descriptor admits a seat at M to case. -/
theorem bare_fence_admits {s : State} {dir p n : Nat} {tag : Bool} (hd : s.fence.d = []) (ha : s.sys.setAside = 0) (hn : 1 ≤ n)
    (hp : p + n ≤ caseEnd) (hdir : dir ≠ 2) : (fenceCheck s (atMReq dir p n tag)).isOk = true := by
  have h0 : isCase p = true ∧ isCase (p + n - 1) = true := by
    simp only [isCase, decide_eq_true_eq]; omega
  have h1 : descsOver s.fence p n = [] := by simp [descsOver, descWord, hd, smGet, bit]
  have h2 : ¬0o200000000 < p + n := by simp [caseEnd] at hp; omega
  simp [fenceCheck, atMReq, fenceClosed, regionOf, h0, h1, h2, anyClash, touchesSetAside, ha, hdir, defaultRegion,
    Except.isOk, Except.toBool]

/-- The windows of seat C0.0 after reset, at both ends of case (06 R208, R210). -/
theorem test_stick_windows : ∀ b ∈ [0, 1535], WindowReads two (16384 * b) ∧ WindowWrites two (16384 * b) := by
  intro b hb
  have hb : 16384 * b + 16384 ≤ caseEnd := by revert b; decide
  refine ⟨⟨hb, fun a _ ha => ⟨?_, bare_fence_admits rfl rfl (by omega) (by omega) (by omega)⟩⟩,
    hb, fun g tag hg => bare_fence_admits rfl rfl (by omega) (by omega) (by omega)⟩
  have : isBulk a = false := by simp [isBulk, caseEnd] at hb ⊢; omega
  simp [poisonedAt, this, two, atM0, modCur, modSeat, setSeat, State.reset, smGet]

/-- No memory error waits, and the unit reaches all of a lane's descriptor. -/
def reachable (s : State) (l : Nat) : Bool :=
  noUpset s && decide (descAddr s l + 16 ≤ caseEnd) && !smGet false s.lanes.fault l &&
    (List.range 4).all fun g => (List.range 2).all fun w => (descCheck s l g w).isOk

/-- An LOPEN of lane 6, whose stow area does not overlap its descriptor, and an LCLOSE of lane 2 (09 R296, R297). -/
theorem test_lane_opens_and_closes :
    issuesWith (laneful 0 [] [(8, capAt 6 rLN), (9, capSetSeal (capAt 64 (rGT + rEX)) 5), (10, capAt 0o1000 (rRD + rWR))]) 0
      (.lopen 0 3 8 9 10) (fun s => levelOf s 0 == .M && !inRing s 0 &&
        openFail s 0 (cGet s 0 8) (cGet s 0 9) (cGet s 0 10) == none && classOf s 6 == some 6 && reachable s 6 &&
        (laneSt s 6).state == lsClosed && (ringAdmits s 6 6).isOk && decide (0o1000 + 256 ≤ descAddr s 6) &&
        (fenceCheck s (atMReq 1 (0o1000 + 0o143) 1 false)).isOk) = true ∧
    issuesWith (laneful 0 [] [(8, capAt 2 rLN)]) 0 (.lclose 0 3 8) (fun s => laneCap s 0 8 == some 2 && classOf s 2 == some 2 &&
        reachable s 2 && (laneSt s 2).state == lsOpen && s.lanes.held.isEmpty && s.lanes.stowed.isEmpty) = true := by decide +kernel

/-- Paddle mode, an admission limit of 1 that is reached, and a put that passes, of as many slots as there is credit (09 R289). -/
theorem test_put_orders :
    let s := laneful 0 [] []
    let limited := { s with lanes := { s.lanes with admitted := [(2, 1)], cls := smSet 0 s.lanes.cls 20 (field 18 10 ||| 1) } }
    let most := List.replicate 128 (1 : Word)
    (descReads s 2 1 && (descCheck s 2 1 1).isOk && (ringAdmits s 2 2).isOk && !clEss s 2 && !clChk s 2) = true ∧
    clAdmit s 2 = 0 ∧ clAdmit limited 2 = 1 ∧ (laneSt s 2).credit = (128 + clSS s 2 - 1) / clSS s 2 ∧
    (putLane { s with power := { s.power with paddle := true } } 2 most).1 = 9 ∧ (putLane limited 2 most).1 = 9 ∧
    (putLane s 2 most).1 = 0 := by decide +kernel

/-- A register pass is due at crew 3's leaf cox, and the tables are in canonical form (02 R74). -/
theorem test_register_pass :
    let s := { setCox State.reset 3 { passDue := some 0 } with time := 2000 }
    (0 / strokeNs (getCox s 3) < s.time / strokeNs (getCox s 3)) ∧ smWf {} s.sys.vectors = true ∧ seatServes s 0 = true ∧
      seatServes s 8 = false ∧ 0 ∈ crewSeats 3 ∧ 8 ∈ crewSeats 3 ∧ smWf {} (getSeat s 0).banks = true ∧
      smWf {} (getBank (getSeat s 0) 8).c = true := by decide +kernel

/-- Each of the other descriptors of a PARSE: OPLEN 2 before one operand, form 1, not resident, data not in prefix form, and a
SKIP at the octet count (14 R430, R431). -/
theorem test_parse_refusals :
    ([(0, 2, 0, seqWords [1, 2]), (field 16 1, 1, 0, seqWords [1, 2]), (0, 2, 0, [0, 0]), (0, 1, 2, seqWords [1, 2])].all fun e =>
      match taken (formedWith ([field 27 0o400 ||| 4 ||| e.1, 77, field 0 e.2.1, field 0 e.2.2.1] ++ e.2.2.2)) 0o010 3 1 with
      | some (m, t) => bits (m.words.getD 0 0) 35 27 == 0o400 &&
          !(m.words.length == 4 + bits (m.words.getD 2 0) 12 0 && formResident t (bits (m.words.getD 0 0) 23 16) &&
            (seqOctets (m.words.drop 4)).any fun os => decide (bits (m.words.getD 3 0) 17 0 < os.length))
      | none => false) = true := by decide +kernel

/-- A descriptor in progress whose source the host holds: its burst times out (13 R411, 19 R537). -/
theorem test_host_burst :
    let s := running4 0 0
    let s := setChan s 0 { getChan s 0 with src := 0o200000000000 }
    let s := { s with pins := { s.pins with pcieUp := true }, sys := { s.sys with hwinOn := true } }
    hostUp s = true ∧ s.pins.porN = true ∧ dark s.power = false ∧ Runs s 0 0 (moving 0 0) ∧
      isHost (getChan s 0).src.toNat = true ∧ (moving 0 0).status = 0 :=
  ⟨by decide +kernel, by decide +kernel, by decide +kernel, by unfold Runs; decide +kernel, by decide +kernel, by decide +kernel⟩

/-- A tampered module held in reset, and one without a noise source (18 R501, R520). -/
theorem test_boot_stops :
    let s := { State.reset with pins := { State.reset.pins with porN := false },
                                custody := { State.reset.custody with tamper := [0] } }
    s.pins.porN = false ∧ s.custody.tamper ≠ [] ∧
    (match exec (.porRelease 1 true true) s, exec (.porRelease 1 false false) State.reset with
     | .next t, .next u => t.boot.result == 7 && u.boot.result == 4
     | _, _ => false) = true := by decide +kernel

/-- A lane way-enough that waits, on an open lane that the unit reaches and whose notices go to no other (09 R314). -/
theorem test_way_lane :
    let s := waiting 1 5 false
    WayPending s 1 5 ∧ classOf s 5 = some 5 ∧ reachable s 5 = true ∧ s.engines.jobs = [] ∧ clReject s 5 = 5 :=
  ⟨by unfold WayPending; decide +kernel, by decide +kernel, by decide +kernel, by decide +kernel, by decide +kernel⟩
/-- BAR0: the MSI-X table and a request slot read back what the host wrote (19 R538). -/
theorem test_bar0_tables :
    let s := { State.reset with pins := { State.reset.pins with pcieUp := true } }
    inMsix 0x10000 = true ∧ inSlots 0x200000 = true ∧
    (match exec (.apertureWrite (.bar0 0x10000) [5, 6]) s, exec (.apertureWrite (.bar0 0x200000) [7]) s with
     | .next t, .next u => msixOctet t.pins 1 == 6 && smGet 0 u.irrix.window 0 == 7
     | _, _ => false) = true := by decide +kernel

/-- The words that 04 R128 and the codes of 05 give, written field by field, decode to their instructions; the M-format word is
the one that 04 works out. -/
theorem test_words :
    decodeSeat 0 0o240522467775 0 = .ok (.ldw 0 5 { ca := 4, mode := 5, ix := 6, disp := -3 }) ∧
    decodeSeat 0 0b0000001_00011_00001_00010_000000000_00000 0 = .ok (.add 0 3 1 2) ∧
    decodeSeat 0 0b0001000_00011_00001_1111111111111111111 0 = .ok (.addi 0 3 1 (-1)) ∧
    decodeSeat 0 0b1000000_0010_00001_00010_111111111111110 0 = .ok (.b 0 2 1 2 (-2)) ∧
    decodeSeat 0 0b1011000_00011_00000_00_000000001000_00000 0 = .ok (.sysrd 0 3 8) ∧
    decodeSeat 0 0b0110000_01000_01001_00010_000000000_00001 0 = .ok (.movw 0 8 9 2 1) ∧
    decodeSeat 0 0b1010011_00011_01000_00001_000000000_00001 0 = .ok (.ltake 0 3 8 1 1) ∧
    decodeSeat 0 0b1000011_00000_00000_0000000000000000101 0 = .ok (.trap 0 5) ∧
    decodeSeat 0 0 0 = .error 0o17 := by decide +kernel

/-- Every check of WellFormed refuses a term: a register beyond its file, an odd pair, a base that an index uses up, a unit of
another kind, lengths, function codes, an assigned word, a seal out of range. -/
theorem test_ill_formed :
    ([Instr.cmov 0 16 1, .ldd 0 3 (plain 1 0), .ldw 0 3 { ca := 1, mode := 1, ix := 0, disp := 5 }, .b 0 9 0 0 0,
      .modadd 0o140 0, .aesEcb 0o100 0, .sha 0o140 0, .parse 0o100 0, .engineResponse 0o001 0,
      .throttleEnd [], .thermalClear [], .dictionaryWindowRequest [], .apertureRead (.bar2 0) 0, .apertureRead (.bar2 0) 4097, .apertureRead (.bar0 0x3FFFFF) 2,
      .apertureWrite (.bar2 0) [], .apertureWrite (.bar2 0) (List.replicate 513 0),
      .apertureWrite (.bar0 0x3FFFFF) [0, 0], .readReq (mailWrite 0 0 0 []),
      .writeReq (frameBy .window 1 []), .segment (mailWrite 0 0 0 []), .transferAbort (mailWrite 0 0 0 []),
      .wayenough (mailWrite 0 0 0 []), .authRequest (mailWrite 0 0 0 []), .authSignature (frameBy .window 9 (List.replicate 54 0)) [],
      .wayenoughCompartment 0, .wayenoughCompartment 65534, .unassignedOpcode 0 0b0000001_00011_00001_00010_000000000_00000 0].all
      fun c => !wellFormed c) = true := by decide +kernel

/-- A queue of one command from reset: the step runs it, and the memory after it is in canonical form. -/
theorem test_step :
    let s : State := { State.reset with pending := [.li 0 3 7] }
    (s.mem.wf && (match step s with | .next t => t.pending.isEmpty && wGet t 0 3 == 7 | _ => false)) = true ∧
    (match step State.reset with | .next t => t.time == 1 | _ => false) = true := by decide +kernel

/-- An engine command to a code that is no engine, and a PARSE to one that is no compositor, stop (09 R277). -/
theorem test_stops : compositorCode 0o100 = false ∧ (platenCode 0o200 || cipherCode 0o200 || digestCode 0o200) = false ∧
    (match exec (.parse 0o100 0) State.reset with | .fault .noSuchUnit => true | _ => false) = true := by decide +kernel
/-- Word register r of C0.0 after an instruction. -/
def wordAfter (i : Instr) (s : State) (r : Nat) : Option Word :=
  match exec i s with
  | .next t => some (wGet t 0 r)
  | _ => none

/-- The example of packed octets in 05, below R150. -/
theorem test_packed_octets :
    let s := atM0 [(5, 0o000024040531), (6, 0o000531501520)] []
    wordAfter (.ocnt 0 7 6) s 7 = some 0o13 ∧ wordAfter (.ounpk 0 7 6) s 7 = some 0o000024040531 ∧
    wordAfter (.oget 0 7 6 0 1) s 7 = some 0o501 ∧ wordAfter (.opack 0 7 5 3) s 7 = some 0o000531501520 := by decide +kernel

/-- Edges of 05 R143 to R145: a sum that wraps, a shift by 36, the most negative number over -1, an arithmetic shift. -/
theorem test_integer_edges :
    let s := atM0 [(1, 0o777777777777), (2, 2), (4, 36), (5, 0o400000000000)] []
    wordAfter (.add 0 3 1 2) s 3 = some 1 ∧ wordAfter (.sll 0 3 2 4) s 3 = some 0 ∧
    wordAfter (.div 0 3 5 1) s 3 = some 0o400000000000 ∧ wordAfter (.sra 0 3 5 4) s 3 = some 0o777777777777 := by
  decide +kernel

/-- The word of the LDM example in 05, below R159. -/
theorem test_word_ldm : decodeSeat 0 0o270310400000 0 = .ok (.ldm 0 3 { ca := 2, mode := 1, ix := 0, disp := 0 }) := by
  decide +kernel

/-! Witnesses of the clauses that the sitting's rules added. -/

/-- The first fetch of a seat at U uses the level-1 entry of its map, and at M none (10 R347). -/
theorem test_fetch_entries :
    entriesUsed 0 (fetchAccess (running .U false) 0 1) 8 false (running .U false) = [4096] ∧
    (running .U false).mem.flips = [] ∧ (running .U false).mem.rot = [] ∧
    entriesUsed 0 (fetchAccess two 0 1) 8 false two = [] := by decide +kernel

/-- C0.0 at U on a side, with c10 and c11 a gate pair for a side under a seal, CUR_SEAL and XCTX given. -/
def gating (side to_ : Bool) (v cur : Nat) (xctx : Word) : State :=
  let gate := fun r : Nat => capSetGlobal (capSetSeal { rootCap 0o777777777777 (rGT + r) to_ with w0 := 64 } v) (to_ && !side)
  let s := modSeat (running .U false) 0 fun x => { x with status := { x.status with side := side } }
  let pcc : Cap := { rootCap 0o777777777777 (rEX + rRD) side with w0 := 8 }
  let s := modCur s 0 fun b => { b with pcc := pcc, c := [(10, gate rEX), (11, gate rRD)], ctx := mkCtx cur 0, xctx := xctx, xretPc := 64 }
  { s with sys := { s.sys with sealLive := [(5, true), (65534, true)], mapBase := [(0, 0o14000), (128, 0o14000)] },
           fence := { s.fence with d := [(1, 0o777777777777), (2, 0o000007777777), (3, 0b11100000011)] } }

/-- Each of the four cases of CINVOKE has its state: a call with a CUR_SEAL and with none, a crossing in, a crossing back, and M. -/
theorem test_gate_cases :
    ([(false, false, 5, 7, 0), (false, false, 5, 0, 0), (false, true, 65534, 7, 0), (true, false, 65534, 65534, 0o400)].all fun e =>
      issuesWith (gating e.1 e.2.1 e.2.2.1 e.2.2.2.1 e.2.2.2.2) 0 (.cinvoke 0 10 11) fun s =>
        gateOpens s 0 (cGet s 0 10) (cGet s 0 11) && levelOf s 0 == .U) = true ∧
    issuesWith sealing 0 (.cinvoke 0 10 11) (fun s => gateOpens s 0 (cGet s 0 10) (cGet s 0 11) && levelOf s 0 == .M) = true := by
  decide +kernel

/-- C0.0 at U in ring 2, in a region of ring limit 2, below a gate region of ring limit 0. -/
def ringed : State :=
  let s := modSeat (running .U true) 0 fun x => { x with status := { x.status with ring := 2 } }
  { s with fence := { s.fence with d := [(1, 0o77777777), (2, 0o000007777777), (3, 0b11110000001), (4, 0o100000000), (5, 0o777777777777),
                                         (6, 0o000007777777), (7, 0b11100000001)] } }

/-- A CALLG within a ring, and one from ring 2 to ring 0 at DEPTH 0 (03 R106, R107). -/
theorem test_ring_gate : ([running .U true, ringed].all fun s => issuesWith s 0 (.callg 0 1 0) fun s =>
    (getSeat s 0).status.ringMode && ringDepth (curBank (getSeat s 0)).ringLink == 0 &&
      (gateEntry s 0 1 0).any fun e => decide (e.2.1.ringlim = 0)) = true := by decide +kernel

/-- A store that was checked before C0.0 wrote the fence waits in a pair buffer (11 R366). -/
theorem test_fencew_waits :
    issuesWith (setCox State.reset 3 { pairs := [(0, { used := true, outA := [{ kind := 0, addr := 8, words := [1], tags := [], waits := [0] }] })] })
      0 (.fencew 0) (fun s => levelOf s 0 != .U && fenceAwaits s 0) = true := by decide +kernel

/-- VLD and VST through the null capability, an LPUT of 4 words and of none, and an LTAKE, each with its access (05 R173 to R175). -/
theorem test_failed_lane_access :
    ([Instr.vld 0 1 (plain 8 0), .vst 0 1 (plain 8 0)].all fun i => issuesWith (modSeat wide0 0 fun x => { x with status := { x.status with wideOn := true } }) 0 i fun s =>
      (statusOfSeat s 0).wideOn) = true ∧
    (stepsFail .M false [memAccess two 0 (plain 8 0) 8 8 rRD false] [1, 2, 3, 4, 5, 6]).isSome = true ∧
    issuesWith (laneful 0 [(1, field 16 4 ||| 2)] []) 0 (.lput 0 3 8 1) (fun s => bits (wGet s 0 1) 28 16 == 4 &&
      (stepsFail (levelOf s 0) (sideOf s 0) [{ cap := {}, ea := 0, n := 4, need := rRD }] [1, 2, 3, 4, 5, 6]).isSome) = true ∧
    ([Instr.lput 0 3 8 1, .ltake 0 3 8 1 0].all fun i => issuesWith (laneful 0 [(1, 2)] []) 0 i fun s =>
      bits (wGet s 0 1) 28 16 == 0 &&
        (stepsFail (levelOf s 0) (sideOf s 0) [{ cap := {}, ea := 0, n := 1, need := rWR, write := true }] [1, 2, 3, 4, 5]).isSome) = true := by
  decide +kernel

/-- Do the accesses pass steps 1 to 8 and WATCH? -/
def reaches (s : State) (q : SeatNo) (as : List Access) : Bool :=
  (stepsFail (levelOf s q.val) (sideOf s q.val) as [1, 2, 3, 4, 5, 6]).isNone &&
    match transAll q.val false as s with
    | .ok (rss, e) => (fenceAll e (getSeat e q.val).status (as.zip rss)).isOk && (as.find? (watched (getSeat e q.val))).isNone
    | .error _ => false

theorem reaches_sound {s : State} {q : SeatNo} {as : List Access} (h : reaches s q as = true) :
    ∃ rss e, AccessesReach s q as rss e := by
  unfold reaches at h
  simp only [Bool.and_eq_true, Option.isNone_iff_eq_none] at h
  obtain ⟨h1, h2⟩ := h
  split at h2
  · rename_i rss e he
    simp only [Bool.and_eq_true, Option.isNone_iff_eq_none] at h2
    exact ⟨rss, e, h1, he, h2.1, h2.2⟩
  · simp at h2

/-- An LPUT to lane 2, whose producer rule admits none, with a source that passes (05 R173). -/
theorem test_lput_lane :
    let s := laneful 0 [(1, field 16 4 ||| 2)] [(8, capAt 64 rRD)]
    issuesWith { s with lanes := { s.lanes with cls := smSet 0 s.lanes.cls 21 0 } } 0 (.lput 0 3 8 1) (fun s =>
      reaches s 0 [{ cap := cGet s 0 8, ea := 64, n := 4, need := rRD }] && s.mem.poison.isEmpty && s.mem.flips.isEmpty &&
        putRefused s 0 2 && descReads s 2 1) = true := by decide +kernel

/-- An LTAKE whose capability ends within the message of three words (05 R175). -/
theorem test_ltake_bounds :
    let s := modCur messaged 0 fun b => { b with c := [(8, { capAt 64 (rRD + rWR) with w2 := 65 })] }
    issuesWith s 0 (.ltake 0 3 8 1 0) (fun s =>
      (takeHead s 0 2).1.map (fun m => m.words.length) == some 3 &&
        (stepsFail (levelOf s 0) (sideOf s 0) [{ cap := cGet s 0 8, ea := 64, n := 3, need := rWR, write := true, each := true }]
          [1, 2, 3, 4, 5, 6]).isSome) = true := by decide +kernel
/-- As blocks, with c8 and c9 ending after one and two of the words they must reach, and no higher bank asking (05 R157, R159). -/
def cutBlocks : State :=
  modCur blocks 0 fun b => { b with c := smSet {} (smSet {} b.c 1 { capAt 0 (rRD + rWR) with w2 := 64 }) 8 { capAt 64 (rRD + rWR) with w2 := 65 } }

theorem test_cut_transfers :
    ([Instr.ldm 0 3 (plain 1 0o100), .stm 0 3 (plain 1 0o100), .movw 0 8 9 2 0, .fillw 0 8 1 2].all fun i => issuesWith cutBlocks 0 i fun s =>
      memEa s 0 (plain 1 0o100) 2 == 64 && !memBadIndex s 0 (plain 1 0o100) && capLast (cGet s 0 1) + 1 == 64 + 1 &&
        capCursor (cGet s 0 8) == 64 && capLast (cGet s 0 8) + 1 == 64 + 2 && !bit (curBank (getSeat s 0)).progress 35 &&
        !interrupted s 0 && !occupied (getSeat s 0).svM && !mHeld s) = true ∧
    PlainSpan (after cutBlocks 0 (.ldm 0 3 (plain 1 0o100))) 0 64 1 ∧ PlainSpan (after cutBlocks 0 (.movw 0 8 9 2 0)) 0 64 2 ∧
    PlainSpan (after cutBlocks 0 (.movw 0 8 9 2 0)) 0 128 5 ∧ Reaches (cGet cutBlocks 0 8) 64 2 rWR ∧
    Reaches (cGet cutBlocks 0 1) 64 1 (rRD + rWR) := by
  refine ⟨by decide +kernel, ?_, ?_, ?_, ?_, ?_⟩ <;> first | (unfold PlainSpan; decide +kernel) | (unfold Reaches; decide +kernel)

/-- Does a read of word n by SYSRD give what sysValue says of it? -/
def readsValue (s : State) (n : Nat) : Bool :=
  issuesWith s 0 (.sysrd 0 3 (BitVec.ofNat 12 n)) fun s => sysGranted s 0 n false 0 && sysValue s 0 n == some (sysRead s 0 n).1

/-- Words of each kind that sysValue names, at the ends of its ranges (04 R126). -/
theorem test_system_words :
    ([0, 0o10, 0o11, 0o12, 0o13, 0o14, 0o15, 0o41, 0o100, 0o117 - 2, 0o120, 0o140, 0o156, 0o160, 0o163, 0o167, 0o170, 0o172, 0o400, 0o401,
      0o411, 0o420, 0o421, 0o430, 0o440, 0o451, 0o453, 0o501, 0o510, 0o1000, 0o1377].all (readsValue two)) = true ∧
    sysValue two 0 0o40 = none ∧ sysValue two 0 0o22 = none ∧ sysGranted two 0 0o40 false 0 = true := by decide +kernel

/-- Does a write of all ones to word n read back as sysBack says? -/
def backs (n : Nat) : Bool :=
  let s := atM0 [(1, 0o777777777777)] []
  issuesWith s 0 (.syswr 0 1 (BitVec.ofNat 12 n)) fun s =>
    sysGranted s 0 n true (wGet s 0 1) &&
      match sysValue s 0 n with
      | some old => (sysBack n (wGet s 0 1) old).isSome && sysValue (sysWrite s 0 n (wGet s 0 1)).2 0 n == sysBack n (wGet s 0 1) old
      | none => false

theorem test_words_back :
    ([0o11, 0o12, 0o13, 0o14, 0o15, 0o100, 0o107, 0o110, 0o111, 0o114, 0o115, 0o120, 0o156, 0o160, 0o161, 0o162, 0o163, 0o167, 0o170, 0o171,
      0o172, 0o400, 0o411, 0o420, 0o421, 0o451, 0o452, 0o453, 0o1000, 0o1377].all backs) = true := by decide +kernel

/-- Does a row that writes a system word issue at M from w1, granted, with a test? -/
def grants (i : Instr) (n : Nat) (w : Word) (p : State → Bool) : Bool :=
  issuesWith (atM0 [(1, w)] []) 0 i fun s => sysGranted s 0 n true w && wGet s 0 1 == w && p s

/-- Every row of a system word with its condition; SV_XFER at SEL 10 and 11, and each KIND of BANK_SEL and BANK_DATA (07 R218, R219). -/
theorem test_word_rows :
    (grants (.svXferLoad 0 1) 0o164 10 (fun _ => true) && grants (.svXferLoad 0 1) 0o164 11 (fun _ => true) &&
     grants (.svXferStore 0 1) 0o164 (32 + 10) (fun _ => true) && grants (.svXferStore 0 1) 0o164 (32 + 11) (fun _ => true) &&
     ([0, 0o200, 0o217, 0o220, 0o237, 0o4200].all fun w => grants (.bankSelFetch 0 1) 0o165 (0o10000 ||| w) fun _ => true) &&
     ([0, 0o200, 0o217, 0o220, 0o237, 0o4200].all fun w => grants (.bankSelPlace 0 1) 0o165 (0o20000 ||| w)
       fun s => (getSeat s 0).status.bank == 8) &&
     grants (.bankDataWrite 0 1) 0o166 7 (fun s => (getSeat s 0).status.bank == 8) &&
     grants (.setasideSet 0 1) 0o440 128 (fun s => !s.sys.setAside.testBit 7) &&
     grants (.measExtend 0 1) 0o500 0o400000000003 (fun s => !s.sys.measLock) &&
     grants (.ethModeWrite 0 1) 0o510 1 (fun _ => true) && grants (.paddleReq 0 1) 0o461 1 (fun _ => true)) = true ∧
    issuesWith { atM0 [] [] with sys := { (atM0 [] []).sys with setAside := 128 } } 0 (.setasideClear 0 1)
      (fun s => sysGranted s 0 0o440 true 0 && s.sys.setAside.testBit 7) = true ∧
    issuesWith (let s := atM0 [(1, 0o400000000003)] []
                { s with sys := { s.sys with measIn := smSetList 0 [] 0 (packOctets (List.replicate 32 5)) } }) 0 (.measExtend 0 1)
      (fun s => ((List.range 8).map (smGet 0 s.sys.measIn)).all fun x => (List.range 4).all (slotPresent x)) = true := by
  decide +kernel

/-- A write of LANE_BASE in each of its cases: LOCK, BASE 24 and 23, the same BASE, another with a lane open, and another with none
(09 R279). -/
theorem test_lane_base :
    issuesWith (let s := atM0 [] []; { s with sys := { s.sys with laneLock := true } }) 0 (.laneBaseWrite 0 1)
      (fun s => sysGranted s 0 0o430 true 0) = true ∧
    grants (.laneBaseWrite 0 1) 0o430 (24 * 2 ^ 20) (fun s => !s.sys.laneLock) = true ∧
    grants (.laneBaseWrite 0 1) 0o430 1 (fun s => s.sys.laneBase == 0) = true ∧
    grants (.laneBaseWrite 0 1) 0o430 (23 * 2 ^ 20) (fun s => noUpset s && s.lanes.opened.isEmpty && s.lanes.fault.isEmpty &&
      (fenceCheck s { cls := 6, dir := 1, p := 2 ^ 20 * 23, n := 2 ^ 20 }).isOk == false) = true ∧
    issuesWith (laneful 0 [(1, 23 * 2 ^ 20)] []) 0 (.laneBaseWrite 0 1) (fun s => noUpset s &&
      (s.lanes.opened.all fun e => descReads s e.1 1) && (s.lanes.opened.any fun e => (laneSt s e.1).state != lsClosed)) = true ∧
    issuesWith (let s := laneful 0 [(1, 23 * 2 ^ 20)] []
                { s with lanes := { s.lanes with opened := [] } }) 0 (.laneBaseWrite 0 1) (fun s =>
      s.lanes.fault.isEmpty && (fenceCheck s { cls := 6, dir := 1, p := 2 ^ 20 * 23, n := 2 ^ 20 }).isOk) = true := by decide +kernel
/-- The parts of LaneServes that a run can decide. -/
def serves (s : State) (l k : Nat) : Bool :=
  classOf s l == some k && noUpset s && decide (descAddr s l + 16 ≤ caseEnd) &&
    ((List.range 4).all fun g => (List.range 2).all fun w => (descCheck s l g w).isOk) && (ringAdmits s k l).isOk &&
    !smGet false s.lanes.fault l && (laneSt s l).state == lsOpen

/-- The parts of TakeServed that a run can decide. -/
def takes (s : State) (ca rb : Reg) (l k : Nat) : Bool :=
  let c := blockCap s 0 ca.toNat
  serves s l k && (wGet s 0 rb.toNat).toNat % 2 ^ 16 == l &&
    (stepsFail (levelOf s 0) (sideOf s 0) [{ cap := c, ea := (capCursor c : Int), n := 1, need := rWR, write := true }] [1, 2, 3, 4, 5]).isNone &&
    !(curBank (getSeat s 0)).abortTake && !takeRefused s 0 l && (curBank (getSeat s 0)).role == .none

/-- Lane 2 with a message of eight words that begins with a tagged granule, and no fence. -/
def tagged : State :=
  let s := laneful 0 [(1, 2)] [(8, capAt 64 (rRD + rWR + rWC))]
  let s := { s with lanes := { s.lanes with cls := smSet 0 s.lanes.cls 19 64 } }
  let s := (putLaneTags s 2 ([1, 2, 3, field 7 1] ++ [5, 6, 7, 8]) [true, false]).2
  { s with fence := { s.fence with d := smSetList 0 [] 4 [2 ^ 20, 0o777777777777, 0o000007777777, 0b11100000001] } }

/-- It is delivered at word 64, in plain memory below the fence's one descriptor (05 R175, 02 R37). -/
theorem test_take_delivers :
    issuesWith tagged 0 (.ltake 0 3 8 1 0) (fun s =>
      let x := laneSt s 2
      let r := recAddr s 2 2 x.head
      takes s 8 1 2 2 && x.head != x.tail && bit (memWord s.mem r) 35 && bits (memWord s.mem r) 12 0 == 8 &&
        bits (memWord s.mem r) 33 30 == 0 && !clChk s 2 && decide (ringBase s 2 2 + ringLen s 2 ≤ caseEnd) && s.mem.poison.isEmpty &&
        decide (descAddr s 2 + 16 ≤ ringBase s 2 2) && (x.head + 1) % 8192 == x.tail && (messageGranule s 2 2 x.head 0).tag &&
        capGlobal (messageGranule s 2 2 x.head 0) && !(messageGranule s 2 2 x.head 1).tag && capCursor (cGet s 0 8) == 64 &&
        descsOver s.fence 64 8 == [] && !touchesSetAside s 64 8 && !inStick (getSeat s 0) 64 && !inCode (getSeat s 0) 64) = true ∧
    Reaches (capAt 64 (rRD + rWR + rWC)) 64 8 rWR := by
  refine ⟨by decide +kernel, ?_⟩; unfold Reaches; decide +kernel

/-- C0.0 at U in bank 0 beside the lanes, under the seal of no gate. -/
def taker : State :=
  let s := laneful 0 [] []
  let u := running .U false
  let u := modCur u 0 fun b => { b with w := [(1, 2)], c := [(8, capAt 64 (rRD + rWR))] }
  { s with seats := u.seats, sys := { u.sys with laneBase := 1 }, fence := u.fence,
           mem := { s.mem with words := smSetList 0 s.mem.words 4096 [0o5000, 0o100005000] } }

/-- An LTAKE on an empty lane: with TOF, with aux 0 at M, and with aux 1 at U, where it blocks (05 R175). -/
theorem test_take_nothing :
    let empty := fun s : State => takes s 8 1 2 2 && (laneSt s 2).head == (laneSt s 2).tail
    issuesWith (let s := laneful 0 [(1, 2)] [(8, capAt 64 (rRD + rWR))]
                setLane s 2 { credit := 8, state := lsOpen, cls := 2, tof := true }) 0 (.ltake 0 3 8 1 0)
      (fun s => empty s && (laneSt s 2).tof) = true ∧
    issuesWith (laneful 0 [(1, 2)] [(8, capAt 64 (rRD + rWR))]) 0 (.ltake 0 3 8 1 0) (fun s => empty s && !(laneSt s 2).tof) = true ∧
    issuesWith taker 0 (.ltake 0 3 8 1 1) (fun s => empty s && !(laneSt s 2).tof && levelOf s 0 != .M && !anyOccupied (getSeat s 0) &&
      (List.range 8).all fun i => i == 0 || (getBank (getSeat s 0) i).st == .free) = true := by decide +kernel

/-- A DOORBELL that delivers, one without credit, one to a seat without power, one of another kind, and one without a lane (05 R169,
09 R275, R289). -/
theorem test_doorbells :
    let rings := fun s p => issuesWith s 0 (.doorbell 0 3 1 2) fun s => levelOf s 0 != .U && doorbellLane s (wGet s 0 1).toNat == some 2 && p s
    rings belled (fun s => serves s 2 2 && clKind s 2 == 6 && (getSeat s 1).powered && (getSeat s 1).checkStop.isNone &&
      decide ((laneSt s 2).credit = 8) && clAdmit s 2 == 0 && !(laneSt s 2).armed && !clChk s 2 &&
      decide (ringBase s 2 2 + ringLen s 2 ≤ caseEnd) && decide (descAddr s 2 + 16 ≤ ringBase s 2 2) && !s.power.paddle) = true ∧
    rings (setLane belled 2 { state := lsOpen, cls := 2 }) (fun s => serves s 2 2 && (laneSt s 2).credit == 0) = true ∧
    rings { belled with seats := smErase belled.seats 1 } (fun s => !(getSeat s 1).powered) = true ∧
    rings { belled with lanes := { belled.lanes with cls := (laneful 0 [] []).lanes.cls } } (fun s => clKind s 2 != 6) = true ∧
    issuesWith (laneful 0 [(1, 1), (2, 2)] []) 0 (.doorbell 0 3 1 2) (fun s => doorbellLane s (wGet s 0 1).toNat == none) = true := by
  decide +kernel

/-- WAYEN with a target, without one, and with eight commands pending (17 R491). -/
theorem test_wayen_cases :
    (meets laneEffect (.wayen 0 3 1 2) (laneful 0 [(1, 4), (2, 1023)] []) && wayTarget State.reset 4 1023 && !wayTarget State.reset 4 1024) = true ∧
    issuesWith (laneful 0 [(1, 8), (2, 0)] []) 0 (.wayen 0 3 1 2) (fun s => levelOf s 0 == .M) = true ∧
    issuesWith (let s := laneful 0 [(1, 4), (2, 9)] []
                { s with irrix := { s.irrix with way := List.replicate 8 { kind := 4, number := 9, at_ := 0, acted := false, by_ := none, tr := none } } })
      0 (.wayen 0 3 1 2) (fun s => s.irrix.way.length == 8) = true := by decide +kernel

/-- A stow of bank 1 of seat C0.1 with the wide file, and no fence. -/
def stowable : State :=
  { modSeat (stowWork true) 1 fun x => { x with wideOwned := true, wideOwner := 1, wide := [(0, 5), (127, 6)] } with fence := {} }

/-- Its area is case words 4,096 to 4,351 (08 R258, R259). -/
theorem test_stow_area :
    StowAreaSound stowable 1 1 4096 ∧ (getBank (getSeat stowable 1) 1).status.bank < 16 ∧ 4096 + 256 ≤ descAddr stowable 6 := by
  have hs : (getSeat stowable 1).stickUse = false := by decide +kernel
  refine ⟨⟨by decide +kernel, by decide +kernel, by decide +kernel, by decide +kernel, fun i _ => by simp [inStick, hs], fun g tag hg => ⟨?_, ?_⟩⟩,
    by decide +kernel, by decide +kernel⟩ <;>
    exact bare_fence_admits rfl (by decide +kernel) (by omega) (by simp [caseEnd]; omega) (by omega)
/-- Each load of 10 R341 whose host read times out: it issues, and its accesses reach the window. -/
theorem test_host_loads :
    let s := modCur hostLoading 0 fun b => { b with w := [(1, 12), (2, 2), (3, 4)], c := smSet {} b.c 9 (capAt 64 rWR) }
    let s := modSeat s 0 fun x => { x with wideOwned := true, wideOwner := 8, status := { x.status with wideOn := true } }
    let m := plain 8 0
    let read := fun (s1 : State) n k => { memAccess s1 0 m n k rRD false with n := n }
    let times := fun (i : Instr) (load : HostLoad) (f : State → List Access) =>
      (hostLoadReads s 0 load).any (hostRead s 0) && issuesWith { s with pins := { s.pins with readFails := true } } 0 i fun s1 =>
        reaches s1 0 (f s1) && !bit (curBank (getSeat s1 0)).progress 35 && !interrupted s1 0 && !(wGet s1 0 1).getLsbD 1 && (statusOfSeat s1 0).wideOn
    times (.ldw 0 4 m) (.ldw 4 m) (fun s1 => [read s1 1 1]) = true ∧ times (.ldd 0 4 m) (.ldd 4 m) (fun s1 => [read s1 2 2]) = true ∧
    times (.ldc 0 10 m) (.ldc 10 m) (fun s1 => [read s1 4 4]) = true ∧ times (.vld 0 1 m) (.vld 1 m) (fun s1 => [read s1 8 8]) = true ∧
    times (.ldm 0 1 m) (.ldm 1 m) (fun s1 => [{ memAccess s1 0 m 2 1 rRD false with n := 1 }]) = true ∧
    ([0, 1].all fun aux : Reg => times (.movw 0 9 8 3 aux) (.movw 9 8 3 aux) fun s1 =>
      let k := if aux = 1 then 3 else 0
      [{ cap := cGet s1 0 9, ea := (64 + k : Nat), n := 1, need := rWR, write := true },
       { cap := cGet s1 0 8, ea := (0o200000000000 + k : Nat), n := 1, need := rRD }]) = true := by decide +kernel

/-- Channel 0 in RUN with a transfer x, beside a host window that is on. -/
def channelOn (x : Xfer) : State :=
  let s := running4 0 0
  let s := setChan s 0 { getChan s 0 with xfer := some x }
  { s with pins := { s.pins with pcieUp := true }, sys := { s.sys with hwinOn := true }, mem := { s.mem with words := smSet 0 s.mem.words 512 6 } }

/-- A COPY with INDEX of two elements of four words, the indexes at word 512, with status words 8 behind them. -/
def indexed (src idx : Word) : Xfer :=
  { moving 0 0 with
    words := List.replicate 12 0 ++ [field 0 2, flag 32 true ||| flag 31 true ||| field 14 3 ||| field 0 8, 0, 0],
    srcCap := { capAt 64 (rRD + rWR) with w1 := 64, w2 := src }, idxCap := capAt idx (rRD + rWR), total := 8 }

/-- A COPY of 7 octets from, or to, the host. -/
def octetCopy (mode : Nat) : Xfer :=
  let host : Cap := capAt 0o200000000000 (rRD + rWR)
  { moving 0 0 with
    words := List.replicate 12 0 ++ [field 0 7, field 29 mode, 0, 0], total := 7,
    srcCap := if mode = 1 then host else capAt 64 (rRD + rWR), dstCap := if mode = 2 then host else capAt 256 (rRD + rWR) }

theorem test_copy_forms :
    (∀ x ∈ [indexed 200 512, indexed 70 512, octetCopy 1, octetCopy 2], Runs (channelOn x) 0 0 x) ∧
    xStat (indexed 200 512) = true ∧ xEsize (indexed 200 512) = 4 ∧ xLen (indexed 200 512) = 2 ∧ xStoff (indexed 200 512) = 8 ∧
    capBase (indexed 200 512).srcCap + (memWord (channelOn (indexed 200 512)).mem 512).toNat + 4 ≤ capLast (indexed 200 512).srcCap + 1 ∧
    capLast (indexed 70 512).srcCap + 1 < capBase (indexed 70 512).srcCap + (memWord (channelOn (indexed 70 512)).mem 512).toNat + 4 ∧
    xOct (octetCopy 1) = 1 ∧ xOct (octetCopy 2) = 2 ∧ (copyOctetReach (getChan (channelOn (octetCopy 1)) 0) (octetCopy 1)).1 = 7 ∧
    (copyOctetReach (getChan (channelOn (octetCopy 2)) 0) (octetCopy 2)) = (7, 2) ∧ hostUp (channelOn (octetCopy 1)) = true ∧
    isHost 0o200000000000 = true ∧ (channelOn (octetCopy 1)).pins.readFails = false := by
  refine ⟨?_, ?_⟩
  · unfold Runs; decide +kernel
  · decide +kernel

/-- The words and spans of those copies are sound and admitted, and the octets at words 64 and 65 are in prefix form. -/
theorem test_copy_spans :
    (let s := channelOn (indexed 200 512)
     SoundCase s 512 1 ∧ SoundCase s 520 1 ∧ SoundCase s 70 4 ∧ SoundCase s 256 4 ∧ GalleyReaches s 0 512 1 ∧ GalleyReaches s 1 520 1 ∧
       GalleyReaches s 0 70 4 ∧ GalleyReaches s 1 256 4) ∧
    (let s := channelOn (octetCopy 1)
     GalleyReaches s 0 0o200000000000 2 ∧ GalleyReaches s 1 256 2) ∧
    (let s := putGranule (channelOn (octetCopy 2)) 64 (seqWords (List.replicate 7 3)) false
     (∀ i, i < 2 → prefixForm (memWord s.mem (64 + i)) = true ∧ memWord s.mem (64 + i) ≠ 0 ∧
       min 4 (7 - 4 * (0 + i)) ≤ (presentOctets (memWord s.mem (64 + i))).length) ∧ SoundCase s 64 2 ∧ GalleyReaches s 0 64 2 ∧
       GalleyReaches s 1 0o200000000000 2) := by
  refine ⟨⟨?_, ?_, ?_, ?_, galleyReaches_of ?_, galleyReaches_of ?_, galleyReaches_of ?_, galleyReaches_of ?_⟩,
    ⟨galleyReaches_of ?_, galleyReaches_of ?_⟩, ⟨?_, ?_, galleyReaches_of ?_, galleyReaches_of ?_⟩⟩ <;>
    first | decide +kernel | (unfold SoundCase; decide +kernel)

theorem open_fence_over {s : State} {p n : Nat} (hd : s.fence.d = openFence) (hn : 1 ≤ n) (hp : p < 2 ^ 36) :
    descsOver s.fence p n = [0] := by
  have h : ∀ d i, 1 ≤ d → descWord s.fence d i = 0 := by
    intro d i h
    have h1 : ¬1 = 4 * d + i := by omega
    have h2 : ¬2 = 4 * d + i := by omega
    have h3 : ¬3 = 4 * d + i := by omega
    simp [descWord, hd, openFence, smGet, h1, h2, h3]
  have h0 : (List.range 127).filter ((fun d => bit (descWord s.fence d 3) 10 && decide ((descWord s.fence d 0).toNat < p + n) &&
      decide (p ≤ (descWord s.fence d 1).toNat) && decide ((descWord s.fence d 0).toNat ≤ (descWord s.fence d 1).toNat)) ∘ Nat.succ) = [] := by
    simp [List.filter_eq_nil_iff, h, bit]
  rw [descsOver, show (128 : Nat) = 127 + 1 from rfl, List.range_succ_eq_map, List.filter_cons, List.filter_map, h0]
  have h1 : p ≤ 68719476735 := by omega
  simp [descWord, hd, openFence, smGet, bit, h1]
  omega

/-- The open fence admits the galley to the host window. -/
theorem open_fence_admits {s : State} {dir a n : Nat} (hd : s.fence.d = openFence) (ha : s.sys.setAside = 0) (hdir : dir < 2)
    (h0 : isHost a = true) (h1 : isHost (a + n - 1) = true) : GalleyReaches s dir a n := by
  intro b m hb hm hbm
  have hp : 0o200000000000 ≤ b ∧ b + m - 1 < 0o400000000000 := by
    simp only [isHost, decide_eq_true_eq, Bool.and_eq_true] at h0 h1; omega
  have c0 : caseEnd ≤ 0o200000000000 := by decide
  have c1 : isCase b = false := by simp only [isCase, decide_eq_false_iff_not]; omega
  have c2 : isSystem b = false := by simp [isSystem]; omega
  have c3 : isBulk b = false := by simp [isBulk]; omega
  have c4 : isHost b = true ∧ isHost (b + m - 1) = true := by simp only [isHost, decide_eq_true_eq, Bool.and_eq_true]; omega
  have ho := open_fence_over (n := m) hd hm (show b < 2 ^ 36 by omega)
  have hw : descWord s.fence 0 0 = 0 ∧ descWord s.fence 0 1 = 0o777777777777 ∧ descWord s.fence 0 2 = 0o000007777777 := by
    simp [descWord, hd, openFence, smGet]
  have hr : ¬b ≤ 0o200001777 := by omega
  have hl : b + m - 1 ≤ 0o777777777777 := by omega
  refine ok_of_isOk ?_
  have hx : dir = 0 ∨ dir = 1 := by omega
  rcases hx with rfl | rfl <;>
    simp [fenceCheck, fenceClosed, regionOf, c1, c2, c3, c4, touchesSetAside, ha, hr, ho, anyClash, hw, hl,
      permBit, bit, Except.isOk, Except.toBool]

/-- A COPY whose source, or whose index word, the host holds (13 R411). -/
def hostSource : Xfer := { moving 0 0 with srcCap := capAt 0o200000000000 (rRD + rWR) }
def hostIndex : Xfer :=
  { indexed 200 0o200000000000 with words := List.replicate 12 0 ++ [field 0 2, flag 32 true ||| field 14 3, 0, 0] }

theorem test_host_bursts :
    (Runs (channelOn hostSource) 0 0 hostSource ∧ isHost (capCursor hostSource.srcCap + hostSource.moved) = true ∧ hostSource.status = 0) ∧
    (Runs (channelOn hostIndex) 0 0 hostIndex ∧ xIndex hostIndex = true ∧ xStat hostIndex = false ∧
      isHost (capCursor hostIndex.idxCap + (getChan (channelOn hostIndex) 0).eidx) = true) ∧
    (channelOn hostSource).fence.d = openFence ∧ (channelOn hostIndex).fence.d = openFence := by
  refine ⟨⟨?_, ?_, ?_⟩, ⟨?_, ?_, ?_, ?_⟩, ?_, ?_⟩ <;> first | decide +kernel | (unfold Runs; decide +kernel)

theorem test_host_spans : GalleyReaches (channelOn hostSource) 0 0o200000000000 64 ∧ GalleyReaches (channelOn hostIndex) 0 0o200000000000 1 :=
  ⟨open_fence_admits test_host_bursts.2.2.1 (by decide +kernel) (by decide) (by decide) (by decide),
    open_fence_admits test_host_bursts.2.2.2 (by decide +kernel) (by decide) (by decide) (by decide)⟩

/-- Where there is no seat, vector, word or output, nothing unsound is tagged, and the block idles. -/
theorem test_sound_state : CapsSound {} ∧ (match step {} with | .next t => t.time == 1 | _ => false) = true := by
  refine ⟨⟨by simp, by simp, fun g h => ?_, by simp, by simp⟩, by decide +kernel⟩
  simp [storedGranule, smGet] at h

/-- TRAP from U enters S, and CINVOKE at M changes the side: two of the events that may (03 R86). -/
theorem test_level_moves :
    (match exec (.trap 0 5) (running .U false) with
     | .next t => !(getSeat (running .U false) 0).idle && !(getSeat t 0).idle && (getSeat t 0).status.lvl == .S
     | _ => false) = true := by decide +kernel

end Sys2Proof.Machine
end

section

namespace Sys2Proof.Machine

/-! Registers and banks of other seats, and the register file that a write does not name. -/

theorem getSeat_modCur_ne (s : State) {q p : Nat} (f : Bank → Bank) (h : p ≠ q) : getSeat (modCur s q f) p = getSeat s p := by
  simp [modCur, getSeat_modSeat, h]

theorem curBank_modCur_seat (s : State) (q p : Nat) (f : Bank → Bank) :
    curBank (getSeat (modCur s q f) p) = if p = q then f (curBank (getSeat s q)) else curBank (getSeat s p) := by
  by_cases h : p = q
  · subst h; simp
  · simp [h, getSeat_modCur_ne]

@[simp] theorem bankC_bankSetW (b : Bank) (r k : Nat) (v : Word) : bankC (bankSetW b r v) k = bankC b k := by
  unfold bankSetW
  split <;> rfl

@[simp] theorem bankW_bankSetC (b : Bank) (r k : Nat) (v : Cap) : bankW (bankSetC b r v) k = bankW b k := by
  unfold bankSetC
  split <;> rfl

/-- A word register of any seat after a write of one. -/
theorem wGet_wSet_seat (s : State) (q r p k : Nat) (v : Word) :
    wGet (wSet s q r v) p k = if p = q ∧ k = r ∧ r ≠ 0 then v else wGet s p k := by
  by_cases h : p = q
  · subst h; simp [wGet_wSet]
  · simp [wGet, wSet, curBank_modCur_seat, h]

/-- A capability register of any seat after a write of one. -/
theorem cGet_cSet_seat (s : State) (q r p k : Nat) (v : Cap) :
    cGet (cSet s q r v) p k = if p = q ∧ k = r ∧ r ≠ 0 then v else cGet s p k := by
  by_cases h : p = q
  · subst h; simp [cGet_cSet]
  · simp [cGet, cSet, curBank_modCur_seat, h]

@[simp] theorem cGet_wSet (s : State) (q r p k : Nat) (v : Word) : cGet (wSet s q r v) p k = cGet s p k := by
  unfold cGet wSet
  rw [curBank_modCur_seat]
  split <;> simp [*]

@[simp] theorem wGet_cSet (s : State) (q r p k : Nat) (v : Cap) : wGet (cSet s q r v) p k = wGet s p k := by
  unfold wGet cSet
  rw [curBank_modCur_seat]
  split <;> simp [*]

/-- Settles O11: a register write is read back in its own file and seat alone (05 R141), and c0 is null (02 R30). -/
theorem registerWritesReadBack : Obligations.RegisterWritesReadBack :=
  fun s q r p k w c =>
    ⟨wGet_wSet_seat s q r p k w, cGet_cSet_seat s q r p k c, cGet_wSet s q r p k w, wGet_cSet s q r p k c, rfl, rfl⟩

/-! The state after reset. -/

theorem getSeat_reset (q : Nat) : getSeat State.reset q = if q = 0 then rootSeat else seatDefault := by
  by_cases h : q = 0
  · subst h; rfl
  · simp [getSeat, State.reset, smGet_cons, h, Ne.symm h]

theorem curBank_reset : curBank (getSeat State.reset 0) = rootBank := rfl

/-- Only C0.0 may issue after reset: no other seat's domain is on (18 R502). -/
theorem canIssue_reset_ne {q : Nat} (h : q ≠ 0) : canIssue State.reset q = false := by
  simp [canIssue, getSeat_reset, h, seatDefault]

theorem wGet_reset (r : Nat) : wGet State.reset 0 r = 0 := by
  unfold wGet bankW
  split <;> rfl

/-- The registers c8 to c15 are null after reset. -/
theorem cGet_reset_high {r : Nat} (h : 8 ≤ r) : cGet State.reset 0 r = capNull := by
  obtain ⟨k, rfl⟩ := Nat.exists_eq_add_of_le' h
  rfl

/-- Settles O3: the state after reset, field by field (02 R70, 03 R82, 04 R117). -/
theorem resetLeavesRootSeat : Obligations.ResetLeavesRootSeat := by
  refine ⟨rfl, rfl, by decide, rfl, rfl, wGet_reset, ?_, fun r => cGet_reset_high, fun q h _ => canIssue_reset_ne (by omega),
    fun a => ⟨rfl, rfl⟩, fun d i => rfl, rfl, rfl⟩
  decide

theorem capSound_untagged {c : Cap} (h : c.tag = false) : CapSound c := by simp [CapSound, h]

@[simp] theorem capSound_empty : CapSound {} := capSound_untagged rfl

@[simp] theorem setSound_empty : SetSound {} := ⟨capSound_empty, capSound_empty⟩

/-- The boot ROM capability and the root capabilities of 02 R70 are sound, and the first holds EX. -/
theorem rootBank_sound : BankSound rootBank := by
  refine ⟨by unfold CapSound; decide, by decide, ?_⟩
  unfold CapSound
  decide

/-- An empty stick holds no tag. -/
theorem stickGranule_untagged {x : Seat} (h : x.stickTag = []) (g : Nat) : CapSound (stickGranule x g) :=
  capSound_untagged (by simp [stickGranule, h])

theorem rootSeat_sound : SeatSound rootSeat :=
  ⟨by simpa [rootSeat] using rootBank_sound, setSound_empty, setSound_empty, setSound_empty, stickGranule_untagged rfl⟩

/-- Memory that lists nothing holds no tag. -/
theorem storedGranule_untagged {m : Mem} (h : m.tags = []) (g : Nat) : CapSound (storedGranule m g) :=
  capSound_untagged (by simp [storedGranule, h])

theorem capsSound_reset : CapsSound State.reset :=
  ⟨by simpa [State.reset] using rootSeat_sound, nofun, storedGranule_untagged rfl, nofun, nofun⟩

/-- Settles O4: reset memory lists nothing (log 2), and the root capabilities are sound (02 R70). -/
theorem resetMeetsInvariants : Obligations.ResetMeetsInvariants := ⟨rfl, capsSound_reset⟩

end Sys2Proof.Machine
end

section

namespace Sys2Proof.Machine

/-! Derivations and seals in the model's words: a check that passes is the condition of 02. -/

theorem checkSource_none_iff (lvl : Level) (side : Bool) (c : Cap) :
    checkSource lvl side c = none ↔ c.tag = true ∧ capSeal c = 0 ∧ sideUsable lvl side c = true := by
  unfold checkSource
  cases c.tag <;> cases sideUsable lvl side c <;> by_cases h : capSeal c = 0 <;> simp [h]

theorem firstFail_none_iff (cs : List (Bool × Nat × Word)) : firstFail cs = none ↔ ∀ c ∈ cs, c.1 = false := by
  simp [firstFail]

theorem derivable_iff (s : State) (q : SeatNo) (c : Cap) :
    derivable s q c = true ↔ inRing s q.val = false ∧ checkSource (levelOf s q.val) (sideOf s q.val) c = none := by
  rw [checkSource_none_iff]
  simp [derivable, and_assoc]

theorem noRing_iff (s : State) (q : Nat) : noRing (statusOfSeat s q) = true ↔ inRing s q = false := by
  simp [noRing, inRing]

/-- The limit of 02 R47 on CSETB's LAST, as the model tests it. -/
theorem legalOr_setBounds (c : Cap) (w : Word) :
    legalOr c (capSetBounds c w) = if boundsLegal w c (boundedTo c w) then some (boundedTo c w) else none := by
  unfold legalOr capSetBounds boundsLegal boundedTo
  have hs : space36 = 2 ^ 36 := rfl
  by_cases h : capCursor c + w.toNat < 2 ^ 36
  · rw [if_neg (by omega), decide_eq_true h]
    simp [Option.filter]
  · rw [if_pos (by omega), decide_eq_false h]
    simp

theorem legalOr_some (c n : Cap) : legalOr c (some n) = if capLegal c n then some n else none := by
  simp [legalOr, Option.filter]

/-- A derivation completes when its source may be derived from and its result is legal (02 R44, R45). -/
theorem deriveInstr_completes {q : SeatNo} {i : Instr} {rd ca : Reg} {s s1 : State} {n : Cap} (f : State → Cap → Option Cap)
    (he : exec i s = deriveInstr q i rd ca f s)
    (hi : Issues s q i s1) (hd : derivable s1 q (cGet s1 q.val ca.toNat) = true) (hf : f s1 (cGet s1 q.val ca.toNat) = some n)
    (ho : pairOver (cSet s1 q.val rd.toNat { n with tag := true }) q.val = false) :
    ∃ t, exec i s = .next t ∧
      quiet q.val t = quiet q.val (nextInstr q.val (seatLen i) (cSet s1 q.val rd.toNat { n with tag := true })) := by
  obtain ⟨hr, hc⟩ := (derivable_iff s1 q _).1 hd
  rw [he]
  exact seatRun_done hi ((noRing_iff s1 q.val).2 hr) (by simp only [hc, hf]) ho

theorem sealFail_none_iff (s : State) (q : SeatNo) (cs ck : Cap) :
    mayBeSealed s q cs ck = true ↔
      inRing s q.val = false ∧ sealFail s (levelOf s q.val) (sideOf s q.val) cs ck = none := by
  simp only [mayBeSealed, sealFail, cursorIn, firstFail_none_iff, Option.map_eq_none_iff, Bool.and_eq_true, Bool.not_eq_true',
    decide_eq_true_eq, beq_iff_eq, List.forall_mem_cons, bne_eq_false_iff_eq, Bool.or_eq_false_iff, Bool.not_eq_false',
    beq_eq_false_iff_ne, decide_eq_false_iff_not, List.not_mem_nil]
  constructor
  · rintro ⟨⟨⟨⟨⟨⟨⟨⟨⟨⟨⟨⟨⟨h1, h2⟩, h3⟩, h4⟩, h5⟩, h6⟩, h7⟩, h8⟩, h9⟩, h10⟩, h11⟩, h12⟩, h13⟩, h14⟩
    exact ⟨h1, h2, h3, h4, h5, h6, h7, h8, ⟨⟨⟨h9, h10⟩, by omega⟩, by omega⟩, h13, h14, by simp⟩
  · rintro ⟨h1, h2, h3, h4, h5, h6, h7, h8, ⟨⟨⟨h9, h10⟩, h11⟩, h12⟩, h13, h14, -⟩
    exact ⟨⟨⟨⟨⟨⟨⟨⟨⟨⟨⟨⟨⟨h1, h2⟩, h3⟩, h4⟩, h5⟩, h6⟩, h7⟩, h8⟩, h9⟩, h10⟩, by omega⟩, by omega⟩, h13⟩, h14⟩

theorem unsealFail_none_iff (s : State) (q : SeatNo) (cs ck : Cap) :
    mayUnseal s q cs ck = true ↔
      inRing s q.val = false ∧ unsealFail s (levelOf s q.val) (sideOf s q.val) cs ck = none := by
  simp only [mayUnseal, unsealFail, cursorIn, firstFail_none_iff, Bool.and_eq_true, Bool.not_eq_true',
    decide_eq_true_eq, beq_iff_eq, List.forall_mem_cons, bne_eq_false_iff_eq, Bool.or_eq_false_iff, Bool.not_eq_false',
    beq_eq_false_iff_ne, bne_iff_ne, List.not_mem_nil, and_assoc]
  simp

/-- The rights that a CTEST's aux asks for, bit by bit. -/
theorem testRights_eq (aux : Reg) : testRights aux = auxRights aux := by
  revert aux
  decide

/-- The step of R48 that CTEST reports. -/
theorem testStep_eq (lvl : Level) (side : Bool) (c : Cap) (n : Nat) (aux : Reg) :
    testStep lvl side c n aux =
      ([1, 2, 3, 4, 5, 6].find? fun k => (stepFail lvl side (testAccess c n aux) k).isSome).getD 0 := by
  have hn : (if n = 0 then 1 else n) = max n 1 := by split <;> omega
  have h1 : (max n 1 = 2 ∨ max n 1 = 4 ∨ max n 1 = 8) ↔ (n = 2 ∨ n = 4 ∨ n = 8) := by omega
  unfold testStep testAccess
  simp only [hn, h1, testRights_eq]
  congr 4
  funext k
  congr 3
  split <;> omega

/-- The instructions that read a capability as data, move one or test one complete with their effect (05 R160, R161). -/
theorem capRead_completes : Completes capReadEffect := by
  intro i q f s s1 r ht hi hf ho
  unfold capReadEffect at ht
  split at ht <;> cases ht <;> cases hf
  · exact seatRun_done hi rfl rfl ho
  · exact seatRun_done hi rfl rfl ho
  · exact seatRun_done hi rfl rfl ho
  · exact seatRun_done hi rfl rfl ho
  · exact seatRun_done hi rfl rfl ho
  · exact seatRun_done hi rfl rfl ho
  · exact seatRun_done hi rfl (by rw [testStep_eq]; simp [field]) ho

/-- The derivations complete with their effect (02 R45). -/
theorem derive_completes : Completes deriveEffect := by
  intro i q f s s1 r ht hi hf ho
  unfold deriveEffect derivesTo onlyIf at ht
  split at ht
  case h_7 => cases ht
  all_goals
    obtain ⟨rfl, rfl⟩ := Prod.mk.inj (Option.some.inj ht)
    obtain ⟨hc, hr⟩ := Option.ite_none_right_eq_some.1 hf
    cases hr
    obtain ⟨hd, hl⟩ := Bool.and_eq_true_iff.1 hc
  next q _ _ rb => exact deriveInstr_completes (fun s c => some (capInc c (wGet s q.val rb.toNat))) rfl hi hd rfl ho
  next imm => exact deriveInstr_completes (fun _ c => some (capInc c (immI imm))) rfl hi hd rfl ho
  next q _ _ rb =>
    exact deriveInstr_completes (fun s c => legalOr c (capSetBounds c (wGet s q.val rb.toNat))) rfl hi hd
      ((legalOr_setBounds _ _).trans (if_pos hl)) ho
  next imm =>
    exact deriveInstr_completes (fun _ c => legalOr c (capSetBounds c (immI imm))) rfl hi hd
      ((legalOr_setBounds _ _).trans (if_pos hl)) ho
  next q _ _ rb =>
    exact deriveInstr_completes
      (fun s c => legalOr c (some (capSetRights c (capRights c &&& bits (wGet s q.val rb.toNat) 19 8)))) rfl hi hd
      ((legalOr_some _ _).trans (if_pos hl)) ho
  next =>
    exact deriveInstr_completes (fun _ c => legalOr c (some (capSetGlobal c false))) rfl hi hd
      ((legalOr_some _ _).trans (if_pos hl)) ho

/-- CSEAL and CUNSEAL complete with their effect (02 R59, R60). -/
theorem seal_completes : Completes sealEffect := by
  intro i q f s s1 r ht hi hf ho
  unfold sealEffect onlyIf at ht
  split at ht <;> cases ht <;> simp only [Option.ite_none_right_eq_some, Option.some.injEq] at hf <;> obtain ⟨hm, rfl⟩ := hf
  · obtain ⟨hr, hc⟩ := (sealFail_none_iff _ _ _ _).1 hm
    exact seatRun_done hi ((noRing_iff _ _).2 hr) (by simp only [hc]) ho
  · obtain ⟨hr, hc⟩ := (unsealFail_none_iff _ _ _ _).1 hm
    exact seatRun_done hi ((noRing_iff _ _).2 hr) (by simp only [hc]) ho

/-- Settles O12: reads, derivations, sealing and unsealing, each by its own table. -/
theorem capabilityResults : Obligations.CapabilityResults := ⟨capRead_completes, derive_completes, seal_completes⟩

end Sys2Proof.Machine
end

section

namespace Sys2Proof.Machine

/-! A trap reloads the stale words of the code store (06 R209), and so the read of one may meet an error that no access has met
yet: the word is corrected and counted (10 R321), which changes memory. WritesNothing asks that memory stay as it was, errors
with it, and O13 and O27 do not shut such errors out. -/

/-- Does instruction i issue on seat q, with a test of the state after its fetch? -/
def issuesTo (s : State) (q : SeatNo) (i : Instr) (test : State → Bool) : Bool :=
  canIssue s q.val && !pairOver s q.val && seatLegal i &&
    match accessAll q.val [fetchAccess s q.val (seatLen i)] s with
    | .ok p => test (modSeat p.st q.val decoded)
    | .error _ => false

theorem issues_of_issuesTo {s : State} {q : SeatNo} {i : Instr} {test : State → Bool} (h : issuesTo s q i test = true) :
    ∃ s1, Issues s q i s1 ∧ test s1 = true := by
  simp only [issuesTo, Bool.and_eq_true, Bool.not_eq_true'] at h
  obtain ⟨⟨⟨hc, ho⟩, hl⟩, hf⟩ := h
  cases ha : accessAll q.val [fetchAccess s q.val (seatLen i)] s with
  | error e => simp [ha] at hf
  | ok p => exact ⟨_, ⟨hc, ho, hl, p, ha, rfl⟩, by simpa [ha] using hf⟩

/-- C0.0 after reset, with word 0 of its code window stale, and a single-bit error that nothing has met in granule 0 of case. -/
def staleUpset : State :=
  { modSeat State.reset 0 fun x => { x with stale := [(0, true)] } with mem := { flips := [(0, 1)] } }

/-- What the refutations need of an instruction on that seat: it issues, with a test of the state behind its fetch, which has
corrected nothing, and its trap to M corrects the word that it reloads. -/
def correctsInTrap (i : Instr) (test : State → Bool) : Bool :=
  issuesTo staleUpset 0 i (fun s1 => s1.mem.corrected == 0 && !occupied (getSeat s1 0).svM && test s1) &&
    match exec i staleUpset with
    | .next t => t.mem.corrected == 1
    | _ => false

/-- Such a trap does not write nothing. -/
theorem writes_of_correctsInTrap {i : Instr} {test : State → Bool} (h : correctsInTrap i test = true) :
    ∃ s1, Issues staleUpset 0 i s1 ∧ test s1 = true ∧ occupied (getSeat s1 0).svM = false ∧
      ∀ t, exec i staleUpset = .next t → ¬ WritesNothing 0 s1 t := by
  simp only [correctsInTrap, Bool.and_eq_true] at h
  obtain ⟨hi, ht⟩ := h
  obtain ⟨s1, hs, hp⟩ := issues_of_issuesTo hi
  simp only [Bool.and_eq_true, beq_iff_eq, Bool.not_eq_true'] at hp
  obtain ⟨⟨hc, ho⟩, hp⟩ := hp
  refine ⟨s1, hs, hp, ho, fun t he hw => ?_⟩
  rw [he, beq_iff_eq, hw.1, hc] at ht
  exact absurd ht (by decide)

/-- CCLG of the null capability in c8. -/
theorem cclg_correctsInTrap :
    correctsInTrap (.cclg 0 9 8) (fun s => !derivable s 0 (cGet s 0 8)) = true := by decide +kernel

/-- Refutes O13: a CCLG whose source is null traps TAG to M; where the code store holds a stale word, the entry reloads it, and a
latent error of that word is corrected and counted. -/
theorem not_derivationsNeverWiden : ¬ Obligations.DerivationsNeverWiden := by
  intro h
  obtain ⟨s1, hi, hd, ho, hw⟩ := writes_of_correctsInTrap cclg_correctsInTrap
  obtain ⟨-, hf⟩ := h (.cclg 0 9 8) 0 _ staleUpset s1 9 8 (.inl rfl) (by decide) (by decide) (by decide) hi
  obtain ⟨t, ht, hn⟩ := hf (if_neg (by
    have : derivable s1 0 (cGet s1 0 8) = false := by simpa using hd
    simp [this]))
  exact hw t ht (hn ho)

/-- LDW through the null capability in c8. -/
def nullLoad : MemOp := { ca := 8, mode := 0, ix := 0, disp := 0 }

/-- The TAG trap of that load. -/
def nullLoadTrap : Trap := { cause := cTAG, step := 1 }

theorem ldw_correctsInTrap :
    correctsInTrap (.ldw 0 3 nullLoad) (fun s =>
      decide (stepsFail (levelOf s 0) (sideOf s 0) [memAccess s 0 nullLoad 1 1 rRD false] [1, 2, 3, 4, 5, 6] = some nullLoadTrap))
      = true := by decide +kernel

/-- Refutes O27: an LDW through the null capability traps TAG to M, and the entry's reload of a stale code word corrects and
counts a latent error. -/
theorem not_failedAccessTraps : ¬ Obligations.FailedAccessTraps := by
  intro h
  obtain ⟨s1, hi, ht, ho, hw⟩ := writes_of_correctsInTrap ldw_correctsInTrap
  obtain ⟨-, -, hl, -⟩ := h
  obtain ⟨⟨u, hu, -⟩, hs⟩ := hl staleUpset s1 s1 0 3 nullLoad (.ldw 0 3 nullLoad) _ nullLoadTrap (.inl ⟨rfl, rfl⟩) hi
    (.inl ⟨of_decide_eq_true ht, rfl⟩)
  exact hw u hu (hs u hu ho)

end Sys2Proof.Machine
end

section

namespace Sys2Proof

/-! Fields of a word bit by bit (00 R4). -/

theorem testBit_bits (w : Word) (hi lo i : Nat) : (bits w hi lo).testBit i = (decide (i < hi + 1 - lo) && w.getLsbD (lo + i)) := by
  rw [bits, Nat.testBit_mod_two_pow, Nat.testBit_div_two_pow, BitVec.getLsbD, Nat.add_comm i lo]

theorem bit_eq_getLsbD (w : Word) (n : Nat) : bit w n = w.getLsbD n := by
  rw [bit, BitVec.getLsbD, Nat.testBit_eq_decide_div_mod_eq]
  exact (Bool.beq_eq_decide_eq ..)

/-- Two words that agree from bit lo to bit hi hold one field there. -/
theorem bits_congr {v w : Word} {hi lo : Nat} (h : ∀ i, lo ≤ i → i ≤ hi → v.getLsbD i = w.getLsbD i) : bits v hi lo = bits w hi lo := by
  refine Nat.eq_of_testBit_eq fun i => ?_
  rw [testBit_bits, testBit_bits]
  by_cases hi' : i < hi + 1 - lo
  · rw [h (lo + i) (by omega) (by omega)]
  · simp [hi']

/-- A field whose bits are those of a number is that number. -/
theorem bits_eq_of_testBit {w : Word} {hi lo n : Nat} (hn : n < 2 ^ (hi + 1 - lo))
    (h : ∀ i, i < hi + 1 - lo → w.getLsbD (lo + i) = n.testBit i) : bits w hi lo = n := by
  refine Nat.eq_of_testBit_eq fun i => ?_
  rw [testBit_bits]
  by_cases hi' : i < hi + 1 - lo
  · simp [hi', h i hi']
  · rw [decide_eq_false hi', Bool.false_and, Nat.testBit_lt_two_pow (hn.trans_le (Nat.pow_le_pow_right (by omega) (by omega)))]

theorem getLsbD_field (lo v i : Nat) : (field lo v).getLsbD i = (decide (i < 36) && (decide (lo ≤ i) && v.testBit (i - lo))) := by
  rw [field, BitVec.getLsbD_ofNat, Nat.testBit_two_pow_mul]

theorem getLsbD_flag (n i : Nat) (b : Bool) : (flag n b).getLsbD i = (decide (i < 36) && (decide (i = n) && b)) := by
  unfold flag
  cases b
  · simp
  · rw [if_pos rfl, getLsbD_field]
    by_cases hi : i = n
    · simp [hi]
    · by_cases hl : n ≤ i
      · have : i - n ≠ 0 := by omega
        simp [hi, Nat.testBit_one_eq_true_iff_self_eq_zero.not.2 this |> Bool.eq_false_iff.2]
      · simp [hi, hl]

theorem bits_lt (w : Word) (hi lo : Nat) : bits w hi lo < 2 ^ (hi + 1 - lo) := Nat.mod_lt _ (Nat.two_pow_pos _)

end Sys2Proof

namespace Sys2Proof.Machine

/-! The fields of a capability under each change of one (02 R29). -/

section
variable (c : Cap)

@[simp] theorem capSetCursor_tag (a : Nat) : (capSetCursor c a).tag = c.tag := rfl
@[simp] theorem capSetCursor_w3 (a : Nat) : (capSetCursor c a).w3 = c.w3 := rfl
@[simp] theorem capBase_capSetCursor (a : Nat) : capBase (capSetCursor c a) = capBase c := rfl
@[simp] theorem capLast_capSetCursor (a : Nat) : capLast (capSetCursor c a) = capLast c := rfl
@[simp] theorem capRights_capSetCursor (a : Nat) : capRights (capSetCursor c a) = capRights c := rfl

theorem getLsbD_capSetSeal (v : Nat) {i : Nat} (hi : i < 36) :
    (capSetSeal c v).w3.getLsbD i = if i < 20 then c.w3.getLsbD i else v.testBit (i - 20) := by
  have hm : ∀ i, i < 36 → (0o000003777777 : Word).getLsbD i = decide (i < 20) := by decide
  simp only [capSetSeal, BitVec.getLsbD_or, BitVec.getLsbD_and, getLsbD_field, hm i hi, hi]
  by_cases h : i < 20 <;> simp [h, show ¬20 ≤ i ↔ i < 20 by omega]
  omega

theorem getLsbD_capSetGlobal (b : Bool) {i : Nat} (hi : i < 36) :
    (capSetGlobal c b).w3.getLsbD i = if i = 7 then b else c.w3.getLsbD i := by
  simp only [capSetGlobal, BitVec.getLsbD_or, BitVec.getLsbD_and, BitVec.getLsbD_not, getLsbD_flag, hi]
  by_cases h : i = 7 <;> simp [h]

theorem getLsbD_capSetRights (v : Nat) {i : Nat} (hi : i < 36) (hv : v < 2 ^ 12) :
    (capSetRights c v).w3.getLsbD i = if 8 ≤ i ∧ i < 20 then v.testBit (i - 8) else c.w3.getLsbD i := by
  have hm : ∀ i, i < 36 → (field 8 0xFFF).getLsbD i = decide (8 ≤ i ∧ i < 20) := by decide
  simp only [capSetRights, BitVec.getLsbD_or, BitVec.getLsbD_and, BitVec.getLsbD_not, hm i hi, getLsbD_field, hi]
  by_cases h8 : 8 ≤ i
  · by_cases h20 : i < 20
    · simp [h8, h20]
    · have : v.testBit (i - 8) = false :=
        Nat.testBit_lt_two_pow (hv.trans_le (Nat.pow_le_pow_right (by omega) (by omega)))
      simp [h20, this]
  · simp [h8]

@[simp] theorem capSetSeal_tag (v : Nat) : (capSetSeal c v).tag = c.tag := rfl
@[simp] theorem capSetSeal_w0 (v : Nat) : (capSetSeal c v).w0 = c.w0 := rfl
@[simp] theorem capSetSeal_w1 (v : Nat) : (capSetSeal c v).w1 = c.w1 := rfl
@[simp] theorem capSetSeal_w2 (v : Nat) : (capSetSeal c v).w2 = c.w2 := rfl
@[simp] theorem capBase_capSetSeal (v : Nat) : capBase (capSetSeal c v) = capBase c := rfl
@[simp] theorem capLast_capSetSeal (v : Nat) : capLast (capSetSeal c v) = capLast c := rfl
@[simp] theorem capCursor_capSetSeal (v : Nat) : capCursor (capSetSeal c v) = capCursor c := rfl

/-- A change of SEAL leaves every field below it. -/
theorem bits_capSetSeal (v : Nat) {hi lo : Nat} (h : hi < 20) : bits (capSetSeal c v).w3 hi lo = bits c.w3 hi lo :=
  bits_congr fun i _ hi' => by rw [getLsbD_capSetSeal c v (by omega), if_pos (by omega)]

@[simp] theorem capRights_capSetSeal (v : Nat) : capRights (capSetSeal c v) = capRights c := bits_capSetSeal c v (by omega)
@[simp] theorem capRing_capSetSeal (v : Nat) : capRing (capSetSeal c v) = capRing c := bits_capSetSeal c v (by omega)
@[simp] theorem capSide_capSetSeal (v : Nat) : capSide (capSetSeal c v) = capSide c := by
  rw [capSide, capSide, bit_eq_getLsbD, bit_eq_getLsbD, getLsbD_capSetSeal c v (by omega), if_pos (by omega)]
@[simp] theorem capGlobal_capSetSeal (v : Nat) : capGlobal (capSetSeal c v) = capGlobal c := by
  rw [capGlobal, capGlobal, bit_eq_getLsbD, bit_eq_getLsbD, getLsbD_capSetSeal c v (by omega), if_pos (by omega)]

theorem capSeal_capSetSeal {v : Nat} (h : v < 65536) : capSeal (capSetSeal c v) = v :=
  bits_eq_of_testBit (by simpa using h) fun i hi => by
    rw [getLsbD_capSetSeal c v (by omega), if_neg (by omega), Nat.add_sub_cancel_left]

@[simp] theorem capSetGlobal_tag (b : Bool) : (capSetGlobal c b).tag = c.tag := rfl
@[simp] theorem capSetGlobal_w0 (b : Bool) : (capSetGlobal c b).w0 = c.w0 := rfl
@[simp] theorem capSetGlobal_w1 (b : Bool) : (capSetGlobal c b).w1 = c.w1 := rfl
@[simp] theorem capSetGlobal_w2 (b : Bool) : (capSetGlobal c b).w2 = c.w2 := rfl
@[simp] theorem capBase_capSetGlobal (b : Bool) : capBase (capSetGlobal c b) = capBase c := rfl
@[simp] theorem capLast_capSetGlobal (b : Bool) : capLast (capSetGlobal c b) = capLast c := rfl

/-- A change of GLOBAL leaves every field that does not hold bit 7. -/
theorem bits_capSetGlobal (b : Bool) {hi lo : Nat} (hi' : hi < 36) (h : hi < 7 ∨ 7 < lo) :
    bits (capSetGlobal c b).w3 hi lo = bits c.w3 hi lo :=
  bits_congr fun i _ _ => by rw [getLsbD_capSetGlobal c b (by omega), if_neg (by omega)]

@[simp] theorem capRights_capSetGlobal (b : Bool) : capRights (capSetGlobal c b) = capRights c :=
  bits_capSetGlobal c b (by omega) (by omega)
@[simp] theorem capRing_capSetGlobal (b : Bool) : capRing (capSetGlobal c b) = capRing c :=
  bits_capSetGlobal c b (by omega) (by omega)
@[simp] theorem capSeal_capSetGlobal (b : Bool) : capSeal (capSetGlobal c b) = capSeal c :=
  bits_capSetGlobal c b (by omega) (by omega)
@[simp] theorem capSide_capSetGlobal (b : Bool) : capSide (capSetGlobal c b) = capSide c := by
  rw [capSide, capSide, bit_eq_getLsbD, bit_eq_getLsbD, getLsbD_capSetGlobal c b (by omega), if_neg (by omega)]
@[simp] theorem capGlobal_capSetGlobal (b : Bool) : capGlobal (capSetGlobal c b) = b := by
  rw [capGlobal, bit_eq_getLsbD, getLsbD_capSetGlobal c b (by omega), if_pos rfl]

theorem capRights_lt : capRights c < 2 ^ 12 := bits_lt ..
theorem capSeal_lt : capSeal c < 65536 := bits_lt ..

theorem capRights_capSetRights {v : Nat} (h : v < 2 ^ 12) : capRights (capSetRights c v) = v :=
  bits_eq_of_testBit h fun i hi => by
    rw [getLsbD_capSetRights c v (by omega) h, if_pos (by omega), Nat.add_sub_cancel_left]

end

end Sys2Proof.Machine
end

section

namespace Sys2Proof.Machine

/-! What translation, and the fetch of an instruction, can change of the state at all: memory and what its errors log, the
counters, and of the seat what bareSeat leaves out. -/

theorem signalHost_only (s : State) (v : Nat) : ∃ p, signalHost s v = { s with pins := p } := by
  unfold signalHost
  split
  · exact ⟨_, rfl⟩
  · exact ⟨s.pins, rfl⟩

theorem sendFrame_only (s : State) (event : Bool) (f : OutFrame) :
    ∃ i p, sendFrame s event f = { s with irrix := i, pins := p } := by
  unfold sendFrame
  dsimp only
  split <;> split
  · exact ⟨s.irrix, s.pins, rfl⟩
  · split
    · exact ⟨_, s.pins, rfl⟩
    · obtain ⟨p, h⟩ := signalHost_only { s with irrix := _ } 0
      exact ⟨_, p, h⟩
  all_goals exact ⟨_, s.pins, rfl⟩

theorem sendEvent_only (node : Nat) (entry : List Octet) (s : State) (x : Session) :
    ∃ i p, sendEvent node entry s x = { s with irrix := i, pins := p } := by
  unfold sendEvent sendTagged putSession
  split
  · obtain ⟨i, p, h⟩ := sendFrame_only { s with irrix := _ } true _
    exact ⟨i, p, h⟩
  · obtain ⟨i, p, h⟩ := sendFrame_only { s with irrix := _ } true _
    exact ⟨i, p, h⟩

/-- Logging an event changes the service side, its pins and the free choices (17 R492). -/
theorem logEvent_only (cls source : Nat) (s : State) :
    ∃ i p f, logEvent cls source s = { s with irrix := i, pins := p, free := f } := by
  have fold : ∀ (n : Nat) (e : List Octet) (xs : List Session) (s : State),
      ∃ i p, xs.foldl (sendEvent n e) s = { s with irrix := i, pins := p } := by
    intro n e xs
    induction xs with
    | nil => exact fun s => ⟨s.irrix, s.pins, rfl⟩
    | cons x xs ih =>
      intro s
      obtain ⟨i, p, h⟩ := sendEvent_only n e s x
      obtain ⟨i', p', h'⟩ := ih (sendEvent n e s x)
      exact ⟨i', p', by rw [List.foldl_cons, h', h]⟩
  obtain ⟨i, p, h⟩ := fold s.pins.node.toNat _ s.irrix.sessions { s with free := s.free + 1, irrix := _ }
  exact ⟨i, p, _, h⟩

theorem meetCase_only (s : State) (g : Nat) : ∃ m i p f, meetCase s g = { s with mem := m, irrix := i, pins := p, free := f } := by
  unfold meetCase
  dsimp only
  split
  · exact ⟨s.mem, s.irrix, s.pins, s.free, rfl⟩
  · split
    · exact ⟨_, s.irrix, s.pins, s.free, rfl⟩
    · obtain ⟨i, p, f, h⟩ := logEvent_only 4 (unnamedSource s) { s with mem := _ }
      exact ⟨_, i, p, f, h⟩

theorem meetStripe_only (s : State) (k : Nat) : ∃ m i p f, meetStripe s k = { s with mem := m, irrix := i, pins := p, free := f } := by
  unfold meetStripe poisonStripe
  dsimp only
  split
  · exact ⟨s.mem, s.irrix, s.pins, s.free, rfl⟩
  · split
    · exact ⟨_, s.irrix, s.pins, s.free, rfl⟩
    · obtain ⟨i, p, f, h⟩ := logEvent_only 4 (unnamedSource { s with mem := _ }) { s with mem := _ }
      exact ⟨_, i, p, f, h⟩

theorem meetAt_only (s : State) (a : Nat) : ∃ m i p f, meetAt s a = { s with mem := m, irrix := i, pins := p, free := f } := by
  unfold meetAt
  split
  · exact meetStripe_only ..
  · split
    · exact meetCase_only ..
    · exact ⟨s.mem, s.irrix, s.pins, s.free, rfl⟩

/-- What an access meets changes memory and logs (10 R321, R322, R334). -/
theorem meetWords_only (s : State) (as : List Nat) :
    ∃ m i p f, meetWords s as = { s with mem := m, irrix := i, pins := p, free := f } := by
  unfold meetWords
  split
  · exact ⟨s.mem, s.irrix, s.pins, s.free, rfl⟩
  · rename_i hn
    clear hn
    induction as generalizing s with
    | nil => exact ⟨s.mem, s.irrix, s.pins, s.free, rfl⟩
    | cons a as ih =>
      obtain ⟨m, i, p, f, h⟩ := meetAt_only s a
      obtain ⟨m', i', p', f', h'⟩ := ih (meetAt s a)
      exact ⟨m', i', p', f', by rw [List.foldl_cons, h', h]⟩

theorem storeWords_only (s : State) (a : Nat) (ws : List Word) (tag : Bool) :
    ∃ m i p f, storeWords s a ws tag = { s with mem := m, irrix := i, pins := p, free := f } := by
  unfold storeWords
  dsimp only
  split <;> split
  · obtain ⟨i, p, f, h⟩ := logEvent_only 4 (unnamedSource s) { s with mem := _ }
    exact ⟨_, i, p, f, h⟩
  · exact ⟨_, s.irrix, s.pins, s.free, rfl⟩
  · obtain ⟨i, p, f, h⟩ := logEvent_only 4 (unnamedSource s) { s with mem := _ }
    exact ⟨_, i, p, f, h⟩
  · exact ⟨_, s.irrix, s.pins, s.free, rfl⟩

theorem putGranule_only (s : State) (a : Nat) (ws : List Word) (tag : Bool) :
    ∃ m i p f, putGranule s a ws tag = { s with mem := m, irrix := i, pins := p, free := f } := by
  unfold putGranule
  obtain ⟨m, i, p, f, h⟩ := meetWords_only s [a]
  split
  · exact storeWords_only ..
  · obtain ⟨m', i', p', f', h'⟩ := storeWords_only (meetWords s [a]) a ws tag
    exact ⟨m', i', p', f', by rw [h', h]⟩

/-- The state without seats, memory, counters, free choices and the service side. -/
def bareState (s : State) : State := { s with seats := [], mem := {}, counters := [], free := 0, irrix := {}, pins := {} }

/-- From s to t translation for seat q has changed nothing else. -/
structure Translated (q : Nat) (s t : State) : Prop where
  rest : bareState t = bareState s
  others : ∀ p, p ≠ q → getSeat t p = getSeat s p
  seat : bareSeat (getSeat t q) = bareSeat (getSeat s q)

namespace Translated

variable {q : Nat} {s t u : State}

theorem refl (q : Nat) (s : State) : Translated q s s := ⟨rfl, fun _ _ => rfl, rfl⟩

theorem trans (h : Translated q s t) (h' : Translated q t u) : Translated q s u :=
  ⟨h'.rest.trans h.rest, fun p hp => (h'.others p hp).trans (h.others p hp), h'.seat.trans h.seat⟩

theorem banks (h : Translated q s t) : (getSeat t q).banks = (getSeat s q).banks := by
  simpa only [bareSeat] using congrArg Seat.banks h.seat

theorem status (h : Translated q s t) : (getSeat t q).status = (getSeat s q).status := by
  simpa only [bareSeat] using congrArg Seat.status h.seat

theorem coxes (h : Translated q s t) : t.coxes = s.coxes := by
  simpa only [bareState] using congrArg State.coxes h.rest

theorem getBank_eq (h : Translated q s t) (b : Nat) : getBank (getSeat t q) b = getBank (getSeat s q) b := by
  rw [getBank, h.banks, ← getBank]

theorem curBank_eq (h : Translated q s t) : curBank (getSeat t q) = curBank (getSeat s q) := by
  rw [curBank, h.status, h.getBank_eq, ← curBank]

theorem seatCount (h : Translated q s t) (p i : Nat) : Translated q s (Machine.seatCount t p i) := by
  obtain ⟨c, hc⟩ := seatCount_eq t p i
  rw [hc]
  exact h.trans ⟨rfl, fun _ _ => rfl, rfl⟩

theorem missCount (h : Translated q s t) : Translated q s (Machine.missCount t q) := (h.seatCount ..).seatCount ..

theorem modSeat (h : Translated q s t) (f : Seat → Seat) (hf : ∀ x, bareSeat (f x) = bareSeat x) :
    Translated q s (Machine.modSeat t q f) :=
  h.trans ⟨rfl, fun p hp => by rw [getSeat_modSeat, if_neg hp], by rw [getSeat_modSeat_self, hf]⟩

theorem meetWords (h : Translated q s t) (as : List Nat) : Translated q s (Machine.meetWords t as) := by
  obtain ⟨m, i, p, f, he⟩ := meetWords_only t as
  rw [he]
  exact h.trans ⟨rfl, fun _ _ => rfl, rfl⟩

theorem putGranule (h : Translated q s t) (a : Nat) (ws : List Word) (tag : Bool) :
    Translated q s (Machine.putGranule t a ws tag) := by
  obtain ⟨m, i, p, f, he⟩ := putGranule_only t a ws tag
  rw [he]
  exact h.trans ⟨rfl, fun _ _ => rfl, rfl⟩

theorem timedNote (h : Translated q s t) (r : Nat × Bool) : Translated q s (Machine.timedNote q t r) := by
  unfold Machine.timedNote
  dsimp only
  split
  · split
    · exact h.seatCount ..
    · refine Translated.seatCount (.modSeat (h.seatCount _ _) _ fun x => ?_) _ _
      rfl
  · exact h

theorem tableReach (h : Translated q s t) (a : Nat) : Translated q s (Machine.tableReach t (some q) a) :=
  (h.timedNote _).meetWords _

theorem walkMeets (h : Translated q s t) (m v : Nat) (cached : Option Word) :
    Translated q s (Machine.walkMeets t (some q) m v cached) := by
  have leaf : ∀ {u : State} (c : Bool) (a : Nat), Translated q s u →
      Translated q s (if c then Machine.tableReach u (some q) a else u) := by
    intro u c a hu
    split
    · exact hu.tableReach a
    · exact hu
  unfold Machine.walkMeets
  dsimp only
  split
  · exact leaf _ _ h
  · split
    · exact h
    · split
      · split
        · exact leaf _ _ (h.tableReach _)
        · exact h.tableReach _
      · exact h.tableReach _

theorem viewPut (h : Translated q s t) (a : Nat) (ws : List Word) (tag : Bool) : Translated q s (Machine.viewPut t q a ws tag) := by
  have hm : Translated q s (markStale t q a ws.length) := h.modSeat _ fun _ => rfl
  unfold Machine.viewPut
  dsimp only
  split
  · exact hm.modSeat _ fun _ => rfl
  · exact hm.putGranule ..

theorem tlbDrop (h : Translated q s t) (e : TlbEntry) : Translated q s (Machine.tlbDrop t q e) := h.modSeat _ fun _ => rfl

theorem spaceNote (h : Translated q s t) (r : Nat × Bool) : Translated q s (Machine.spaceNote q t r) := by
  unfold Machine.spaceNote
  split
  · exact h
  · split
    · exact h.seatCount _ _
    · split
      · exact h.seatCount _ _
      · split
        · exact h.seatCount _ _
        · exact h

theorem accessMeets (h : Translated q s t) (p : Access × List Run) : Translated q s (Machine.accessMeets q t p) := by
  unfold Machine.accessMeets
  dsimp only
  split
  · exact h
  · exact h.meetWords _

theorem tlbReplace (h : Translated q s t) (e e' : TlbEntry) : Translated q s (Machine.tlbReplace t q e e') :=
  h.modSeat _ fun _ => rfl

end Translated

/-- A result whose state, on either side, satisfies P. -/
def Both {ε α : Type} (P : State → Prop) (f : ε → State) (g : α → State) : Except ε α → Prop
  | .error e => P (f e)
  | .ok a => P (g a)

theorem tlbLookup_translated {q : Nat} {s t : State} (h : Translated q s t) (m v : Nat) (fresh : Bool) :
    Both (Translated q s) Prod.snd Prod.snd (tlbLookup t q m v fresh) := by
  have hd : Translated q s (drawFree t).2 := h.trans ⟨rfl, fun _ _ => rfl, rfl⟩
  unfold tlbLookup
  dsimp only
  split
  · dsimp only [Both]
    split
    · exact hd
    · exact hd.seatCount ..
  · have hw := fun c => hd.walkMeets m v c
    split
    · exact ((hw _).missCount.seatCount _ _).seatCount _ _
    · refine Translated.seatCount (.missCount (.modSeat (hw _) _ fun x => ?_)) _ _
      rfl

theorem translateSpan_translated {q : Nat} {s : State} (kind : XKind) (fresh : Bool) (fuel : Nat) {t : State}
    (h : Translated q s t) (v n : Nat) :
    Both (Translated q s) (fun e => e.2.2) Prod.snd (translateSpan q kind fresh fuel t v n) := by
  induction fuel generalizing t v n with
  | zero => exact h
  | succ k ih =>
    unfold translateSpan
    split
    · exact h
    · dsimp only
      split
      · exact h
      · have hl := tlbLookup_translated h ((if (getSeat t q).status.side then 128 else 0) + ctxMap (curBank (getSeat t q))) v fresh
        split <;> rename_i hh <;> rw [hh] at hl
        · exact hl
        · split
          · exact hl
          · rename_i u _
            have hr := ih (t := u) hl (v + min n (4096 - v % 4096)) (n - min n (4096 - v % 4096))
            split <;> rename_i he <;> rw [he] at hr <;> exact hr

theorem transAll_translated {q : Nat} {s : State} (fresh : Bool) (as : List Access) {t : State} (h : Translated q s t) :
    Both (Translated q s) Prod.snd Prod.snd (transAll q fresh as t) := by
  induction as generalizing t with
  | nil => exact h
  | cons a as ih =>
    unfold transAll
    have ht := translateSpan_translated (accKind a) fresh (a.n / 4096 + 2) h a.ea.toNat a.n
    split <;> rename_i hh <;> rw [hh] at ht
    · exact ht
    · rename_i u
      have hr := ih (t := u) ht
      split <;> rename_i he <;> rw [he] at hr <;> exact hr

theorem touchEntry_translated {q : Nat} {s t : State} (h : Translated q s t) (e : TlbEntry) (v : Nat) (store : Bool) :
    Both (Translated q s) id id (touchEntry t q e v store) := by
  unfold touchEntry
  dsimp only
  split
  · exact h
  · have hr : Translated q s (if tableOpen t e.map (pteOf e v) 0 then tableReach t (some q) (pteOf e v) else t) := by
      split
      · exact h.tableReach _
      · exact h
    generalize (if tableOpen t e.map (pteOf e v) 0 then tableReach t (some q) (pteOf e v) else t) = u at hr ⊢
    split
    · exact (hr.tlbDrop e).seatCount q 111
    · split
      · exact hr
      · have hw : ∀ w, Translated q s (if w = viewWord u (some q) (pteOf e v) then u else viewPut u q (pteOf e v) [w] false) := by
          intro w
          split
          · exact hr
          · exact hr.viewPut ..
        exact ((hw _).tlbReplace _ _).seatCount q 110

theorem touchAll_translated {q : Nat} {s : State} (rs : List (Run × Bool)) {t : State} (h : Translated q s t) :
    Both (Translated q s) id id (touchAll q rs t) := by
  induction rs generalizing t with
  | nil => exact h
  | cons r rs ih =>
    unfold touchAll
    split
    · exact ih h
    · have ht := touchEntry_translated h (tlbNow t q ‹_›) r.1.v r.2
      split <;> rename_i hh <;> rw [hh] at ht
      · exact ht
      · exact ih ht

/-- The notes of an access that has been made: by the memory it goes to, and in deterministic mode (06 R211, 15 R444). -/
def accessNotes (q : Nat) (rs : List Run) (s : State) : State :=
  (rs.map fun r => (r.pa, true)).foldl (fun s r => spaceNote q (timedNote q s r) r) s

theorem accessNotes_translated {q : Nat} {s : State} (rs : List Run) {t : State} (h : Translated q s t) :
    Translated q s (accessNotes q rs t) := by
  unfold accessNotes
  induction rs generalizing t with
  | nil => exact h
  | cons r rs ih => exact ih ((h.timedNote _).spaceNote _)

/-- The entries of a span that A is set in. -/
def fetchTouches (rs : List Run) : List (Run × Bool) := rs.map fun r => (r, false)

/-- A fetch that passes: its translation, then A of the entries, then the notes; or, after a failed compare-and-set, the fetch
made afresh (10 R347). -/
theorem accessFrom_fetch {q fuel : Nat} {a : Access} {fresh : Bool} {s : State} {p : Passed} (hf : a.fetch = true)
    (hw : a.write = false) (h : accessFrom q [a] fuel fresh s = .ok p) :
    ∃ rs u, transAll q fresh [a] s = .ok ([rs], u) ∧
      ((∃ t, (touchAll q (fetchTouches rs) (accessMeets q u (a, rs)) = .ok t ∨
          fuel = 0 ∧ touchAll q (fetchTouches rs) (accessMeets q u (a, rs)) = .error t) ∧ p.st = accessNotes q rs t) ∨
        ∃ k t, fuel = k + 1 ∧ touchAll q (fetchTouches rs) (accessMeets q u (a, rs)) = .error t ∧
          accessFrom q [a] k true t = .ok p) := by
  have ht : ∀ rss u, transAll q fresh [a] s = .ok (rss, u) → ∃ rs, rss = [rs] := by
    intro rss u h
    simp only [transAll] at h
    split at h
    · cases h
    · cases h
      exact ⟨_, rfl⟩
  unfold accessFrom at h
  split at h
  · cases h
  · rename_i rss u htr
    obtain ⟨rs, rfl⟩ := ht _ _ htr
    refine ⟨rs, u, htr, ?_⟩
    dsimp only at h
    split at h
    · cases h
    · split at h
      · cases h
      · simp only [List.zip_cons_cons, List.zip_nil_right, List.foldl_cons, List.foldl_nil, List.flatMap_cons, List.flatMap_nil,
          List.append_nil, hf, hw] at h
        split at h
        · cases h
        · simp only [readAll, hf, hw, Bool.or_true, if_true] at h
          split at h
          · next _ t hc =>
            cases h
            exact .inl ⟨t, .inl hc, rfl⟩
          · next t hc =>
            cases h
            exact .inl ⟨t, .inr ⟨rfl, hc⟩, rfl⟩
          · next t k hc => exact .inr ⟨k, t, rfl, hc, h⟩

theorem accessFrom_translated {q : Nat} {a : Access} {s : State} {p : Passed} (hf : a.fetch = true) (hw : a.write = false)
    (fuel : Nat) {fresh : Bool} {t : State} (hs : Translated q s t) (h : accessFrom q [a] fuel fresh t = .ok p) :
    Translated q s p.st := by
  induction fuel using Nat.strong_induction_on generalizing fresh t with
  | _ fuel ih =>
    obtain ⟨rs, u, hr, h⟩ := accessFrom_fetch hf hw h
    have hu := transAll_translated fresh [a] hs
    rw [hr] at hu
    have hc := touchAll_translated (fetchTouches rs) (Translated.accessMeets (q := q) (s := s) hu (a, rs))
    rcases h with ⟨v, hv | ⟨-, hv⟩, hp⟩ | ⟨k, v, hk, hv, hp⟩
    · rw [hv] at hc
      exact hp ▸ accessNotes_translated rs hc
    · rw [hv] at hc
      exact hp ▸ accessNotes_translated rs hc
    · rw [hv] at hc
      exact ih k (by omega) hc hp

/-- The fetch of an instruction that issues changes what translation may change, and the seat's sampling state. -/
theorem Issues.translated {s s1 : State} {q : SeatNo} {i : Instr} (h : Issues s q i s1) : Translated q.val s s1 := by
  obtain ⟨-, -, -, p, ha, rfl⟩ := h
  unfold accessAll at ha
  split at ha
  · cases ha
  · refine (accessFrom_translated rfl rfl 8 (.refl q.val s) ha).modSeat _ fun x => ?_
    unfold decoded sampleDecode
    repeat' split
    all_goals rfl

end Sys2Proof.Machine
end

section

namespace Sys2Proof.Machine

/-! What the states that differ in counters and samples have in common. -/

@[simp] theorem getSeat_seatCount (s : State) (q i p : Nat) : getSeat (seatCount s q i) p = getSeat s p := by
  obtain ⟨c, h⟩ := seatCount_eq s q i
  rw [h]
  rfl

@[simp] theorem getSeat_sideNote (x : Seat) (s : State) (q p : Nat) : getSeat (sideNote x s q) p = getSeat s p := by
  unfold sideNote
  split <;> simp

/-- The seat without its sample records. -/
def unsampled (x : Seat) : Seat := { x with samples := [] }

theorem getSeat_quiet_self (q : Nat) (s : State) : getSeat (quiet q s) q = unsampled (getSeat s q) :=
  (getSeat_modSeat_self s q unsampled :)

/-- States that are alike apart from counters and samples have one memory, and a seat of one STATUS and one set of banks. -/
theorem alike_of_quiet {q : Nat} {s t : State} (h : quiet q s = quiet q t) :
    s.mem = t.mem ∧ (getSeat s q).status = (getSeat t q).status ∧ ∀ b, getBank (getSeat s q) b = getBank (getSeat t q) b := by
  have hx : unsampled (getSeat s q) = unsampled (getSeat t q) := by rw [← getSeat_quiet_self, ← getSeat_quiet_self, h]
  exact ⟨(congrArg (fun u : State => u.mem) h :), (congrArg (fun x : Seat => x.status) hx :),
    fun b => (congrArg (fun x : Seat => getBank x b) hx :)⟩

theorem getSeat_modCur (s : State) (q : Nat) (f : Bank → Bank) :
    getSeat (modCur s q f) q = modBank (getSeat s q) (getSeat s q).status.bank f := getSeat_modSeat_self ..

theorem getBank_modBank (x : Seat) (b c : Nat) (f : Bank → Bank) :
    getBank (modBank x b f) c = if c = b then f (getBank x b) else getBank x c := getBank_setBank ..

@[simp] theorem modBank_status (x : Seat) (b : Nat) (f : Bank → Bank) : (modBank x b f).status = x.status := rfl

/-! Whether a pair-checked activation overflows depends on the bank in use and the cox alone. -/

theorem pairOver_congr {s t : State} {q : Nat} (hc : t.coxes = s.coxes)
    (hr : (curBank (getSeat t q)).role = (curBank (getSeat s q)).role)
    (hb : (curBank (getSeat t q)).pairBuf = (curBank (getSeat s q)).pairBuf) : pairOver t q = pairOver s q := by
  simp only [pairOver, getPair, getCox, hc, hr, hb]

/-- The fetch brings no outputs. -/
theorem Issues.pairOver {s s1 : State} {q : SeatNo} {i : Instr} (h : Issues s q i s1) : pairOver s1 q.val = false := by
  have ht := h.translated
  obtain ⟨-, ho, -⟩ := h
  rw [pairOver_congr ht.coxes (by rw [ht.curBank_eq]) (by rw [ht.curBank_eq]), ho]

/-! Gates (02 R61, 03 R90 to R100). -/

theorem bankC_nullRegs (b : Bank) (rs : List Nat) (r : Nat) : bankC (nullRegs b rs) r = if r ∈ rs then capNull else bankC b r := by
  unfold nullRegs
  induction rs generalizing b with
  | nil => simp
  | cons k rs ih =>
    rw [List.foldl_cons, ih, bankC_bankSetC]
    by_cases hr : r ∈ rs
    · simp [hr]
    · by_cases hk : r = k
      · by_cases h0 : k = 0
        · simp [hk, h0, bankC]
        · simp [hk, h0]
      · simp [hr, hk]

/-- Two banks that hold the same but for c. -/
def SameButC (a b : Bank) : Prop := ∃ c, a = { b with c := c }

theorem sameButC_bankSetC (b : Bank) (r : Nat) (c : Cap) : SameButC (bankSetC b r c) b := by
  unfold bankSetC
  split
  · exact ⟨b.c, rfl⟩
  · exact ⟨_, rfl⟩

theorem SameButC.trans {a b c : Bank} (h : SameButC a b) (h' : SameButC b c) : SameButC a c := by
  obtain ⟨x, rfl⟩ := h
  obtain ⟨y, rfl⟩ := h'
  exact ⟨x, rfl⟩

theorem sameButC_nullRegs (b : Bank) (rs : List Nat) : SameButC (nullRegs b rs) b := by
  unfold nullRegs
  induction rs generalizing b with
  | nil => exact ⟨b.c, rfl⟩
  | cons k rs ih => exact (ih _).trans (sameButC_bankSetC ..)

theorem sameButC_enterPair (b : Bank) (ca cb : Cap) : SameButC (enterPair b ca cb) { b with pcc := capSetSeal ca 0 } :=
  sameButC_bankSetC ..

theorem bankC_enterPair (b : Bank) (ca cb : Cap) (r : Nat) :
    bankC (enterPair b ca cb) r = if r = 14 then capSetSeal cb 0 else bankC b r := by
  rw [enterPair, bankC_bankSetC]
  simp only [ne_eq, OfNat.ofNat_ne_zero, not_false_eq_true, and_true]
  rfl

theorem unsealed_eq (c : Cap) : capSetSeal c 0 = unsealed c := by
  simp [capSetSeal, unsealed, field]

/-- The bank as a CINVOKE leaves it, before its next address (03 R90, R96, R100). -/
def invokedBank (t : Status) (ca cb : Cap) (b : Bank) : Bank :=
  if t.lvl = .M then { nullRegs (enterPair b ca cb) [12, 13] with ctx := mkCtx (capSeal ca) (ctxMap b) }
  else if capSide ca = t.side then callBank b ca cb
  else if t.side then crossBack b ca cb
  else crossIn b t ca cb

/-- STATUS as a CINVOKE leaves it. -/
def invokedStatus (t : Status) (ca : Cap) (b : Bank) : Status :=
  if t.lvl = .M then { t with side := capSide ca }
  else if capSide ca = t.side then t
  else if t.side then { t with side := false, lvl := if bit b.xctx 9 then .S else .U, wideOn := false }
  else { t with side := true, lvl := .U, wideOn := false }

theorem invokedStatus_bank (t : Status) (ca : Cap) (b : Bank) : (invokedStatus t ca b).bank = t.bank := by
  unfold invokedStatus
  repeat' split
  all_goals rfl

/-- The seat that a CINVOKE leaves. -/
theorem getSeat_invoke (s : State) (q : Nat) (ca cb : Cap) :
    getSeat (invoke s q ca cb) q = { modBank (getSeat s q) (getSeat s q).status.bank (invokedBank (getSeat s q).status ca cb) with
      status := invokedStatus (getSeat s q).status ca (curBank (getSeat s q)) } := by
  unfold invoke invokedStatus modSided statusOfSeat
  dsimp only
  unfold invokedBank
  split_ifs
  · rw [getSeat_seatCount, getSeat_sideNote, getSeat_modSeat_self]
  · rw [getSeat_seatCount, getSeat_modCur]
    rfl
  · rw [getSeat_seatCount, getSeat_sideNote, getSeat_modSeat_self]
  · rw [getSeat_seatCount, getSeat_sideNote, getSeat_modSeat_self]
  · rw [getSeat_seatCount, getSeat_sideNote, getSeat_modSeat_self]

@[simp] theorem sideNote_coxes (x : Seat) (s : State) (q : Nat) : (sideNote x s q).coxes = s.coxes := by
  unfold sideNote
  split <;> simp

theorem invoke_mem (s : State) (q : Nat) (ca cb : Cap) : (invoke s q ca cb).mem = s.mem := by
  unfold invoke modSided
  dsimp only
  split_ifs <;> simp

theorem invoke_coxes (s : State) (q : Nat) (ca cb : Cap) : (invoke s q ca cb).coxes = s.coxes := by
  unfold invoke modSided
  dsimp only
  split_ifs <;> simp

end Sys2Proof.Machine
end

section

namespace Sys2Proof.Machine

/-! A CINVOKE whose checks pass (02 R61). -/

/-- A capability with GT in its RIGHTS is no key handle (12 R373). -/
theorem keyHandle_of_gate {c : Cap} (h : holds (capRights c) rGT = true) : keyHandle c = false := by
  unfold keyHandle
  by_cases hk : capRights c = rKY
  · rw [hk] at h
    exact absurd h (by decide)
  · simp [hk]

/-- A RIGHTS field holds every part of what it holds. -/
theorem holds_of_holds {r m n : Nat} (h : holds r n = true) (hm : n &&& m = m) : holds r m = true := by
  have h' : r &&& n = n := by simpa [holds] using h
  have : r &&& m = m := by
    calc r &&& m = (r &&& n) &&& m := by rw [Nat.land_assoc, hm]
      _ = m := by rw [h', hm]
  simp [holds, this]

/-- What the statement asks of a gate pair, the machine checks. -/
theorem gateFail_of_gateOpens {s : State} {q : SeatNo} {a b : Cap} (h : gateOpens s q a b = true) :
    noRing (statusOfSeat s q.val) = true ∧
      gateFail s (statusOfSeat s q.val).lvl (statusOfSeat s q.val).side
        ((statusOfSeat s q.val).lvl != .M && capSide a != (statusOfSeat s q.val).side &&
          !crossingForm (statusOfSeat s q.val) (curBank (getSeat s q.val)) a b) true a b = none := by
  simp only [gateOpens, Bool.and_eq_true, Bool.not_eq_true', Bool.or_eq_true, decide_eq_true_eq, beq_iff_eq] at h
  obtain ⟨⟨⟨⟨⟨⟨⟨⟨⟨⟨⟨⟨⟨hr, hta⟩, htb⟩, hv⟩, hvb⟩, hx⟩, hsa⟩, hsb⟩, hga⟩, hgb⟩, hxb⟩, hl⟩, hlo⟩, hhi⟩ := h
  refine ⟨(noRing_iff ..).2 hr, ?_⟩
  simp only [gateFail, Option.map_eq_none_iff, firstFail_none_iff, List.forall_mem_cons]
  refine ⟨by simp [hta], by simp [htb], ?_, ?_, ?_, ?_, by simp [hga], by simp [hgb, hxb], by simp [hl], by simp [cursorIn, hlo, hhi],
    by simp⟩
  · simp [keyHandle_of_gate (holds_of_holds hga (by decide)), keyHandle_of_gate hgb]
  · have hc : ((statusOfSeat s q.val).lvl != Level.M && capSide a != (statusOfSeat s q.val).side &&
        !crossingForm (statusOfSeat s q.val) (curBank (getSeat s q.val)) a b) = false := by
      rcases hx with hx | hx <;> simp [hx]
    simpa [hc, hvb] using hv
  · rcases hsa with h | h <;> simp [h]
  · rcases hsb with h | h <;> simp [h]

/-! The fields of CTX and XCTX as a gate leaves them (03 R83, R95). -/

theorem ctxMap_lt (b : Bank) : ctxMap b < 2 ^ 7 := bits_lt ..

theorem curSeal_lt (b : Bank) : curSeal b < 2 ^ 16 := bits_lt ..

theorem testBit_small {n k i : Nat} (h : n < 2 ^ k) (hi : k ≤ i) : n.testBit i = false :=
  Nat.testBit_lt_two_pow (h.trans_le (Nat.pow_le_pow_right (by omega) hi))

theorem seal_mkCtx {v m : Nat} (hv : v < 65536) : bits (mkCtx v m) 35 20 = v :=
  bits_eq_of_testBit (by simpa using hv) fun i hi => by
    have hm : (m % 128).testBit (20 + i) = false := testBit_small (k := 7) (Nat.mod_lt _ (by decide)) (by omega)
    simp only [mkCtx, BitVec.getLsbD_or, getLsbD_field]
    simp [hm, Nat.mod_eq_of_lt hv, show 20 + i < 36 by omega]

theorem map_mkCtx {v m : Nat} (hm : m < 128) : bits (mkCtx v m) 6 0 = m :=
  bits_eq_of_testBit (by simpa using hm) fun i hi => by
    simp only [mkCtx, BitVec.getLsbD_or, getLsbD_field]
    simp [Nat.mod_eq_of_lt hm, show i < 36 by omega, show i < 20 by omega]

/-- XCTX as a crossing into bow side writes it. -/
def crossCtx (v : Nat) (sup : Bool) (m : Nat) : Word := field 20 v ||| flag 9 sup ||| flag 8 true ||| field 0 m

theorem getLsbD_crossCtx (v : Nat) (sup : Bool) {m i : Nat} (hm : m < 2 ^ 7) (hi : i < 36) :
    (crossCtx v sup m).getLsbD i =
      if 20 ≤ i then v.testBit (i - 20) else if i = 9 then sup else if i = 8 then true else m.testBit i := by
  simp only [crossCtx, BitVec.getLsbD_or, getLsbD_field, getLsbD_flag, hi]
  by_cases h20 : 20 ≤ i
  · simp [h20, testBit_small hm (show 7 ≤ i by omega), show i ≠ 9 by omega, show i ≠ 8 by omega]
  · by_cases h9 : i = 9
    · simp [h9, testBit_small hm (show 7 ≤ 9 by omega)]
    · by_cases h8 : i = 8
      · simp [h8]
      · simp [h20, h9, h8]

theorem bits_crossCtx_seal {v m : Nat} (sup : Bool) (hv : v < 2 ^ 16) (hm : m < 2 ^ 7) : bits (crossCtx v sup m) 35 20 = v :=
  bits_eq_of_testBit hv fun i hi => by
    rw [getLsbD_crossCtx v sup hm (by omega), if_pos (by omega), Nat.add_sub_cancel_left]

theorem bits_crossCtx_map {v m : Nat} (sup : Bool) (hm : m < 2 ^ 7) : bits (crossCtx v sup m) 6 0 = m :=
  bits_eq_of_testBit hm fun i hi => by
    rw [getLsbD_crossCtx v sup hm (by omega), if_neg (by omega), if_neg (by omega), if_neg (by omega), Nat.zero_add]

theorem bit_crossCtx (v m : Nat) (sup : Bool) (hm : m < 2 ^ 7) :
    bit (crossCtx v sup m) 9 = sup ∧ bit (crossCtx v sup m) 8 = true := by
  rw [bit_eq_getLsbD, bit_eq_getLsbD, getLsbD_crossCtx v sup hm (by omega), getLsbD_crossCtx v sup hm (by omega)]
  simp

theorem crossCtx_rest (v m : Nat) (sup : Bool) (hm : m < 2 ^ 7) : crossCtx v sup m &&& 0o000003776200 = 0 := by
  have hmask : ∀ i, i < 36 → (0o000003776200 : Word).getLsbD i = decide (i = 7 ∨ 10 ≤ i ∧ i < 20) := by decide
  refine BitVec.eq_of_getLsbD_eq fun i hi => ?_
  rw [BitVec.getLsbD_and, getLsbD_crossCtx v sup hm hi, hmask i hi, show (0 : Word).getLsbD i = false from BitVec.getLsbD_zero]
  by_cases h : i = 7 ∨ 10 ≤ i ∧ i < 20
  · rw [if_neg (by omega), if_neg (by omega), if_neg (by omega), testBit_small hm (by omega), Bool.false_and]
  · simp [h]

/-- The links of a call and of a crossing (03 R90, R96). -/
theorem linkCap_linkOf (c : Cap) {v : Nat} (hv : v < 65536) : LinkOf (linkCap c v) c v := by
  simp [LinkOf, linkCap, capSeal_capSetSeal c hv]

theorem pccNext_eq (b : Bank) : pccNext b = returnPoint b := by
  simp only [pccNext, returnPoint, capSetCursor, capCursor, Cap.mk.injEq, and_true]
  exact BitVec.eq_of_toNat_eq (by simp [space36])

end Sys2Proof.Machine
end

section

namespace Sys2Proof.Machine

/-! What a CINVOKE leaves in the bank in use (03 R90, R96, R100). -/

section
variable (t : Status) (ca cb : Cap) (o : Bank)

/-- Beside c, a CINVOKE writes PCC, CTX and the words that keep the caller of a crossing. -/
theorem invokedBank_only : ∃ c, invokedBank t ca cb o = { o with
    pcc := unsealed ca, c := c, ctx := (invokedBank t ca cb o).ctx, xctx := (invokedBank t ca cb o).xctx,
    xretPc := (invokedBank t ca cb o).xretPc, xretDb := (invokedBank t ca cb o).xretDb } := by
  have he := sameButC_enterPair o ca cb
  unfold invokedBank callBank crossBack crossIn
  rw [← unsealed_eq]
  dsimp only
  split_ifs
  · obtain ⟨c, h⟩ := (sameButC_nullRegs _ _).trans he
    exact ⟨c, by rw [h]⟩
  · obtain ⟨c, h⟩ := (sameButC_nullRegs _ _).trans ((sameButC_bankSetC _ _ _).trans ((sameButC_bankSetC _ _ _).trans he))
    exact ⟨c, by rw [h]⟩
  · obtain ⟨c, h⟩ := (sameButC_nullRegs _ _).trans ((sameButC_bankSetC _ _ _).trans ((sameButC_bankSetC _ _ _).trans he))
    exact ⟨c, by rw [h]⟩
  · obtain ⟨c, h⟩ := (sameButC_nullRegs _ _).trans he
    exact ⟨c, by rw [h]⟩
  · obtain ⟨c, h⟩ := (sameButC_nullRegs _ _).trans ((sameButC_bankSetC _ _ _).trans ((sameButC_bankSetC _ _ _).trans he))
    exact ⟨c, by rw [h]⟩

/-! The capability registers of the bank, by the four cases. -/

theorem bankC_twoLinks (l m : Cap) (w : List Nat) (r : Nat) :
    bankC (nullRegs (bankSetC (bankSetC (enterPair o ca cb) 12 l) 13 m) w) r =
      if r ∈ w then capNull else if r = 13 then m else if r = 12 then l else if r = 14 then unsealed cb else bankC o r := by
  rw [bankC_nullRegs, bankC_bankSetC, bankC_bankSetC, bankC_enterPair, unsealed_eq]
  simp

theorem bankC_callBank (r : Nat) : bankC (callBank o ca cb) r =
    if r ∈ [8, 9, 10, 11, 15] then capNull
    else if r = 13 then (if curSeal o = 0 then capNull else linkCap (bankC o 14) (curSeal o))
    else if r = 12 then (if curSeal o = 0 then capNull else linkCap (pccNext o) (curSeal o))
    else if r = 14 then unsealed cb else bankC o r := (bankC_twoLinks ca cb o _ _ _ r :)

theorem bankC_crossIn (r : Nat) : bankC (crossIn o t ca cb) r =
    if r ∈ [8, 9, 10, 11, 15] then capNull
    else if r = 13 then linkCap (bankC o 14) crossSeal
    else if r = 12 then linkCap (pccNext o) crossSeal
    else if r = 14 then unsealed cb else bankC o r := (bankC_twoLinks ca cb o _ _ _ r :)

theorem bankC_nulledPair (w : List Nat) (r : Nat) : bankC (nullRegs (enterPair o ca cb) w) r =
    if r ∈ w then capNull else if r = 14 then unsealed cb else bankC o r := by
  rw [bankC_nullRegs, bankC_enterPair, unsealed_eq]

theorem bankC_crossBack (r : Nat) : bankC (crossBack o ca cb) r =
    if r ∈ [8, 9, 10, 11, 12, 13, 15] then capNull else if r = 14 then unsealed cb else bankC o r :=
  (bankC_nulledPair ca cb o _ r :)

theorem bankC_invokedAtM (h : t.lvl = .M) (r : Nat) : bankC (invokedBank t ca cb o) r =
    if r ∈ [12, 13] then capNull else if r = 14 then unsealed cb else bankC o r := by
  rw [invokedBank, if_pos h]
  exact (bankC_nulledPair ca cb o _ r :)

/-- In every case c14 is the pair's data capability, and c0 to c7 stay. -/
theorem bankC_invokedBank : bankC (invokedBank t ca cb o) 14 = unsealed cb ∧
    ∀ r, r < 8 → bankC (invokedBank t ca cb o) r = bankC o r := by
  have low : ∀ r, r < 8 → r ∉ [8, 9, 10, 11, 15] ∧ r ∉ [12, 13] ∧ r ∉ [8, 9, 10, 11, 12, 13, 15] ∧ r ≠ 12 ∧ r ≠ 13 ∧ r ≠ 14 := by
    intro r h
    simp only [List.mem_cons, List.not_mem_nil, or_false]
    omega
  by_cases hm : t.lvl = .M
  · simp only [bankC_invokedAtM t ca cb o hm]
    exact ⟨by simp, fun r hr => by
      obtain ⟨-, h, -, -, -, h4⟩ := low r hr
      rw [if_neg h, if_neg h4]⟩
  · rw [invokedBank, if_neg hm]
    split_ifs
    · simp only [bankC_callBank]
      exact ⟨by simp, fun r hr => by
        obtain ⟨h, -, -, h2, h3, h4⟩ := low r hr
        rw [if_neg h, if_neg h3, if_neg h2, if_neg h4]⟩
    · simp only [bankC_crossBack]
      exact ⟨by simp, fun r hr => by
        obtain ⟨-, -, h, -, -, h4⟩ := low r hr
        rw [if_neg h, if_neg h4]⟩
    · simp only [bankC_crossIn]
      exact ⟨by simp, fun r hr => by
        obtain ⟨h, -, -, h2, h3, h4⟩ := low r hr
        rw [if_neg h, if_neg h3, if_neg h2, if_neg h4]⟩

/-! What each case leaves beside c14 and c0 to c7. -/

/-- At M: c12 and c13 are null, and CTX takes the seal (R100). -/
theorem invokedAtM (h : t.lvl = .M) : let n := invokedBank t ca cb o
    bankC n 12 = capNull ∧ bankC n 13 = capNull ∧
      (∀ r, r = 8 ∨ r = 9 ∨ r = 10 ∨ r = 11 ∨ r = 15 → bankC n r = bankC o r) ∧ curSeal n = capSeal ca ∧ ctxMap n = ctxMap o ∧
      n.xctx = o.xctx ∧ n.xretPc = o.xretPc ∧ n.xretDb = o.xretDb := by
  intro n
  have hc : ∀ r, bankC n r = _ := bankC_invokedAtM t ca cb o h
  obtain ⟨c, he⟩ := (sameButC_nullRegs (enterPair o ca cb) [12, 13]).trans (sameButC_enterPair o ca cb)
  have hn : n = { o with pcc := capSetSeal ca 0, c := c, ctx := mkCtx (capSeal ca) (ctxMap o) } := by
    simp only [n, invokedBank, if_pos h, he]
  refine ⟨by simp [hc], by simp [hc], fun r hr => ?_, ?_, ?_, ?_⟩
  · rcases hr with rfl | rfl | rfl | rfl | rfl <;> simp [hc]
  · rw [hn]
    exact seal_mkCtx (capSeal_lt ca)
  · rw [hn]
    exact map_mkCtx (ctxMap_lt o)
  · rw [hn]
    exact ⟨rfl, rfl, rfl⟩

/-- Below M a CINVOKE writes null into c8 to c11 and c15. -/
theorem invoked_nulls (h : t.lvl ≠ .M) (r : Nat) (hr : r = 8 ∨ r = 9 ∨ r = 10 ∨ r = 11 ∨ r = 15) :
    bankC (invokedBank t ca cb o) r = capNull := by
  have h1 : r ∈ [8, 9, 10, 11, 15] := by simpa using hr
  have h2 : r ∈ [8, 9, 10, 11, 12, 13, 15] := by
    simp only [List.mem_cons, List.not_mem_nil, or_false]
    omega
  rw [invokedBank, if_neg h]
  split_ifs
  · rw [bankC_callBank, if_pos h1]
  · rw [bankC_crossBack, if_pos h2]
  · rw [bankC_crossIn, if_pos h1]

/-- The bank and STATUS of a call (R90). -/
theorem invokedCall (h : t.lvl ≠ .M) (hs : capSide ca = t.side) : let n := invokedBank t ca cb o
    invokedStatus t ca o = t ∧ curSeal n = capSeal ca ∧ ctxMap n = ctxMap o ∧
      n.xctx = o.xctx ∧ n.xretPc = o.xretPc ∧ n.xretDb = o.xretDb ∧
      (curSeal o = 0 → bankC n 12 = capNull ∧ bankC n 13 = capNull) ∧
      (curSeal o ≠ 0 → LinkOf (bankC n 12) (returnPoint o) (curSeal o) ∧ LinkOf (bankC n 13) (bankC o 14) (curSeal o)) := by
  intro n
  have hn : n = callBank o ca cb := by simp only [n, invokedBank, if_neg h, if_pos hs]
  obtain ⟨c, he⟩ := (sameButC_nullRegs _ [8, 9, 10, 11, 15]).trans ((sameButC_bankSetC _ _ _).trans
    ((sameButC_bankSetC _ _ _).trans (sameButC_enterPair o ca cb)))
  have hb : callBank o ca cb = { o with pcc := capSetSeal ca 0, c := c, ctx := mkCtx (capSeal ca) (ctxMap o) } := by
    unfold callBank
    dsimp only
    rw [he]
  have hc : ∀ r, bankC n r = _ := fun r => hn ▸ bankC_callBank ca cb o r
  refine ⟨by rw [invokedStatus, if_neg h, if_pos hs], ?_, ?_, ?_, ?_, ?_, ?_, ?_⟩
  · rw [hn, hb]
    exact seal_mkCtx (capSeal_lt ca)
  · rw [hn, hb]
    exact map_mkCtx (ctxMap_lt o)
  · rw [hn, hb]
  · rw [hn, hb]
  · rw [hn, hb]
  · intro h0
    simp [hc, h0]
  · intro h0
    simp only [hc, if_neg h0]
    exact ⟨pccNext_eq o ▸ linkCap_linkOf _ (curSeal_lt o), linkCap_linkOf _ (curSeal_lt o)⟩

/-- The bank and STATUS of a crossing into bow side (R96). -/
theorem invokedCrossIn (h : t.lvl ≠ .M) (hs : t.side = false) (hb : capSide ca = true) : let n := invokedBank t ca cb o
    invokedStatus t ca o = { t with side := true, lvl := .U, wideOn := false } ∧ curSeal n = 65534 ∧ ctxMap n = 0 ∧
      LinkOf (bankC n 12) (returnPoint o) 65534 ∧ LinkOf (bankC n 13) (bankC o 14) 65534 ∧
      bits n.xctx 35 20 = curSeal o ∧ bit n.xctx 9 = (t.lvl == .S) ∧ bit n.xctx 8 = true ∧ bits n.xctx 6 0 = ctxMap o ∧
      n.xctx &&& 0o000003776200 = 0 ∧ n.xretPc = o.pcc.w0 + 1 ∧ n.xretDb = (bankC o 14).w1 := by
  intro n
  have hx : capSide ca ≠ t.side := by rw [hs, hb]; decide
  have hn : n = crossIn o t ca cb := by
    rw [show n = invokedBank t ca cb o from rfl, invokedBank, if_neg h, if_neg hx, if_neg (by simp [hs])]
  have hc : ∀ r, bankC n r = _ := fun r => hn ▸ bankC_crossIn t ca cb o r
  have hw : n.xctx = crossCtx (curSeal o) (t.lvl == .S) (ctxMap o) := by rw [hn]; rfl
  have hm := ctxMap_lt o
  refine ⟨by rw [invokedStatus, if_neg h, if_neg hx, hs]; rfl, ?_, ?_, ?_, ?_, ?_, ?_, ?_, ?_, ?_, ?_, ?_⟩
  · rw [hn]
    exact seal_mkCtx (by decide)
  · rw [hn]
    exact map_mkCtx (by decide)
  · simp only [hc]
    exact pccNext_eq o ▸ linkCap_linkOf _ (by decide)
  · simp only [hc]
    exact linkCap_linkOf _ (by decide)
  · rw [hw, bits_crossCtx_seal _ (curSeal_lt o) hm]
  · rw [hw, (bit_crossCtx _ _ _ hm).1]
  · rw [hw, (bit_crossCtx _ _ _ hm).2]
  · rw [hw, bits_crossCtx_map _ hm]
  · rw [hw, crossCtx_rest _ _ _ hm]
  · rw [hn]
    exact (congrArg Cap.w0 (pccNext_eq o) :)
  · rw [hn]
    rfl

/-- The bank and STATUS of a crossing back (R96). -/
theorem invokedCrossBack (h : t.lvl ≠ .M) (hs : t.side = true) (hb : capSide ca = false) : let n := invokedBank t ca cb o
    invokedStatus t ca o = { t with side := false, lvl := if bit o.xctx 9 then .S else .U, wideOn := false } ∧
      curSeal n = bits o.xctx 35 20 ∧ ctxMap n = bits o.xctx 6 0 ∧ bankC n 12 = capNull ∧ bankC n 13 = capNull ∧
      n.xctx = o.xctx &&& 0o777777777377 ∧ n.xretPc = o.xretPc ∧ n.xretDb = o.xretDb := by
  intro n
  have hx : capSide ca ≠ t.side := by rw [hs, hb]; decide
  have hn : n = crossBack o ca cb := by
    rw [show n = invokedBank t ca cb o from rfl, invokedBank, if_neg h, if_neg hx, if_pos hs]
  obtain ⟨c, he⟩ := (sameButC_nullRegs (enterPair o ca cb) [8, 9, 10, 11, 12, 13, 15]).trans (sameButC_enterPair o ca cb)
  have hk : crossBack o ca cb = { o with
      pcc := capSetSeal ca 0, c := c, xctx := o.xctx &&& ~~~(flag 8 true), ctx := mkCtx (bits o.xctx 35 20) (bits o.xctx 6 0) } := by simp only [crossBack, he]
  have hc : ∀ r, bankC n r = _ := fun r => hn ▸ bankC_crossBack ca cb o r
  refine ⟨by rw [invokedStatus, if_neg h, if_neg hx, if_pos hs], ?_, ?_, by simp [hc], by simp [hc], ?_, ?_, ?_⟩
  · rw [hn, hk]
    exact seal_mkCtx (bits_lt ..)
  · rw [hn, hk]
    exact map_mkCtx (bits_lt ..)
  · rw [hn, hk]
    rfl
  · rw [hn, hk]
  · rw [hn, hk]

end

end Sys2Proof.Machine
end

section

namespace Sys2Proof.Machine

/-! CINVOKE (02 R61, 03 R90 to R100). -/

theorem capSetCursor_self (c : Cap) : capSetCursor c (capCursor c % space36) = c := by
  have : capCursor c % space36 = c.w0.toNat := Nat.mod_eq_of_lt c.w0.isLt
  rw [this, capSetCursor, BitVec.ofNat_toNat, BitVec.setWidth_eq]

theorem getSeat_goOn (q a : Nat) (s : State) : getSeat (goOn q a s) q =
    modBank (getSeat s q) (getSeat s q).status.bank fun b => { b with pcc := capSetCursor b.pcc (a % space36), progress := 0 } :=
  getSeat_modCur ..

/-- The bank in use of a seat after a change of it, and of fields of STATUS beside BANK. -/
theorem curBank_modBank_status (x : Seat) (f : Bank → Bank) {t : Status} (h : t.bank = x.status.bank) :
    curBank { modBank x x.status.bank f with status := t } = f (curBank x) :=
  (congrArg (getBank (modBank x x.status.bank f)) h).trans ((getBank_modBank ..).trans (if_pos rfl))

/-- A CINVOKE that passes its checks leaves the bank and the STATUS of its case, and goes on at the code gate's cursor. -/
theorem cinvoke_leaves {s s1 : State} {q : SeatNo} {ca cb : Reg} (hi : Issues s q (.cinvoke q ca cb) s1)
    (hg : gateOpens s1 q (cGet s1 q.val ca.toNat) (cGet s1 q.val cb.toNat) = true) :
    let a := cGet s1 q.val ca.toNat
    let x := getSeat s1 q.val
    ∃ t, exec (.cinvoke q ca cb) s = .next t ∧ t.mem = s1.mem ∧
      (getSeat t q.val).status = invokedStatus x.status a (curBank x) ∧
      (getBank (getSeat t q.val) x.status.bank =
        { invokedBank x.status a (cGet s1 q.val cb.toNat) (curBank x) with progress := 0 }) ∧
      ∀ b, b ≠ x.status.bank → getBank (getSeat t q.val) b = getBank x b := by
  intro a x
  obtain ⟨hr, hf⟩ := gateFail_of_gateOpens hg
  have hx : getSeat (invoke s1 q.val a (cGet s1 q.val cb.toNat)) q.val = _ := getSeat_invoke ..
  have hb : curBank (getSeat (invoke s1 q.val a (cGet s1 q.val cb.toNat)) q.val) =
      invokedBank x.status a (cGet s1 q.val cb.toNat) (curBank x) := by
    rw [hx]
    exact curBank_modBank_status _ _ (invokedStatus_bank ..)
  obtain ⟨c, ho⟩ := invokedBank_only x.status a (cGet s1 q.val cb.toNat) (curBank x)
  have hrun : ∃ t b, exec (.cinvoke q ca cb) s = .next t ∧ quiet q.val t = quiet q.val (retire q.val (seatLen (.cinvoke q ca cb)) b
      { st := invoke s1 q.val a (cGet s1 q.val cb.toNat), next := .jump (capCursor a), taken := true }) :=
    seatRun_retires hi hr (by simp only [hf]; rfl) (fun p h => by cases h)
      ((pairOver_congr (invoke_coxes ..) (by rw [hb, ho]) (by rw [hb, ho])).trans hi.pairOver)
  obtain ⟨t, b, ht, hq⟩ := hrun
  obtain ⟨hm, hst, hbk⟩ := alike_of_quiet (hq.trans (retire_jump _ _ _ _ _ rfl))
  have hs : (getSeat (invoke s1 q.val a (cGet s1 q.val cb.toNat)) q.val).status.bank = x.status.bank := by
    rw [hx]
    exact invokedStatus_bank ..
  have hp : (invokedBank x.status a (cGet s1 q.val cb.toNat) (curBank x)).pcc = unsealed a := by rw [ho]
  refine ⟨t, ht, hm.trans (invoke_mem ..), ?_, ?_, fun b hne => ?_⟩
  · rw [hst, getSeat_goOn, modBank_status, hx]
  · rw [hbk, getSeat_goOn, getBank_modBank, hs, if_pos rfl, ← hs, ← curBank, hb, hp]
    have : capSetCursor (unsealed a) (capCursor a % space36) = unsealed a := capSetCursor_self (unsealed a)
    rw [this, ← hp]
  · rw [hbk, getSeat_goOn, getBank_modBank, hs, if_neg hne, hx]
    exact (getBank_modBank ..).trans (if_neg hne)

end Sys2Proof.Machine
end

section

namespace Sys2Proof.Machine

/-! Counters have no effect on translation: a span translates alike whatever they hold. -/

/-- The two states differ in their counters alone. -/
def Recount (s t : State) : Prop := ∃ c, t = { s with counters := c }

theorem recount_seatCount (s : State) (q i : Nat) : Recount s (seatCount s q i) := seatCount_eq s q i

namespace Recount

variable {s t u : State}

theorem trans (h : Recount s t) (h' : Recount t u) : Recount s u := by
  obtain ⟨c, rfl⟩ := h
  obtain ⟨c', rfl⟩ := h'
  exact ⟨c', rfl⟩

theorem symm (h : Recount s t) : Recount t s := by
  obtain ⟨c, rfl⟩ := h
  exact ⟨s.counters, rfl⟩

theorem seatCount (h : Recount s t) (q i : Nat) : Recount (Machine.seatCount s q i) (Machine.seatCount t q i) :=
  (recount_seatCount s q i).symm.trans (h.trans (recount_seatCount t q i))

theorem missCount (h : Recount s t) (q : Nat) : Recount (Machine.missCount s q) (Machine.missCount t q) :=
  (h.seatCount ..).seatCount ..

theorem modSeat (h : Recount s t) (q : Nat) (f : Seat → Seat) : Recount (Machine.modSeat s q f) (Machine.modSeat t q f) := by
  obtain ⟨c, rfl⟩ := h
  exact ⟨c, rfl⟩

theorem getSeat_eq (h : Recount s t) (q : Nat) : getSeat t q = getSeat s q := by
  obtain ⟨c, rfl⟩ := h
  rfl

theorem timedNote (h : Recount s t) (q : Nat) (r : Nat × Bool) : Recount (Machine.timedNote q s r) (Machine.timedNote q t r) := by
  unfold Machine.timedNote
  rw [h.getSeat_eq]
  dsimp only
  split
  · split
    · exact h.seatCount ..
    · exact ((h.seatCount ..).modSeat ..).seatCount ..
  · exact h

theorem sendFrame (h : Recount s t) (event : Bool) (f : OutFrame) :
    Recount (Machine.sendFrame s event f) (Machine.sendFrame t event f) := by
  obtain ⟨c, rfl⟩ := h
  refine ⟨c, ?_⟩
  have hp : ∀ p, portSilent { s with counters := c } p = portSilent s p := fun _ => rfl
  unfold Machine.sendFrame signalHost
  dsimp only
  simp only [hp]
  split <;> split
  · rfl
  · split
    · rfl
    · split <;> rfl
  all_goals rfl

theorem sendEvent (h : Recount s t) (node : Nat) (entry : List Octet) (x : Session) :
    Recount (Machine.sendEvent node entry s x) (Machine.sendEvent node entry t x) := by
  refine sendFrame ?_ ..
  obtain ⟨c, rfl⟩ := h
  refine ⟨c, ?_⟩
  unfold putSession
  split <;> rfl

/-- A fold of steps that leave counters aside leaves them aside. -/
theorem foldl {α : Type} {f : State → α → State} (hf : ∀ {s t} x, Recount s t → Recount (f s x) (f t x)) (xs : List α)
    (h : Recount s t) : Recount (xs.foldl f s) (xs.foldl f t) := by
  induction xs generalizing s t with
  | nil => exact h
  | cons x xs ih => exact ih (hf x h)

theorem logEvent (h : Recount s t) (cls source : Nat) : Recount (Machine.logEvent cls source s) (Machine.logEvent cls source t) := by
  obtain ⟨c, rfl⟩ := h
  exact foldl (fun x h => h.sendEvent _ _ x) _ ⟨c, rfl⟩

theorem meetCase (h : Recount s t) (g : Nat) : Recount (Machine.meetCase s g) (Machine.meetCase t g) := by
  obtain ⟨c, rfl⟩ := h
  unfold Machine.meetCase
  dsimp only
  split
  · exact ⟨c, rfl⟩
  · split
    · exact ⟨c, rfl⟩
    · exact logEvent ⟨c, rfl⟩ _ _

theorem meetStripe (h : Recount s t) (k : Nat) : Recount (Machine.meetStripe s k) (Machine.meetStripe t k) := by
  obtain ⟨c, rfl⟩ := h
  unfold Machine.meetStripe poisonStripe
  dsimp only
  split
  · exact ⟨c, rfl⟩
  · split
    · exact ⟨c, rfl⟩
    · exact logEvent ⟨c, rfl⟩ _ _

theorem meetWords (h : Recount s t) (as : List Nat) : Recount (Machine.meetWords s as) (Machine.meetWords t as) := by
  have hm : t.mem = s.mem := by
    obtain ⟨c, rfl⟩ := h
    rfl
  unfold Machine.meetWords
  rw [hm]
  split
  · exact h
  · refine foldl (fun a h => ?_) _ h
    unfold meetAt
    split
    · exact h.meetStripe _
    · split
      · exact h.meetCase _
      · exact h

theorem viewMeets (h : Recount s t) (q : Option Nat) (as : List Nat) : Recount (Machine.viewMeets s q as) (Machine.viewMeets t q as) := by
  have hv : viewIn t q = viewIn s q := by
    obtain ⟨c, rfl⟩ := h
    rfl
  unfold Machine.viewMeets
  rw [hv]
  exact h.meetWords _

theorem tableReach (h : Recount s t) (q a : Nat) : Recount (Machine.tableReach s (some q) a) (Machine.tableReach t (some q) a) :=
  (h.timedNote ..).viewMeets ..

theorem tableOpen_eq (h : Recount s t) (m a dir : Nat) : tableOpen t m a dir = tableOpen s m a dir := by
  obtain ⟨c, rfl⟩ := h
  rfl

theorem tableRead_eq (h : Recount s t) (q : Option Nat) (m a lvl : Nat) : tableRead t q m a lvl = tableRead s q m a lvl := by
  obtain ⟨c, rfl⟩ := h
  rfl

theorem walk_eq (h : Recount s t) (q : Option Nat) (m v : Nat) (cached : Option Word) :
    walk t q m v cached = walk s q m v cached := by
  obtain ⟨c, rfl⟩ := h
  rfl

theorem walkMeets (h : Recount s t) (q m v : Nat) (cached : Option Word) :
    Recount (Machine.walkMeets s (some q) m v cached) (Machine.walkMeets t (some q) m v cached) := by
  have hb : mapBase t m = mapBase s m := by
    obtain ⟨c, rfl⟩ := h
    rfl
  have leaf : ∀ {s t : State} (a : Nat), Recount s t →
      Recount (if tableOpen s m a 0 then Machine.tableReach s (some q) a else s)
        (if tableOpen t m a 0 then Machine.tableReach t (some q) a else t) := by
    intro s t a h
    rw [h.tableOpen_eq]
    split
    · exact h.tableReach ..
    · exact h
  unfold Machine.walkMeets
  dsimp only
  split
  · exact leaf _ h
  · rw [hb, h.tableOpen_eq, (h.tableReach q _).tableRead_eq]
    split
    · exact h
    · split
      · split
        · exact leaf _ (h.tableReach ..)
        · exact h.tableReach ..
      · exact h.tableReach ..

theorem drawFree (h : Recount s t) : (Machine.drawFree t).1 = (Machine.drawFree s).1 ∧
    Recount (Machine.drawFree s).2 (Machine.drawFree t).2 := by
  obtain ⟨c, rfl⟩ := h
  exact ⟨rfl, c, rfl⟩

end Recount

/-- Results alike: of one kind and value, in states that differ in their counters alone. -/
def SameOk {ε α : Type} (a b : Except ε (α × State)) : Prop := ∀ v s, a = .ok (v, s) → ∃ t, b = .ok (v, t) ∧ Recount s t

theorem tlbLookup_recount {s t : State} (h : Recount s t) (q m v : Nat) (fresh : Bool) :
    SameOk (tlbLookup s q m v fresh) (tlbLookup t q m v fresh) := by
  obtain ⟨hn, hd⟩ := h.drawFree
  unfold tlbLookup
  rw [h.getSeat_eq]
  dsimp only
  rw [hn]
  split
  · intro e u he
    cases he
    refine ⟨_, rfl, ?_⟩
    split
    · exact hd
    · exact hd.seatCount ..
  · have hw := fun c => hd.walkMeets q m v c
    intro e u he
    rw [(hw _).walk_eq]
    split at he
    · cases he
    · cases he
      exact ⟨_, rfl, (((hw _).modSeat ..).missCount q).seatCount ..⟩

theorem translateSpan_recount (q : Nat) (kind : XKind) (fresh : Bool) (fuel : Nat) {s t : State} (h : Recount s t) (v n : Nat) :
    SameOk (translateSpan q kind fresh fuel s v n) (translateSpan q kind fresh fuel t v n) := by
  induction fuel generalizing s t v n with
  | zero =>
    intro rs u he
    cases he
    exact ⟨t, rfl, h⟩
  | succ k ih =>
    intro rs u he
    unfold translateSpan at he ⊢
    rw [h.getSeat_eq]
    split at he
    · cases he
      exact ⟨t, if_pos ‹_›, h⟩
    · rw [if_neg ‹_›]
      dsimp only at he ⊢
      split at he
      · cases he
        exact ⟨t, if_pos ‹_›, h⟩
      · rw [if_neg ‹_›]
        split at he
        · cases he
        · next e w hl =>
          obtain ⟨w', hl', hr⟩ := tlbLookup_recount h q _ v fresh _ _ hl
          rw [hl']
          dsimp only
          split at he
          · cases he
          · rw [if_neg ‹_›]
            split at he
            · cases he
            · next rs' u' hs =>
              cases he
              obtain ⟨u'', hs', hr'⟩ := ih hr _ _ _ _ hs
              rw [hs']
              exact ⟨_, rfl, hr'⟩

end Sys2Proof.Machine
end

section

namespace Sys2Proof.Machine

/-! CALLG (05 R170, 03 R106, R107). -/

/-- A frame pushed below DEPTH 3, bit by bit (03 R107). -/
theorem getLsbD_pushFrame (w : Word) {c g n i : Nat} (hd : ringDepth w < 3) (hc : c < 4) (hg : g < 4) (hi : i < 36) :
    (pushFrame w c g n).getLsbD i =
      if 4 * ringDepth w ≤ i ∧ i < 4 * ringDepth w + 4 then (c * 4 + g).testBit (i - 4 * ringDepth w)
      else if 12 ≤ i ∧ i < 14 then (ringDepth w + 1).testBit (i - 12) else w.getLsbD i := by
  have h15 : ∀ k, (15 : Nat).testBit k = decide (k < 4) := fun k => Nat.testBit_two_pow_sub_one 4 k
  have h3 : ∀ k, (3 : Nat).testBit k = decide (k < 2) := fun k => Nat.testBit_two_pow_sub_one 2 k
  unfold pushFrame
  dsimp only
  rw [if_neg (by omega)]
  generalize ringDepth w = d at hd
  simp only [BitVec.getLsbD_or, BitVec.getLsbD_and, BitVec.getLsbD_not, getLsbD_field, h15, h3, hi]
  by_cases h1 : 4 * d ≤ i ∧ i < 4 * d + 4
  · rw [if_pos h1]
    simp [h1.1, show i - 4 * d < 4 by omega, show ¬12 ≤ i by omega]
  · rw [if_neg h1]
    have hf : (decide (4 * d ≤ i) && (c * 4 + g).testBit (i - 4 * d)) = false := by
      by_cases h : 4 * d ≤ i
      · simp [testBit_small (show c * 4 + g < 2 ^ 4 by omega) (show 4 ≤ i - 4 * d by omega)]
      · simp [h]
    have hm : (decide (4 * d ≤ i) && decide (i - 4 * d < 4)) = false := by
      by_cases h : 4 * d ≤ i
      · simp [show ¬i - 4 * d < 4 by omega]
      · simp [h]
    rw [hf, hm]
    by_cases h2 : 12 ≤ i ∧ i < 14
    · rw [if_pos h2]
      simp [h2.1, show i - 12 < 2 by omega]
    · rw [if_neg h2]
      by_cases h : 12 ≤ i
      · simp [h, show ¬i - 12 < 2 by omega, testBit_small (show d + 1 < 2 ^ 2 by omega) (show 2 ≤ i - 12 by omega)]
      · simp [h]

section
variable (w : Word) {c g : Nat} (n : Nat) (hd : ringDepth w < 3) (hc : c < 4) (hg : g < 4)
include hd hc hg

theorem ringDepth_pushFrame : ringDepth (pushFrame w c g n) = ringDepth w + 1 :=
  bits_eq_of_testBit (by omega) fun i hi => by
    rw [getLsbD_pushFrame w hd hc hg (by omega), if_neg (by omega), if_pos (by omega), Nat.add_sub_cancel_left]

theorem ringFrame_pushFrame_top : ringFrame (pushFrame w c g n) (ringDepth w) = (c, g) := by
  have hb : ∀ j, (c * 4 + g).testBit j = if j < 2 then g.testBit j else c.testBit (j - 2) := fun j => by
    rw [Nat.mul_comm]
    exact Nat.testBit_two_pow_mul_add (i := 2) c hg j
  refine Prod.ext (bits_eq_of_testBit (hi := _ + 3) (lo := _ + 2) ?_ fun i hi => ?_)
    (bits_eq_of_testBit (hi := _ + 1) ?_ fun i hi => ?_)
  · rw [show 4 * ringDepth w + 3 + 1 - (4 * ringDepth w + 2) = 2 by omega]
    exact hc
  · rw [getLsbD_pushFrame w hd hc hg (by omega), if_pos (by omega), hb, if_neg (by omega)]
    congr 1
    omega
  · rw [show 4 * ringDepth w + 1 + 1 - 4 * ringDepth w = 2 by omega]
    exact hg
  · rw [getLsbD_pushFrame w hd hc hg (by omega), if_pos (by omega), hb, if_pos (by omega)]
    congr 1
    omega

theorem ringFrame_pushFrame_below {k : Nat} (hk : k < ringDepth w) :
    ringFrame (pushFrame w c g n) k = ringFrame w k := by
  refine Prod.ext (bits_congr fun i h1 h2 => ?_) (bits_congr fun i h1 h2 => ?_) <;>
    rw [getLsbD_pushFrame w hd hc hg (by omega), if_neg (by omega), if_neg (by omega)]

end

@[simp] theorem getSeat_drawFree (s : State) (q : Nat) : getSeat (drawFree s).2 q = getSeat s q := rfl

theorem coxes_callGate (s : State) (q lim : Nat) : (callGate s q lim).coxes = s.coxes := by
  unfold callGate
  dsimp only
  split <;> rfl

/-- The bank o of ring r as a CALLG into ring lim leaves it, before its next address. -/
def calledBank (o : Bank) (r lim free : Nat) : Bank :=
  { bankSetW o 31 (o.pcc.w0 + 1) with ringLink := if lim = r then o.ringLink else pushFrame o.ringLink r lim free }

theorem curBank_callGate (s : State) (q lim : Nat) :
    curBank (getSeat (callGate s q lim) q) =
      calledBank (curBank (getSeat s q)) (getSeat s q).status.ring.toNat lim s.free := by
  unfold calledBank
  unfold callGate
  dsimp only
  split
  · rw [wSet, curBank_modCur]
    rfl
  · rw [getSeat_modSeat_self]
    refine (curBank_modBank_status _ _ rfl).trans ?_
    rw [getSeat_drawFree, wSet, curBank_modCur, status_modCur]
    rfl

theorem status_callGate (s : State) (q lim : Nat) :
    (getSeat (callGate s q lim) q).status =
      if lim = (getSeat s q).status.ring.toNat then (getSeat s q).status
      else { (getSeat s q).status with ring := BitVec.ofNat 2 lim } := by
  unfold callGate
  dsimp only
  split
  · rw [wSet, getSeat_modCur, modBank_status]
  · rw [getSeat_modSeat_self]
    exact congrArg (fun t : Status => { t with ring := BitVec.ofNat 2 lim }) (congrArg Seat.status (getSeat_modCur s q _) :)

end Sys2Proof.Machine
end

section

namespace Sys2Proof.Machine

/-- What the target of a CALLG passes: the bounds of PCC, translation, and a gate region at its start of a slot (R106). -/
theorem gateEntry_some {s e : State} {q : SeatNo} {ra : Reg} {imm : BitVec 19} {a : Nat} {g : Region}
    (h : gateEntry s q ra imm = some (a, g, e)) :
    let c := callgAccess s q.val ra imm
    boundsFail c = none ∧ a = c.ea.toNat ∧ g.ringlim ≤ (statusOfSeat e q.val).ring.toNat ∧
      ∃ r rs, translateSpan q.val .fetch false 2 s c.ea.toNat 1 = .ok (r :: rs, e) ∧ gateRegion e r.pa = .ok g ∧
        g.gate = true ∧ (r.pa - g.start) % 16 = 0 := by
  intro c
  unfold gateEntry at h
  dsimp only at h
  split at h
  · cases h
  · next hb =>
    split at h
    · next r rs e' ht =>
      split at h
      · next g' hg =>
        split at h
        · next hc =>
          cases h
          simp only [Bool.and_eq_true, beq_iff_eq, decide_eq_true_eq] at hc
          exact ⟨by simpa using hb, rfl, hc.2, r, rs, ht, hg, hc.1.1, hc.1.2⟩
        · cases h
      · cases h
    · cases h

/-- An address that passes R51 is one, and the access's own. -/
theorem boundsFail_none {a : Access} (h : boundsFail a = none) : 0 ≤ a.ea ∧ a.ea < 2 ^ 36 := by
  unfold boundsFail at h
  split at h
  · cases h
  · split at h
    · cases h
    · have : (space36 : Int) = 2 ^ 36 := rfl
      omega

/-- A CALLG in a ring whose target is a gate makes the call, and goes on at the target (R106, R107). -/
theorem callg_leaves {s s1 e : State} {q : SeatNo} {ra : Reg} {imm : BitVec 19} {a : Nat} {g : Region}
    (hi : Issues s q (.callg q ra imm) s1) (hl : (getSeat s1 q.val).status.lvl = .U)
    (hr : (getSeat s1 q.val).status.ringMode = true) (hg : gateEntry s1 q ra imm = some (a, g, e)) :
    ∃ t u, exec (.callg q ra imm) s = .next t ∧ Recount e u ∧ quiet q.val t = quiet q.val (goOn q.val a (callGate u q.val g.ringlim)) := by
  obtain ⟨hb, ha, hlim, r, rs, ht, hreg, hgate, hslot⟩ := gateEntry_some hg
  obtain ⟨u, hu, hue⟩ := translateSpan_recount q.val .fetch false 2 (recount_seatCount s1 q.val 121) _ _ _ _ ht
  have hc : callgAccess (seatCount s1 q.val 121) q.val ra imm = callgAccess s1 q.val ra imm := by
    simp only [callgAccess, pccGet, wGet, getSeat_seatCount]
  have hreg' : gateRegion u r.pa = .ok g := by
    obtain ⟨c, rfl⟩ := hue
    exact hreg
  have hlim' : ¬(statusOfSeat u q.val).ring.toNat < g.ringlim := by
    rw [statusOfSeat, hue.getSeat_eq]
    exact Nat.not_lt.2 hlim
  have htr : Translated q.val s1 e := by
    have := translateSpan_translated .fetch false 2 (.refl q.val s1) (callgAccess s1 q.val ra imm).ea.toNat 1
    rw [ht] at this
    exact this
  have hcur : curBank (getSeat u q.val) = curBank (getSeat s1 q.val) := by rw [hue.getSeat_eq, htr.curBank_eq]
  have hcox : u.coxes = s1.coxes := by
    obtain ⟨c, rfl⟩ := hue
    exact htr.coxes
  have hrun : ∃ t b, exec (.callg q ra imm) s = .next t ∧ quiet q.val t = quiet q.val (retire q.val (seatLen (.callg q ra imm)) b
      { st := callGate u q.val g.ringlim, next := .jump (callgAccess s1 q.val ra imm).ea.toNat, taken := true }) := by
    refine seatRun_retires hi (by simp [statusOfSeat, hl, hr]) ?_ (fun p h => by cases h) ?_
    · dsimp only
      rw [hc, hb]
      dsimp only
      rw [hu]
      dsimp only
      simp only [List.head?_cons, Option.map_some, Option.getD_some, hreg', hgate, hslot, decide_eq_false hlim']
      rfl
    · refine (pairOver_congr ((coxes_callGate ..).trans hcox) ?_ ?_).trans hi.pairOver
      · rw [curBank_callGate, hcur]
        rfl
      · rw [curBank_callGate, hcur]
        rfl
  obtain ⟨t, b, hx, hq⟩ := hrun
  exact ⟨t, u, hx, hue, ha ▸ hq.trans (retire_jump _ _ _ _ _ rfl)⟩

/-- The translation of a CALLG's target leaves the seat's banks and STATUS. -/
theorem gateEntry_translated {s e : State} {q : SeatNo} {ra : Reg} {imm : BitVec 19} {a : Nat} {g : Region}
    (h : gateEntry s q ra imm = some (a, g, e)) : Translated q.val s e := by
  obtain ⟨-, -, -, r, rs, ht, -⟩ := gateEntry_some h
  have := translateSpan_translated .fetch false 2 (.refl q.val s) (callgAccess s q.val ra imm).ea.toNat 1
  rw [ht] at this
  exact this

/-- Settles O15: CINVOKE by its four cases, and CALLG into its own ring or an inner one. -/
theorem gateResults : Obligations.GateResults := by
  refine ⟨fun s s1 q ca cb => ?_, fun s s1 e q ra imm a g => ?_⟩
  · intro a x o hi hg
    obtain ⟨t, ht, hm, hs, hb, hne⟩ := cinvoke_leaves hi hg
    obtain ⟨c, ho⟩ := invokedBank_only x.status a (cGet s1 q.val cb.toNat) o
    obtain ⟨h14, hlow⟩ := bankC_invokedBank x.status a (cGet s1 q.val cb.toNat) o
    refine ⟨t, ht, hm, ?_⟩
    dsimp only
    rw [hb, hs]
    refine ⟨?_, h14, fun r => ?_, hlow, hne, ?_, fun hl => ⟨?_, invokedAtM _ _ _ _ hl⟩, fun hl => invoked_nulls _ _ _ _ hl,
      fun hl hx => invokedCall _ _ _ _ hl hx, fun hl h0 h1 => invokedCrossIn _ _ _ _ hl h0 h1,
      fun hl h1 h0 => invokedCrossBack _ _ _ _ hl h1 h0⟩
    · rw [ho]
    · rw [ho]
      rfl
    · rw [ho]
    · rw [invokedStatus, if_pos hl]
  · intro x o ring d hi hl hr hg
    obtain ⟨t, u, ht, hu, hq⟩ := callg_leaves hi hl hr hg
    obtain ⟨hb, ha, hlim, -⟩ := gateEntry_some hg
    have htr := gateEntry_translated hg
    have hsu : (getSeat u q.val).status = x.status := by rw [hu.getSeat_eq, htr.status]
    have hcu : curBank (getSeat u q.val) = o := by rw [hu.getSeat_eq, htr.curBank_eq]
    obtain ⟨h0, h36⟩ := boundsFail_none hb
    obtain ⟨-, hst, hbk⟩ := alike_of_quiet hq
    have hcur : curBank (getSeat t q.val) = curBank (getSeat (goOn q.val a (callGate u q.val g.ringlim)) q.val) := by
      rw [curBank, hst, hbk, ← curBank]
    rw [goOn, curBank_modCur, curBank_callGate, hsu, hcu] at hcur
    rw [goOn, status_modCur, status_callGate, hsu] at hst
    have hal : a < 2 ^ 36 := by omega
    have hle : g.ringlim ≤ ring := by
      rw [statusOfSeat, htr.status] at hlim
      exact hlim
    have hring : ring < 4 := x.status.ring.isLt
    refine ⟨t, ht, ?_, hle, ?_, ?_, fun r hr => ?_, fun r => ?_, fun he => ⟨?_, ?_⟩, fun hlt => ⟨?_, fun hd => ?_⟩⟩
    · rw [ha, Int.toNat_of_nonneg h0]
      rfl
    · rw [pcOf, pccGet, hcur]
      exact (BitVec.toNat_ofNat ..).trans (by rw [show space36 = 2 ^ 36 from rfl, Nat.mod_mod, Nat.mod_eq_of_lt hal])
    · rw [wGet, hcur]
      refine ((bankW_bankSetW o 31 31 (o.pcc.w0 + 1) :).trans (if_pos ⟨rfl, by decide⟩)).trans ?_
      rw [pcOf, pccGet, ← htr.curBank_eq, ← hu.getSeat_eq, hcu]
      exact BitVec.eq_of_toNat_eq (by simp [capCursor])
    · rw [wGet, hcur]
      exact (bankW_bankSetW o 31 r (o.pcc.w0 + 1) :).trans (if_neg fun h => hr h.1)
    · rw [cGet, hcur]
      rfl
    · rw [hst, if_pos he]
    · rw [hcur]
      exact if_pos he
    · rw [hst, if_neg (by omega)]
    · have hn : (curBank (getSeat t q.val)).ringLink = pushFrame o.ringLink ring g.ringlim u.free := by
        rw [hcur]
        exact if_neg (by omega)
      rw [hn]
      exact ⟨ringDepth_pushFrame _ _ hd hring (by omega), ringFrame_pushFrame_top _ _ hd hring (by omega),
        fun k hk => ringFrame_pushFrame_below _ _ hd hring (by omega) hk⟩

end Sys2Proof.Machine
end

section

namespace Sys2Proof.Machine

/-! The frame of a fetch (02 R56, 10 R346, R347): what its translation, and the A that it sets, change of the state. -/

/-- The state without seats, memory, counters and free choices. -/
def fetchRest (s : State) : State := { s with seats := [], counters := [], free := 0, mem := {} }

/-- From s to t the fetch of words that here names, under a map, on seat q, has set A in words of U at most, and has changed the
TLB and the walk cache as their translation does. No latent error of memory is there. -/
structure Fetched (q map : Nat) (here : Nat → Prop) (U : List Nat) (s t : State) : Prop extends Translated q s t where
  block : fetchRest t = fetchRest s
  noFlips : t.mem.flips = []
  noRot : t.mem.rot = []
  word : ∀ a, memWord t.mem a = memWord s.mem a ∨ a ∈ U ∧ memWord t.mem a = memWord s.mem a ||| 4
  tag : ∀ a, memTag t.mem a = memTag s.mem a ∨ memTag t.mem a = false ∧ ∃ b ∈ U, b / 4 = a / 4
  poison : ∀ a, poisonedAt t.mem a = poisonedAt s.mem a
  stick : ∀ k, k < 16384 → smGet 0 (getSeat t q).stick k = smGet 0 (getSeat s q).stick k ∨
    16384 * (getSeat s q).stickBase + k ∈ U ∧ (getSeat s q).stickUse = true ∧
      smGet 0 (getSeat t q).stick k = smGet 0 (getSeat s q).stick k ||| 4
  stickTag : ∀ g, g < 4096 → smGet false (getSeat t q).stickTag g = smGet false (getSeat s q).stickTag g ∨
    (getSeat s q).stickUse = true ∧ smGet false (getSeat t q).stickTag g = false ∧
      ∃ a ∈ U, a / 4 = 4096 * (getSeat s q).stickBase + g
  stale : ∀ k, k < 16384 → smGet false (getSeat t q).stale k = smGet false (getSeat s q).stale k ∨
    smGet false (getSeat t q).stale k = true ∧ (getSeat s q).codeOn = true ∧ 16384 * (getSeat s q).codeBase + k ∈ U
  tlb : ∀ e ∈ (getSeat t q).tlb, e ∈ (getSeat s q).tlb ∨ e.map / 128 = map / 128 ∧ ∃ v, here v ∧ tlbCovers e v = true
  walks : ∀ w ∈ (getSeat t q).walks, w ∈ (getSeat s q).walks ∨ w.map = map ∧ ∃ v, here v ∧ w.idx = v / 2 ^ 24

theorem or_four (w : Word) : w ||| 4 ||| 4 = w ||| 4 := by rw [BitVec.or_assoc, BitVec.or_self]

namespace Fetched

variable {q map : Nat} {here : Nat → Prop} {U V : List Nat} {s t u : State}

/-- Nothing that a fetch may change of the seat, or of memory, has changed. -/
theorem of_same (h : Translated q s t) (hb : fetchRest t = fetchRest s) (hm : t.mem = s.mem) (hf : s.mem.flips = [])
    (hr : s.mem.rot = []) (hs : (getSeat t q).stick = (getSeat s q).stick) (hg : (getSeat t q).stickTag = (getSeat s q).stickTag)
    (hc : (getSeat t q).stale = (getSeat s q).stale) (ht : (getSeat t q).tlb = (getSeat s q).tlb)
    (hw : (getSeat t q).walks = (getSeat s q).walks) : Fetched q map here U s t where
  toTranslated := h
  block := hb
  noFlips := hm ▸ hf
  noRot := hm ▸ hr
  word _ := .inl (by rw [hm])
  tag _ := .inl (by rw [hm])
  poison _ := by rw [hm]
  stick _ _ := .inl (by rw [hs])
  stickTag _ _ := .inl (by rw [hg])
  stale _ _ := .inl (by rw [hc])
  tlb _ h := .inl (ht ▸ h)
  walks _ h := .inl (hw ▸ h)

theorem refl (hf : s.mem.flips = []) (hr : s.mem.rot = []) : Fetched q map here U s s :=
  of_same (.refl q s) rfl rfl hf hr rfl rfl rfl rfl rfl

theorem mono (h : Fetched q map here U s t) (hU : U ⊆ V) : Fetched q map here V s t where
  toTranslated := h.toTranslated
  block := h.block
  noFlips := h.noFlips
  noRot := h.noRot
  word a := (h.word a).imp_right fun h => ⟨hU h.1, h.2⟩
  tag a := (h.tag a).imp_right fun ⟨h, b, hb, he⟩ => ⟨h, b, hU hb, he⟩
  poison := h.poison
  stick k hk := (h.stick k hk).imp_right fun h => ⟨hU h.1, h.2⟩
  stickTag g hg := (h.stickTag g hg).imp_right fun ⟨h, h', b, hb, he⟩ => ⟨h, h', b, hU hb, he⟩
  stale k hk := (h.stale k hk).imp_right fun h => ⟨h.1, h.2.1, hU h.2.2⟩
  tlb := h.tlb
  walks := h.walks

theorem trans (h : Fetched q map here U s t) (h' : Fetched q map here U t u) : Fetched q map here U s u := by
  have hx : ∀ {β : Type} (f : Seat → β), f (bareSeat (getSeat t q)) = f (bareSeat (getSeat s q)) := fun f => congrArg f h.seat
  have hbase : (getSeat t q).stickBase = (getSeat s q).stickBase := hx Seat.stickBase
  have huse : (getSeat t q).stickUse = (getSeat s q).stickUse := hx Seat.stickUse
  have hon : (getSeat t q).codeOn = (getSeat s q).codeOn := hx Seat.codeOn
  have hcode : (getSeat t q).codeBase = (getSeat s q).codeBase := hx Seat.codeBase
  refine ⟨h.toTranslated.trans h'.toTranslated, h'.block.trans h.block, h'.noFlips, h'.noRot, fun a => ?_, fun a => ?_,
    fun a => (h'.poison a).trans (h.poison a), fun k hk => ?_, fun g hg => ?_, fun k hk => ?_, fun e he => ?_, fun w hw => ?_⟩
  · rcases h'.word a with h2 | ⟨hu, h2⟩ <;> rcases h.word a with h1 | ⟨hu', h1⟩ <;> rw [h2, h1]
    · exact .inl rfl
    · exact .inr ⟨hu', rfl⟩
    · exact .inr ⟨hu, rfl⟩
    · exact .inr ⟨hu, or_four _⟩
  · rcases h'.tag a with h2 | h2
    · rw [h2]
      exact h.tag a
    · exact .inr h2
  · have h2 := h'.stick k hk
    rw [hbase, huse] at h2
    rcases h2 with h2 | ⟨hu, hs, h2⟩ <;> rcases h.stick k hk with h1 | ⟨hu', hs', h1⟩ <;> rw [h2, h1]
    · exact .inl rfl
    · exact .inr ⟨hu', hs', rfl⟩
    · exact .inr ⟨hu, hs, rfl⟩
    · exact .inr ⟨hu, hs, or_four _⟩
  · have h2 := h'.stickTag g hg
    rw [hbase, huse] at h2
    rcases h2 with h2 | h2
    · rw [h2]
      exact h.stickTag g hg
    · exact .inr h2
  · have h2 := h'.stale k hk
    rw [hon, hcode] at h2
    rcases h2 with h2 | h2
    · rw [h2]
      exact h.stale k hk
    · exact .inr h2
  · rcases h'.tlb e he with h2 | h2
    · exact h.tlb e h2
    · exact .inr h2
  · rcases h'.walks w hw with h2 | h2
    · exact h.walks w h2
    · exact .inr h2

end Fetched

end Sys2Proof.Machine
end

section

namespace Sys2Proof.Machine

namespace Fetched

variable {q map : Nat} {here : Nat → Prop} {U : List Nat} {s t u : State}

/-! The steps of a translation, each behind what has happened so far. -/

/-- A change of counters, free choices and UNTIMED. -/
theorem quietly (h : Fetched q map here U s t) (ht : Translated q t u) (hb : fetchRest u = fetchRest t) (hm : u.mem = t.mem)
    (hx : (getSeat u q).stick = (getSeat t q).stick ∧ (getSeat u q).stickTag = (getSeat t q).stickTag ∧
      (getSeat u q).stale = (getSeat t q).stale ∧ (getSeat u q).tlb = (getSeat t q).tlb ∧ (getSeat u q).walks = (getSeat t q).walks) :
    Fetched q map here U s u := by
  obtain ⟨h1, h2, h3, h4, h5⟩ := hx
  exact h.trans (of_same ht hb hm h.noFlips h.noRot h1 h2 h3 h4 h5)

theorem recount (h : Fetched q map here U s t) (hu : Recount t u) : Fetched q map here U s u := by
  obtain ⟨c, rfl⟩ := hu
  exact h.quietly ⟨rfl, fun _ _ => rfl, rfl⟩ rfl rfl ⟨rfl, rfl, rfl, rfl, rfl⟩

theorem seatCount (h : Fetched q map here U s t) (p i : Nat) : Fetched q map here U s (Machine.seatCount t p i) :=
  h.recount (recount_seatCount t p i)

theorem missCount (h : Fetched q map here U s t) (p : Nat) : Fetched q map here U s (Machine.missCount t p) :=
  (h.seatCount ..).seatCount ..

theorem drawFree (h : Fetched q map here U s t) : Fetched q map here U s (Machine.drawFree t).2 :=
  h.quietly ⟨rfl, fun _ _ => rfl, rfl⟩ rfl rfl ⟨rfl, rfl, rfl, rfl, rfl⟩

theorem timedNote (h : Fetched q map here U s t) (r : Nat × Bool) : Fetched q map here U s (Machine.timedNote q t r) := by
  unfold Machine.timedNote
  dsimp only
  split
  · split
    · exact h.seatCount ..
    · refine Fetched.seatCount (quietly (h.seatCount q 103) (Translated.modSeat (.refl q _) _ fun _ => ?_) ?_ ?_ ?_) _ _
      · rfl
      · rfl
      · rfl
      · rw [getSeat_modSeat_self]
        exact ⟨rfl, rfl, rfl, rfl, rfl⟩
  · exact h

theorem spaceNote (h : Fetched q map here U s t) (r : Nat × Bool) : Fetched q map here U s (Machine.spaceNote q t r) := by
  unfold Machine.spaceNote
  split
  · exact h
  · split
    · exact h.seatCount ..
    · split
      · exact h.seatCount ..
      · split
        · exact h.seatCount ..
        · exact h

theorem accessNotes (h : Fetched q map here U s t) (rs : List Run) : Fetched q map here U s (Machine.accessNotes q rs t) := by
  unfold Machine.accessNotes
  induction rs generalizing t with
  | nil => exact h
  | cons r rs ih => exact ih ((h.timedNote _).spaceNote _)

theorem meetWords (h : Fetched q map here U s t) (as : List Nat) : Fetched q map here U s (Machine.meetWords t as) := by
  rw [meetWords_sound h.noFlips h.noRot]
  exact h

theorem tableReach (h : Fetched q map here U s t) (a : Nat) : Fetched q map here U s (Machine.tableReach t (some q) a) :=
  (h.timedNote _).meetWords _

theorem walkMeets (h : Fetched q map here U s t) (m v : Nat) (cached : Option Word) :
    Fetched q map here U s (Machine.walkMeets t (some q) m v cached) := by
  have leaf : ∀ {u : State} (c : Bool) (a : Nat), Fetched q map here U s u →
      Fetched q map here U s (if c then Machine.tableReach u (some q) a else u) := by
    intro u c a hu
    split
    · exact hu.tableReach a
    · exact hu
  unfold Machine.walkMeets
  dsimp only
  split
  · exact leaf _ _ h
  · split
    · exact h
    · split
      · split
        · exact leaf _ _ (h.tableReach _)
        · exact h.tableReach _
      · exact h.tableReach _

/-- A change of the TLB and the walk cache of the seat that brings entries of the words under fetch alone. -/
theorem refill (h : Fetched q map here U s t) (f : Seat → List TlbEntry) (g : Seat → List WalkEntry)
    (hf : ∀ e ∈ f (getSeat t q), e ∈ (getSeat t q).tlb ∨ e.map / 128 = map / 128 ∧ ∃ v, here v ∧ tlbCovers e v = true)
    (hg : ∀ w ∈ g (getSeat t q), w ∈ (getSeat t q).walks ∨ w.map = map ∧ ∃ v, here v ∧ w.idx = v / 2 ^ 24) :
    Fetched q map here U s (modSeat t q fun x => { x with tlb := f x, walks := g x }) := by
  have hx : getSeat (modSeat t q fun x => { x with tlb := f x, walks := g x }) q = _ := getSeat_modSeat_self ..
  refine h.trans ⟨Translated.modSeat (.refl q t) _ fun _ => rfl, rfl, h.noFlips, h.noRot, fun _ => .inl rfl, fun _ => .inl rfl,
    fun _ => rfl, fun _ _ => .inl ?_, fun _ _ => .inl ?_, fun _ _ => .inl ?_, fun e he => hf e ?_, fun w hw => hg w ?_⟩
  · rw [hx]
  · rw [hx]
  · rw [hx]
  · rw [hx] at he
    exact he
  · rw [hx] at hw
    exact hw

end Fetched

end Sys2Proof.Machine
end

section

namespace Sys2Proof.Machine

/-! A is set in one word: in the stick, where the seat keeps it there, or in memory (06 R208, 10 R347). -/

theorem div_split (a : Nat) : 16384 * (a / 16384) + a % 16384 = a := Nat.div_add_mod ..

/-- The granule of a word of the stick is that of its place in the stick. -/
theorem stick_granule (a : Nat) : a / 4 = 4096 * (a / 16384) + a % 16384 / 4 := by omega

/-- What a write of one word of a granule that is not poisoned makes of memory, as it is read. -/
theorem storeWord_reads {s : State} {a : Nat} {w : Word} (hf : s.mem.flips = []) (hp : poisonedAt s.mem a = false) :
    let m := (storeWords s a [w] false).mem
    fetchRest (storeWords s a [w] false) = fetchRest s ∧ (storeWords s a [w] false).seats = s.seats ∧
      m.flips = [] ∧ m.rot = s.mem.rot ∧ (∀ b, memWord m b = if b = a then w else memWord s.mem b) ∧
      (∀ b, poisonedAt m b = poisonedAt s.mem b) ∧
      ∀ b, memTag m b = if b / 4 = a / 4 then false else memTag s.mem b := by
  have hword : ∀ b, smGet 0 (smSetList 0 s.mem.words a [w]) b = if b = a then w else memWord s.mem b := fun b => smGet_smSet ..
  have htag : ∀ (x : Bool) b, (smGet false (smSet false s.mem.tags (a / 4) false) (b / 4) && x) =
      if b / 4 = a / 4 then false else (smGet false s.mem.tags (b / 4) && x) := by
    intro x b
    rw [smGet_smSet]
    split <;> rfl
  by_cases hb : isBulk a = true
  · have he : storeWords s a [w] false = { s with mem := { stripeWrite s.mem (stripeOf a) with
        words := smSetList 0 s.mem.words a [w], tags := smSet false s.mem.tags (a / 4) false } } := by
      simp only [storeWords, hb, if_true, hp, Bool.false_eq_true, if_false]
      rfl
    rw [he]
    exact ⟨rfl, rfl, hf, rfl, hword, fun _ => rfl, fun b => htag _ b⟩
  · have hb' : isBulk a = false := by simpa using hb
    rw [storeWords_case hb' hp]
    have hpoison : ∀ b, (smGet false (smSet false s.mem.poison (a / 4) false) (b / 4) ||
        decide (2 ≤ smGet 0 (smSet 0 s.mem.flips (a / 4) 0) (b / 4))) =
          (smGet false s.mem.poison (b / 4) || decide (2 ≤ smGet 0 s.mem.flips (b / 4))) := by
      have hp' : smGet false s.mem.poison (a / 4) = false := by
        simp only [poisonedAt, hb', Bool.false_eq_true, if_false, Bool.or_eq_false_iff] at hp
        exact hp.1
      intro b
      rw [smGet_smSet, smGet_smSet, hf]
      split
      · next h => simp [h, hp']
      · rfl
    have hall : ∀ b, poisonedAt { s.mem with
        words := smSetList 0 s.mem.words a [w], tags := smSet false s.mem.tags (a / 4) false,
        poison := smSet false s.mem.poison (a / 4) false, flips := smSet 0 s.mem.flips (a / 4) 0 } b = poisonedAt s.mem b := by
      intro b
      unfold poisonedAt
      dsimp only
      rw [hpoison]
    refine ⟨rfl, rfl, ?_, rfl, hword, hall, fun b => ?_⟩
    · rw [hf]
      rfl
    · unfold memTag
      rw [hall]
      exact htag _ b

namespace Fetched

variable {q map : Nat} {here : Nat → Prop} {U : List Nat} {s t : State}

theorem markStale (h : Fetched q map here U s t) {a : Nat} (ha : a ∈ U) : Fetched q map here U s (Machine.markStale t q a 1) := by
  have hx : getSeat (Machine.markStale t q a 1) q = _ := getSeat_modSeat_self ..
  refine h.trans ⟨Translated.modSeat (.refl q t) _ fun _ => rfl, rfl, h.noFlips, h.noRot, fun _ => .inl rfl, fun _ => .inl rfl,
    fun _ => rfl, fun _ _ => .inl (by rw [hx]), fun _ _ => .inl (by rw [hx]), fun k _ => ?_, fun e he => .inl ?_, fun w hw => .inl ?_⟩
  · rw [hx]
    simp only [List.range_one, List.foldl_cons, List.foldl_nil, Nat.add_zero]
    split
    · next hc =>
      rw [smGet_smSet]
      split
      · next hk =>
        simp only [inCode, Bool.and_eq_true, beq_iff_eq] at hc
        exact .inr ⟨rfl, hc.1, by rwa [hk, ← hc.2, div_split]⟩
      · exact .inl rfl
    · exact .inl rfl
  · rw [hx] at he
    exact he
  · rw [hx] at hw
    exact hw

theorem stickPut (h : Fetched q map here U s t) {a : Nat} (ha : a ∈ U) (hs : inStick (getSeat t q) a = true) :
    Fetched q map here U s (Machine.stickPut t q a [smGet 0 (getSeat t q).stick (a % 16384) ||| 4] false) := by
  obtain ⟨hu, hb⟩ : (getSeat t q).stickUse = true ∧ a / 16384 = (getSeat t q).stickBase := by
    simpa only [inStick, Bool.and_eq_true, beq_iff_eq] using hs
  have hx : ∀ w, getSeat (Machine.stickPut t q a [w] false) q = _ := fun w => getSeat_modSeat_self ..
  refine h.trans ⟨Translated.modSeat (.refl q t) _ fun _ => rfl, rfl, h.noFlips, h.noRot, fun _ => .inl rfl, fun _ => .inl rfl,
    fun _ => rfl, fun k _ => ?_, fun g _ => ?_, fun k _ => .inl (by rw [hx]), fun e he => .inl ?_, fun w hw => .inl ?_⟩
  · rw [hx]
    refine (or_iff_not_imp_left.2 fun hne => ?_)
    have hg : ∀ w, smGet 0 (smSetList 0 (getSeat t q).stick (a % 16384) [w]) k =
        if k = a % 16384 then w else smGet 0 (getSeat t q).stick k := fun w => smGet_smSet ..
    dsimp only at hne ⊢
    rw [hg] at hne ⊢
    split at hne
    · next hk => exact ⟨by rwa [hk, ← hb, div_split], hu, by rw [if_pos hk, hk]⟩
    · exact absurd rfl hne
  · rw [hx]
    dsimp only
    rw [smGet_smSet]
    split
    · next hk => exact .inr ⟨hu, rfl, a, ha, by rw [hk, ← hb, ← stick_granule]⟩
    · exact .inl rfl
  · rw [hx] at he
    exact he
  · rw [hx] at hw
    exact hw

theorem putGranule (h : Fetched q map here U s t) {a : Nat} (ha : a ∈ U) (hp : poisonedAt t.mem a = false) :
    Fetched q map here U s (Machine.putGranule t a [memWord t.mem a ||| 4] false) := by
  have he : Machine.putGranule t a [memWord t.mem a ||| 4] false = storeWords t a [memWord t.mem a ||| 4] false := by
    unfold Machine.putGranule
    rw [if_neg (by simp), meetWords_sound h.noFlips h.noRot]
  have htr := (Translated.refl q t).putGranule a [memWord t.mem a ||| 4] false
  rw [he] at htr ⊢
  obtain ⟨hr, hs, hf, hrot, hw, hpo, ht⟩ := storeWord_reads (w := memWord t.mem a ||| 4) h.noFlips hp
  have hx : getSeat (storeWords t a [memWord t.mem a ||| 4] false) q = getSeat t q := by rw [getSeat, hs, ← getSeat]
  refine h.trans ⟨htr, hr, hf, hrot.trans h.noRot, fun b => ?_, fun b => ?_, hpo, fun _ _ => .inl (by rw [hx]), fun _ _ => .inl (by rw [hx]),
    fun _ _ => .inl (by rw [hx]), fun e he => .inl (by rwa [hx] at he), fun w hw => .inl (by rwa [hx] at hw)⟩
  · rw [hw]
    split
    · next hb => exact .inr ⟨hb ▸ ha, by rw [hb]⟩
    · exact .inl rfl
  · rw [ht]
    split
    · next hb => exact .inr ⟨rfl, a, ha, hb.symm⟩
    · exact .inl rfl

/-- A set in the word of an entry that the seat reads without poison. -/
theorem viewPut (h : Fetched q map here U s t) {a : Nat} (ha : a ∈ U) (hp : viewPoisoned t (some q) a = false) :
    Fetched q map here U s (Machine.viewPut t q a [viewWord t (some q) a ||| 4] false) := by
  have hm := h.markStale ha
  have hx : getSeat (Machine.markStale t q a 1) q = _ := getSeat_modSeat_self ..
  have hstick : (getSeat (Machine.markStale t q a 1) q).stick = (getSeat t q).stick := by rw [hx]
  have hin : inStick (getSeat (Machine.markStale t q a 1) q) a = inStick (getSeat t q) a := by rw [hx]; rfl
  unfold Machine.viewPut
  dsimp only [List.length_cons, List.length_nil]
  rw [hin]
  split
  · next hs =>
    have hv : viewWord t (some q) a = smGet 0 (getSeat (Machine.markStale t q a 1) q).stick (a % 16384) := by
      rw [hstick]
      simp [viewWord, hs, Option.filter]
    rw [hv]
    exact hm.stickPut ha (hin.trans hs)
  · next hs =>
    have hv : viewWord t (some q) a = memWord (Machine.markStale t q a 1).mem a := by
      simp [viewWord, hs, Option.filter]
    rw [hv]
    refine hm.putGranule ha ?_
    simpa [viewPoisoned, viewIn, hs] using hp

end Fetched

end Sys2Proof.Machine
end

section

namespace Sys2Proof.Machine

/-! The fetch's translation: every run is of a word under fetch, by an entry that covers it; A is set in the entries of the runs. -/

theorem tlbHolds_subset (i : Nat) (seen : List Nat) (es : List TlbEntry) : tlbHolds i seen es ⊆ es := by
  induction es generalizing i seen with
  | nil => exact List.Subset.refl _
  | cons e es ih =>
    unfold tlbHolds
    split
    · exact List.cons_subset_cons e (ih ..)
    · exact List.subset_cons_of_subset e (ih ..)

/-- An entry serves word v under a map, or under another map of its side (10 R348). -/
def Serves (map v : Nat) (e : TlbEntry) : Prop := e.map / 128 = map / 128 ∧ tlbCovers e v = true

theorem serves_of_tlbMap {e : TlbEntry} {map v : Nat} (h : tlbMap e map = true) (hv : tlbCovers e v = true) : Serves map v e := by
  refine ⟨?_, hv⟩
  simp only [tlbMap, Bool.or_eq_true, Bool.and_eq_true, beq_iff_eq] at h
  rcases h with h | ⟨-, h⟩
  · rw [h]
  · exact h

/-- The entry that a walk of v installs covers v (R347, R348). -/
theorem serves_tlbNew (x : Seat) (map v : Nat) (w : Walked) : Serves map v (tlbNew x map v w) := by
  refine ⟨rfl, ?_⟩
  unfold tlbCovers
  split
  · exact beq_iff_eq.2 (by simp only [tlbNew, pageOf]; omega)
  · split
    · exact beq_iff_eq.2 (by simp only [tlbNew, pageOf]; omega)
    · exact beq_iff_eq.2 rfl

section
variable {q map : Nat} {here : Nat → Prop} {U : List Nat} {s t : State}

/-- A lookup of a word under fetch answers an entry that serves it, and what it installs covers it. -/
theorem tlbLookup_fetched (h : Fetched q map here U s t) {v : Nat} (hv : here v) (fresh : Bool) {e : TlbEntry} {u : State}
    (hl : tlbLookup t q map v fresh = .ok (e, u)) : Fetched q map here U s u ∧ Serves map v e := by
  unfold tlbLookup at hl
  dsimp only at hl
  split at hl
  · next e' hh _ =>
    cases hl
    have hf : ((getSeat t q).tlb.find? fun e => tlbMap e map && tlbCovers e v) = some e := by
      split at hh
      · cases hh
      · exact hh
    have hp := List.find?_some hf
    simp only [Bool.and_eq_true] at hp
    refine ⟨?_, serves_of_tlbMap hp.1 hp.2⟩
    split
    · exact h.drawFree
    · exact h.drawFree.seatCount ..
  · have hw := fun c => h.drawFree.walkMeets map v c
    split at hl
    · cases hl
    · cases hl
      refine ⟨((Fetched.refill (hw _) _ _ ?_ ?_).missCount q).seatCount .., serves_tlbNew ..⟩
      · intro e he
        rcases List.mem_cons.1 (tlbHolds_subset _ _ _ he) with rfl | he
        · exact .inr ⟨(serves_tlbNew ..).1, v, hv, (serves_tlbNew ..).2⟩
        · exact .inl (List.mem_of_mem_filter he)
      · intro w hw
        split at hw
        · rcases List.mem_cons.1 (List.mem_of_mem_take hw) with rfl | hw
          · exact .inr ⟨rfl, v, hv, rfl⟩
          · exact .inl (List.mem_of_mem_filter hw)
        · exact .inl hw

/-- A run of the fetch: of a word under fetch, by an entry that serves it. -/
def RunServed (map : Nat) (here : Nat → Prop) (r : Run) : Prop := here r.v ∧ ∀ e, r.e = some e → Serves map r.v e

theorem translateSpan_fetched (kind : XKind) (fresh : Bool) (fuel : Nat) {t : State} (h : Fetched q map here U s t) {v n : Nat}
    (hm : ∀ u, Translated q s u →
      (if (getSeat u q).status.side then 128 else 0) + ctxMap (curBank (getSeat u q)) = map)
    (hv : ∀ w, v ≤ w → w < v + n → here w) {rs : List Run} {u : State} (ht : translateSpan q kind fresh fuel t v n = .ok (rs, u)) :
    Fetched q map here U s u ∧ ∀ r ∈ rs, RunServed map here r := by
  induction fuel generalizing t v n rs with
  | zero =>
    cases ht
    exact ⟨h, fun r hr => absurd hr (List.not_mem_nil)⟩
  | succ k ih =>
    unfold translateSpan at ht
    split at ht
    · cases ht
      exact ⟨h, fun r hr => absurd hr (List.not_mem_nil)⟩
    · next hn =>
      have hhere : here v := hv v (Nat.le_refl v) (by omega)
      dsimp only at ht
      split at ht
      · cases ht
        refine ⟨h, fun r hr => ?_⟩
        rw [List.mem_singleton.1 hr]
        exact ⟨hhere, fun e he => by cases he⟩
      · rw [hm t h.toTranslated] at ht
        split at ht
        · cases ht
        · next e w hl =>
          obtain ⟨hw, hs⟩ := tlbLookup_fetched h hhere fresh hl
          split at ht
          · cases ht
          · split at ht
            · cases ht
            · next rs' u' hr =>
              cases ht
              obtain ⟨hu, hrs⟩ := ih hw (fun x h1 h2 => hv x (by omega) (by omega)) hr
              refine ⟨hu, fun r hr => ?_⟩
              rcases List.mem_cons.1 hr with rfl | hr
              · refine ⟨hhere, fun e' he => ?_⟩
                cases he
                exact hs
              · exact hrs r hr

/-- The entry as the TLB holds it now stands where the entry stood. -/
theorem tlbNow_place (s : State) (q : Nat) (e : TlbEntry) : let n := tlbNow s q e
    n.map = e.map ∧ n.ea = e.ea ∧ n.vpage = e.vpage ∧ n.lvl = e.lvl ∧ n.slot = e.slot := by
  unfold tlbNow
  cases hf : (getSeat s q).tlb.find? fun y => y.map == e.map && y.ea == e.ea && y.vpage == e.vpage && y.lvl == e.lvl && y.slot == e.slot with
  | none => exact ⟨rfl, rfl, rfl, rfl, rfl⟩
  | some n => simpa [and_assoc] using List.find?_some hf

theorem serves_of_place {e n : TlbEntry} {map v : Nat} (h : Serves map v e) (hm : n.map = e.map) (hp : n.vpage = e.vpage)
    (hl : n.lvl = e.lvl) (hs : n.slot = e.slot) : Serves map v n := by
  obtain ⟨h1, h2⟩ := h
  refine ⟨by rw [hm, h1], ?_⟩
  unfold tlbCovers at h2 ⊢
  rwa [hl, hs, hp]

theorem pteOf_of_place {e n : TlbEntry} (v : Nat) (he : n.ea = e.ea) (hp : n.vpage = e.vpage) (hl : n.lvl = e.lvl) :
    pteOf n v = pteOf e v := by
  unfold pteOf
  rw [he, hp, hl]

/-- A is set in the entry's word, and in the TLB's copy. -/
theorem touchEntry_fetched (h : Fetched q map here U s t) {e : TlbEntry} {v : Nat} (hv : here v) (he : Serves map v e)
    (hU : pteOf e v ∈ U) : Both (Fetched q map here U s) id id (touchEntry t q e v false) := by
  unfold touchEntry
  dsimp only
  split
  · exact h
  · have hr : Fetched q map here U s (if tableOpen t e.map (pteOf e v) 0 then tableReach t (some q) (pteOf e v) else t) := by
      split
      · exact h.tableReach _
      · exact h
    generalize (if tableOpen t e.map (pteOf e v) 0 then tableReach t (some q) (pteOf e v) else t) = u at hr ⊢
    split
    · refine Fetched.seatCount (Fetched.refill hr (fun x => x.tlb.filter fun y => !(y == e)) Seat.walks ?_ fun w hw => .inl hw) _ _
      exact fun y hy => .inl (List.mem_of_mem_filter hy)
    · next hc =>
      split
      · exact hr
      · have hp : viewPoisoned u (some q) (pteOf e v) = false := by
          simp only [Bool.or_eq_true, not_or, Bool.not_eq_true] at hc
          exact hc.1.1.2
        have hw : viewWord u (some q) (pteOf e v) ||| flag 2 true ||| flag 1 (false && e.lvl == 2) =
            viewWord u (some q) (pteOf e v) ||| 4 := by
          rw [Bool.false_and, show flag 1 false = 0#36 from rfl, show flag 2 true = 4 from rfl, BitVec.or_zero]
        rw [hw]
        have hput : Fetched q map here U s (if viewWord u (some q) (pteOf e v) ||| 4 = viewWord u (some q) (pteOf e v) then u
            else viewPut u q (pteOf e v) [viewWord u (some q) (pteOf e v) ||| 4] false) := by
          split
          · exact hr
          · exact hr.viewPut hU hp
        refine Fetched.seatCount (Fetched.refill hput (fun x => x.tlb.map fun y => if y = e then _ else y) Seat.walks ?_
          fun w hw => .inl hw) _ _
        intro y hy
        obtain ⟨z, hz, rfl⟩ := List.mem_map.1 hy
        by_cases hze : z = e
        · rw [if_pos hze]
          exact .inr ⟨he.1, v, hv, he.2⟩
        · rw [if_neg hze]
          exact .inl hz

/-- The words that a fetch's runs may set A in. -/
def runWords (rs : List Run) : List Nat := rs.filterMap fun r => r.e.map fun e => pteOf e r.v

theorem touchAll_fetched (rs : List Run) {t : State} (h : Fetched q map here U s t) (hr : ∀ r ∈ rs, RunServed map here r)
    (hU : runWords rs ⊆ U) : Both (Fetched q map here U s) id id (touchAll q (fetchTouches rs) t) := by
  induction rs generalizing t with
  | nil => exact h
  | cons r rs ih =>
    have hrs : ∀ r ∈ rs, RunServed map here r := fun r h => hr r (List.mem_cons_of_mem _ h)
    obtain ⟨hv, hs⟩ := hr r List.mem_cons_self
    change Both (Fetched q map here U s) id id (touchAll q ((r, false) :: fetchTouches rs) t)
    unfold touchAll
    cases he : r.e with
    | none =>
      refine ih h hrs fun a ha => hU ?_
      simpa [runWords, he] using ha
    | some e =>
      have hUs : pteOf e r.v ∈ U ∧ runWords rs ⊆ U := by simpa [runWords, he] using hU
      obtain ⟨h1, h2, h3, h4, h5⟩ := tlbNow_place t q e
      have ht := touchEntry_fetched h hv (serves_of_place (hs e he) h1 h3 h4 h5) ((pteOf_of_place r.v h2 h3 h4).symm ▸ hUs.1)
      dsimp only
      split <;> rename_i hh <;> rw [hh] at ht
      · exact ht
      · exact ih ht hrs hUs.2

end

end Sys2Proof.Machine
end

section

namespace Sys2Proof.Machine

/-! What a fetch may set A in: the words of the entries of its runs, and, made afresh, those of the runs that follow. -/

section
variable {q : Nat} {a : Access} {fresh : Bool} {s u v : State} {rs : List Run} (hw : a.write = false)
  (ht : transAll q fresh [a] s = .ok ([rs], u))
include hw ht

theorem entriesUsed_ok (fuel : Nat) (h : touchAll q (fetchTouches rs) u = .ok v) : entriesUsed q a fuel fresh s = runWords rs := by
  conv_lhs => unfold entriesUsed
  rw [fetchTouches] at h
  simp only [ht, List.flatten_singleton, hw, h]
  rfl

theorem entriesUsed_last (h : touchAll q (fetchTouches rs) u = .error v) : entriesUsed q a 0 fresh s = runWords rs := by
  conv_lhs => unfold entriesUsed
  rw [fetchTouches] at h
  simp only [ht, List.flatten_singleton, hw, h]
  rfl

theorem entriesUsed_again (k : Nat) (h : touchAll q (fetchTouches rs) u = .error v) :
    entriesUsed q a (k + 1) fresh s = runWords rs ++ entriesUsed q a k true v := by
  conv_lhs => unfold entriesUsed
  rw [fetchTouches] at h
  simp only [ht, List.flatten_singleton, hw, h]
  rfl

end

theorem accessMeets_sound {q : Nat} {s : State} (hf : s.mem.flips = []) (hr : s.mem.rot = []) (p : Access × List Run) :
    accessMeets q s p = s := by
  unfold accessMeets
  dsimp only
  split
  · rfl
  · exact meetWords_sound hf hr _

/-- The translation of one access is that of its span. -/
theorem transAll_one {q : Nat} {a : Access} {fresh : Bool} {s u : State} {rs : List Run} (h : transAll q fresh [a] s = .ok ([rs], u)) :
    translateSpan q (accKind a) fresh (a.n / 4096 + 2) s a.ea.toNat a.n = .ok (rs, u) := by
  simp only [transAll] at h
  split at h
  · cases h
  · next ht =>
    cases h
    exact ht

section
variable {q map : Nat} {here : Nat → Prop} {a : Access} {p : Passed}

/-- A fetch that passes sets A in the entries that its translation uses, and changes nothing else but what translation may. -/
theorem accessFrom_fetched (hf : a.fetch = true) (hw : a.write = false)
    (hv : ∀ w, a.ea.toNat ≤ w → w < a.ea.toNat + a.n → here w) (fuel : Nat) {fresh : Bool} {t : State}
    (hm : ∀ u, Translated q t u → (if (getSeat u q).status.side then 128 else 0) + ctxMap (curBank (getSeat u q)) = map)
    (hfl : t.mem.flips = []) (hro : t.mem.rot = []) (h : accessFrom q [a] fuel fresh t = .ok p) :
    Fetched q map here (entriesUsed q a fuel fresh t) t p.st := by
  induction fuel using Nat.strong_induction_on generalizing fresh t with
  | _ fuel ih =>
    obtain ⟨rs, u, hr, h⟩ := accessFrom_fetch hf hw h
    have htr : ∀ U, Fetched q map here U t u ∧ ∀ r ∈ rs, RunServed map here r := fun U =>
      translateSpan_fetched _ _ _ (.refl hfl hro) hm hv (transAll_one hr)
    rw [accessMeets_sound (htr []).1.noFlips (htr []).1.noRot] at h
    have hc := fun U hU => touchAll_fetched (U := U) rs (htr U).1 (htr U).2 hU
    rcases h with ⟨v, hv' | ⟨rfl, hv'⟩, hp⟩ | ⟨k, v, rfl, hv', hp⟩
    · have h1 := hc _ (List.Subset.refl _)
      rw [hv'] at h1
      rw [entriesUsed_ok hw hr fuel hv', hp]
      exact Fetched.accessNotes h1 rs
    · have h1 := hc _ (List.Subset.refl _)
      rw [hv'] at h1
      rw [entriesUsed_last hw hr hv', hp]
      exact Fetched.accessNotes h1 rs
    · have h1 : Fetched q map here (runWords rs) t v := by
        have := hc _ (List.Subset.refl _)
        rw [hv'] at this
        exact this
      rw [entriesUsed_again hw hr k hv']
      have h2 := ih k (by omega) (fun x hx => hm x (h1.toTranslated.trans hx)) h1.noFlips h1.noRot hp
      exact (h1.mono (List.subset_append_left ..)).trans (h2.mono (List.subset_append_right ..))

/-! At M a fetch translates nothing (03 R84). -/

theorem translateSpan_atM {q : Nat} {kind : XKind} {fresh : Bool} {fuel : Nat} {s u : State} {v n : Nat} {rs : List Run}
    (hl : (getSeat s q).status.lvl = .M) (h : translateSpan q kind fresh fuel s v n = .ok (rs, u)) :
    u = s ∧ ∀ r ∈ rs, r.e = none := by
  cases fuel with
  | zero =>
    cases h
    exact ⟨rfl, fun r hr => absurd hr List.not_mem_nil⟩
  | succ k =>
    unfold translateSpan at h
    split at h
    · cases h
      exact ⟨rfl, fun r hr => absurd hr List.not_mem_nil⟩
    · rw [if_pos hl] at h
      cases h
      refine ⟨rfl, fun r hr => ?_⟩
      rw [List.mem_singleton.1 hr]

theorem touchAll_untranslated (rs : List Run) (s : State) (h : ∀ r ∈ rs, r.e = none) :
    touchAll q (fetchTouches rs) s = .ok s ∧ runWords rs = [] := by
  induction rs with
  | nil => exact ⟨rfl, rfl⟩
  | cons r rs ih =>
    have hr := h r List.mem_cons_self
    obtain ⟨h1, h2⟩ := ih fun r hr => h r (List.mem_cons_of_mem _ hr)
    refine ⟨?_, ?_⟩
    · change touchAll q ((r, false) :: fetchTouches rs) s = .ok s
      unfold touchAll
      rw [hr]
      exact h1
    · rw [runWords, List.filterMap_cons, hr]
      exact h2

/-- Notes of accesses leave memory, TLB and walk cache. -/
theorem accessNotes_leaves (rs : List Run) (s : State) :
    (accessNotes q rs s).mem = s.mem ∧ (getSeat (accessNotes q rs s) q).tlb = (getSeat s q).tlb ∧
      (getSeat (accessNotes q rs s) q).walks = (getSeat s q).walks := by
  have seat : ∀ (s : State) r, ∃ b, getSeat (spaceNote q (timedNote q s r) r) q = { getSeat s q with untimed := b } := by
    intro s r
    have hs : ∀ s, getSeat (spaceNote q s r) q = getSeat s q := by
      intro s
      unfold spaceNote
      split_ifs <;> simp
    rw [hs]
    unfold timedNote
    dsimp only
    split_ifs
    · exact ⟨(getSeat s q).untimed, getSeat_seatCount ..⟩
    · exact ⟨true, by rw [getSeat_seatCount, getSeat_modSeat_self, getSeat_seatCount]⟩
    · exact ⟨(getSeat s q).untimed, rfl⟩
  unfold accessNotes
  refine ⟨foldl_mem _ (notes_mem q) _ _, ?_⟩
  induction rs generalizing s with
  | nil => exact ⟨rfl, rfl⟩
  | cons r rs ih =>
    obtain ⟨b, hb⟩ := seat s (r.pa, true)
    obtain ⟨h1, h2⟩ := ih (spaceNote q (timedNote q s (r.pa, true)) (r.pa, true))
    rw [hb] at h1 h2
    exact ⟨h1, h2⟩

theorem accessFrom_atM (hf : a.fetch = true) (hw : a.write = false) {fuel : Nat} {fresh : Bool} {s : State}
    (hl : (getSeat s q).status.lvl = .M) (hfl : s.mem.flips = []) (hro : s.mem.rot = [])
    (h : accessFrom q [a] fuel fresh s = .ok p) :
    entriesUsed q a fuel fresh s = [] ∧ p.st.mem = s.mem ∧ (getSeat p.st q).tlb = (getSeat s q).tlb ∧
      (getSeat p.st q).walks = (getSeat s q).walks := by
  obtain ⟨rs, u, hr, hc⟩ := accessFrom_fetch hf hw h
  obtain ⟨rfl, he⟩ := translateSpan_atM hl (transAll_one hr)
  obtain ⟨ht, hu⟩ := touchAll_untranslated (q := q) rs u he
  rw [accessMeets_sound hfl hro, ht] at hc
  rw [entriesUsed_ok hw hr fuel ht]
  rcases hc with ⟨v, hv | ⟨-, hv⟩, hp⟩ | ⟨k, v, -, hv, -⟩
  · cases hv
    exact ⟨hu, hp ▸ accessNotes_leaves rs u⟩
  · cases hv
  · cases hv

end

end Sys2Proof.Machine
end

section

namespace Sys2Proof.Machine

/-- A decoded instruction moves the sampling count and takes the tag (15 R448). -/
theorem decoded_only (x : Seat) : ∃ c t, decoded x = { x with sampCount := c, sampTag := t } := by
  unfold decoded sampleDecode
  split
  · split
    · exact ⟨x.sampCount, false, rfl⟩
    · exact ⟨_, false, rfl⟩
  · exact ⟨x.sampCount, x.sampTag, rfl⟩

theorem seatLen_le (i : Instr) : seatLen i ≤ 2 := by
  unfold seatLen
  split <;> omega

/-- The fetch of an instruction that issues, by the state before its decoding. -/
theorem Issues.fetch {s s1 : State} {q : SeatNo} {i : Instr} (h : Issues s q i s1) :
    ∃ p, accessFrom q.val [fetchAccess s q.val (seatLen i)] 8 false s = .ok p ∧ s1 = modSeat p.st q.val decoded := by
  obtain ⟨-, -, -, p, ha, hs⟩ := h
  unfold accessAll at ha
  split at ha
  · cases ha
  · exact ⟨p, ha, hs⟩

/-- Settles O9: the fetch's translation and the A that it sets, step by step; then its decoding. -/
theorem fetchChangesNoRegister : Obligations.FetchChangesNoRegister := by
  intro s s1 q i hi hfl hro x y used map here
  have htr := hi.translated
  obtain ⟨p, hp, rfl⟩ := hi.fetch
  have hm : ∀ u, Translated q.val s u →
      (if (getSeat u q.val).status.side then 128 else 0) + ctxMap (curBank (getSeat u q.val)) = map := fun u hu => by
    rw [hu.status, hu.curBank_eq]
  have hv : ∀ w, (fetchAccess s q.val (seatLen i)).ea.toNat ≤ w →
      w < (fetchAccess s q.val (seatLen i)).ea.toNat + (fetchAccess s q.val (seatLen i)).n → here w := by
    intro w h1 h2
    have := seatLen_le i
    simp only [fetchAccess, Int.toNat_natCast] at h1 h2
    exact (by omega : w = pcOf s q.val ∨ w = pcOf s q.val + 1)
  have hf : Fetched q.val map here used s p.st := accessFrom_fetched rfl rfl hv 8 hm hfl hro hp
  obtain ⟨c, t, hd⟩ := decoded_only (getSeat p.st q.val)
  have hy : y = { getSeat p.st q.val with sampCount := c, sampTag := t } := (getSeat_modSeat_self ..).trans hd
  have hbanks : ∀ r, (getSeat (modSeat p.st q.val decoded) r).status = (getSeat s r).status ∧
      curBank (getSeat (modSeat p.st q.val decoded) r) = curBank (getSeat s r) := by
    intro r
    by_cases hr : r = q.val
    · rw [hr]
      exact ⟨htr.status, htr.curBank_eq⟩
    · rw [htr.others r hr]
      exact ⟨rfl, rfl⟩
  refine ⟨fun r k => ⟨?_, ?_⟩, fun r => ⟨?_, (hbanks r).1⟩, htr.seat, htr.others, hf.block, fun a ha => ?_, fun a _ => ?_,
    fun a ha => ?_, fun a ha => ?_, hf.poison, ?_, ?_, ?_, ?_, ?_, fun hl => ?_⟩
  · rw [wGet, (hbanks r).2, ← wGet]
  · rw [cGet, (hbanks r).2, ← cGet]
  · rw [pccGet, (hbanks r).2, ← pccGet]
  · exact (hf.word a).resolve_right fun h => ha h.1
  · exact (hf.word a).imp_right And.right
  · exact (hf.tag a).resolve_right fun ⟨_, b, hb, he⟩ => ha b hb he
  · rcases hf.tag a with h | ⟨h, -⟩
    · exact h ▸ ha
    · exact absurd (ha.symm.trans h) (by decide)
  · rw [hy]
    exact hf.stick
  · rw [hy]
    exact hf.stickTag
  · rw [hy]
    exact hf.stale
  · rw [hy]
    exact hf.tlb
  · rw [hy]
    exact hf.walks
  · obtain ⟨hu, hmem, ht, hw⟩ := accessFrom_atM rfl rfl hl hfl hro hp
    rw [hy]
    exact ⟨hu, hmem, ht, hw⟩

end Sys2Proof.Machine
end

section

namespace Sys2Proof.Machine

/-! A read of a run of words takes them all from where its first word lies, while each granule's tag comes from where that granule
lies (06 R208). At M a run may begin in the flash window and enter the stick: an LPUT then carries the words of the flash under
the tags of the stick (02 R37), and its lane's ring holds a tagged granule that no derivation has made. -/

/-- C0.0 after reset, its stick in use in the second window of the flash, with the null capability, tagged, in its first granule.
For an LPUT w1 names lane 0 and 8 words, c1 the granule before the stick. -/
def straddleSeat : Seat :=
  { setBank rootSeat 8 { rootBank with
      w := [(1, 0o2000000)], c := [(1, capSetCursor (rootCap 0o777777777777 0b111111001100 false) 0o220037774)] } with
    stickOn := true, stickUse := true, stickBase := 0o4401, stickTag := [(0, true)] }

/-- Lane 0, internal, of a class with CAPS, open with a credit of 4, its ring in case; the fence admits the lane unit there; and
that LPUT comes next. -/
def straddle : State :=
  { State.reset with
    seats := [(0, straddleSeat)],
    fence := { d := [(1, 4095), (2, 6), (3, flag 10 true)] },
    lanes := { cls := [(0, field 32 2), (1, 0o2000), (2, field 12 2), (3, field 6 1), (5, 1)], opened := [(0, true)] },
    mem := { words := [(5, 4), (6, field 33 1)] },
    pending := [.lput 0 2 1 1] }

/-- The stick's words are zero, so each of its granules is null but for its tag. -/
theorem stickGranule_straddle (g : Nat) : CapSound (stickGranule straddleSeat g) := by
  have zero : ∀ b : Bool, CapSound { tag := b } := by
    unfold CapSound
    decide
  exact zero (smGet false straddleSeat.stickTag g)

theorem straddleSeat_sound : SeatSound straddleSeat := by
  refine ⟨?_, setSound_empty, setSound_empty, setSound_empty, stickGranule_straddle⟩
  unfold BankSound CapSound
  decide

theorem straddle_sound : CapsSound straddle :=
  ⟨by simpa [straddle] using straddleSeat_sound, nofun, storedGranule_untagged rfl, nofun, nofun⟩

/-- Erased flash reads as ones: the second granule of the message arrives in the ring tagged, with its reserved bits set. -/
theorem step_straddle :
    (match step straddle with
      | .next t => (storedGranule t.mem 0o401).tag && bits (storedGranule t.mem 0o401).w3 3 0 != 0
      | _ => false) = true := by decide +kernel

/-- Refutes O59: an LPUT at M whose source begins in the flash and enters the stick puts a tagged granule of all ones in the ring. -/
theorem not_stepKeepsCapabilitiesSound : ¬ Obligations.StepKeepsCapabilitiesSound := by
  intro h
  have ht := step_straddle
  split at ht
  · next t he =>
    simp only [Bool.and_eq_true, bne_iff_ne] at ht
    obtain ⟨-, -, hg, -⟩ := h straddle t straddle_sound he
    obtain ⟨-, -, -, hz⟩ := hg 0o401 ht.1
    exact ht.2 hz
  · cases ht

end Sys2Proof.Machine
end

section

namespace Sys2Proof.Machine

/-! A stow that fails gives its bank back BLOCKED and then, where a closure has reached the awaited lane, READY, however the bank
stands by then (05 R175, 08 R262). Where that bank is in use, and the failure has withdrawn the pair that runs in it, the seat is
idle in between, and takes the bank up again under the STATUS that the bank last left with, not the one it ran under (04 R120). -/

/-- Bank 3 in use on stroke side, while it is being stowed for a post of its pair; it was last left on bow side. -/
def stowedInUse : Seat :=
  { status := { lvl := .U, bank := 3 }, idle := false,
    banks := [(3, { st := .stowing, role := .seatA, abortTake := true, status := { lvl := .U, side := true, bank := 3 } })],
    stow := [{ bank := 3, stowing := true, lane := 0, stowed := false, since := 0, role := .seatA }] }

/-- C0.0 so, seat A of the pair in its leaf cox's first buffer. The fence admits no access, so the stow fails; the M hold keeps
the STOW trap pending. -/
def failingStow : State :=
  { State.reset with
    seats := [(0, stowedInUse)],
    coxes := [(3, { pairs := [(0, { used := true, seatB := 1, ref := 2 })] })],
    boot := { mhold := true } }

theorem stowComplete_failingStow :
    (match exec (.stowComplete 0) failingStow with
      | .next t => let y := getSeat t 0
        y.idle == false && y.status.lvl == .U && y.status.side == true && y.status.bank == 3
      | _ => false) = true := by decide +kernel

/-- A STOW_COMPLETE may not move a seat's level or side where the seat stays at U in its bank. -/
theorem not_levelEvent_stowComplete {p q : SeatNo} {x y : Seat} (hl : y.status.lvl = .U) (hb : y.status.bank = x.status.bank) :
    ¬ LevelEvent (.stowComplete p) q x y := by
  rintro (⟨ca, cb, h⟩ | h | h | ⟨h, -⟩ | ⟨h, -⟩ | ⟨-, h, -⟩ | h | h | ⟨node, en0, en1, h⟩)
  case inr.inr.inr.inr.inr.inl => exact h hb
  all_goals simp [hl] at h

/-- Refutes O60: the bank in use is being stowed, for a post of its own pair; the stow fails, and the seat runs the bank again on
the other side. -/
theorem not_levelAndSideMoveAtEvents : ¬ Obligations.LevelAndSideMoveAtEvents := by
  intro h
  have ht := stowComplete_failingStow
  split at ht
  · next t he =>
    simp only [Bool.and_eq_true, beq_iff_eq] at ht
    obtain ⟨⟨⟨hidle, hlvl⟩, hside⟩, hbank⟩ := ht
    have moved : (getSeat t 0).status.side ≠ (getSeat failingStow 0).status.side := by rw [hside]; decide
    exact not_levelEvent_stowComplete hlvl hbank (h (.stowComplete 0) failingStow t 0 he rfl hidle (.inr moved))
  · cases ht

end Sys2Proof.Machine
end

section

namespace Sys2Proof.Machine

/-! The seats after a change of one, with what follows from any change: its timer, its prediction state, its cox's IDLE. -/

@[simp] theorem getSeat_coxWake (s : State) (x p : Nat) : getSeat (coxWake s x) p = getSeat s p := by
  unfold coxWake
  split
  · exact congrArg (smGet seatDefault · p) (modCox_seats ..)
  · rfl

@[simp] theorem getSeat_postRise (x : Seat) (s : State) (q p : Nat) : getSeat (postRise x s q) p = getSeat s p := by
  unfold postRise
  split
  · exact getSeat_coxWake ..
  · rfl

theorem getSeat_modSeatR (s : State) (q p : Nat) (f : Seat → Seat) :
    getSeat (modSeatR s q f) p = if p = q then residUpdate s.time (f (getSeat s q)) else getSeat s p := by
  simp [modSeatR, getSeat_modSeat]

/-- The residence timer's update changes the timer alone (07 R226). -/
theorem residUpdate_only (now : Nat) (x : Seat) :
    ∃ run since fired, residUpdate now x = { x with residRun := run, residFrom := since, residFired := fired } := by
  unfold residUpdate
  dsimp only
  split <;> split <;> exact ⟨_, _, _, rfl⟩

@[simp] theorem dropWide_banks (x : Seat) (b : Nat) : (dropWide x b).banks = x.banks := by
  unfold dropWide
  split <;> rfl

@[simp] theorem dropWide_force (x : Seat) (b : Nat) : (dropWide x b).force = x.force := by
  unfold dropWide
  split <;> rfl

/-! The bank that an activation entry enters, and its registers (03 R89). -/

theorem entryBank_lt {s : State} {q b : Nat} (h : entryBank s q = some b) : b < 8 := by
  unfold entryBank at h
  dsimp only at h
  split at h
  · have hb : b ∈ [7, 6, 5, 4, 3, 2, 1, 0] := List.mem_of_find?_eq_some (Option.filter_eq_some_iff.1 h).1
    simp only [List.mem_cons, List.not_mem_nil, or_false] at hb
    omega
  · cases h

section
variable (v : Bank) (l map : Nat) (ga gb : Cap)

theorem bankW_enteredBank (r : Nat) :
    bankW (enteredBank v l map ga gb) r = if r = 1 then BitVec.ofNat 36 l else 0 := by
  by_cases h : r = 0
  · simp [h, bankW]
  · simp [h, bankW, enteredBank, smGet_smSet, field]

theorem bankC_enteredBank (r : Nat) :
    bankC (enteredBank v l map ga gb) r = if r = 14 then capSetSeal gb 0 else capNull := by
  by_cases h : r = 0
  · simp [h, bankC]
  · simp [h, bankC, enteredBank, smGet_smSet, capNull]

/-- No crossing is open: bit 8 of XCTX is clear (03 R95). -/
theorem bit_xctx_enteredBank : bit (enteredBank v l map ga gb).xctx 8 = false := by
  simp [enteredBank, bit_eq_getLsbD, getLsbD_flag]

/-- No ring call is open: DEPTH is 0 (03 R107). -/
theorem ringDepth_enteredBank : ringDepth (enteredBank v l map ga gb).ringLink = 0 := by
  refine bits_eq_of_testBit (by decide) fun i hi => ?_
  have h3 : Nat.testBit 3 i = true := by
    obtain rfl | rfl : i = 0 ∨ i = 1 := by omega
    all_goals rfl
  simp [enteredBank, getLsbD_field, h3]

end

/-- The seat after an entry: the bank entered is in use under the STATUS of R89, and FORCE is as it was. -/
theorem getSeat_enterBank (u : State) (q b l k : Nat) (ga gb : Cap) :
    let c := classesFor u (getBank (getSeat u q) b).old
    let y := getSeat (enterBank u q b l k ga gb) q
    getBank y b = enteredBank (getBank (getSeat u q) b) l (clMap c k) ga gb ∧ y.idle = false ∧ y.force = (getSeat u q).force ∧
      y.status = { ring := if clRing c k then BitVec.ofNat 2 (capRing ga) else 0, ringMode := clRing c k, wideOn := false,
                   det := clDet c k, bank := b, side := capSide ga, lvl := .U } := by
  simp only [enterBank, getSeat_seatCount, getSeat_modSeatR, if_true]
  obtain ⟨run, since, fired, h⟩ := residUpdate_only u.time _
  rw [h]
  exact ⟨by simp [getBank, modBank, setBank], rfl, dropWide_force .., rfl⟩

theorem getSeat_enterBank_ne (u : State) {q p : Nat} (b l k : Nat) (ga gb : Cap) (h : p ≠ q) :
    getSeat (enterBank u q b l k ga gb) p = getSeat u p := by
  simp [enterBank, getSeat_modSeatR, h]

@[simp] theorem enterBank_mem (u : State) (q b l k : Nat) (ga gb : Cap) : (enterBank u q b l k ga gb).mem = u.mem := by
  simp [enterBank]

/-- FORCE is over every activation (06 R206). -/
theorem detOn_activation {x : Seat} (h : x.status.bank < 8) : detOn x = (x.force || x.status.det) := by
  simp [detOn, inActivation, h, Bool.or_comm]

/-- An activation entry whose lane has a class and whose gate pair passes enters the bank, after the reads of the pair. -/
theorem exec_activationEntry {s u : State} {q : SeatNo} {b k : Nat} {ga gb : Cap}
    (hb : entryBank s q.val = some b)
    (hk : classOf (classesFor s (getBank (getSeat s q.val) b).old) (getBank (getSeat s q.val) b).lane.toNat = some k)
    (hp : entryPair s q.val (getBank (getSeat s q.val) b).lane.toNat = .ok ((ga, gb), u)) :
    exec (.activationEntry q) s = .next (enterBank u q.val b (getBank (getSeat s q.val) b).lane.toNat k ga gb) := by
  simp only [exec, execActivationEntry, hb, hk, hp]

/-- Settles O34: the entry's bank and STATUS, item by item of 03 R89. -/
theorem activationEntryState : Obligations.ActivationEntryState := by
  intro s u q b k ga gb l c hb hk hp
  refine ⟨_, exec_activationEntry hb hk hp, ?_⟩
  intro x v
  obtain ⟨hv, hidle, hforce, hst⟩ := getSeat_enterBank u q.val b l k ga gb
  have hb8 : x.status.bank < 8 := by rw [hst]; exact entryBank_lt hb
  have hdet : detOn x = ((getSeat u q.val).force || clDet c k) := by rw [detOn_activation hb8, hforce, hst]
  have hw := bankW_enteredBank (getBank (getSeat u q.val) b) l (clMap c k) ga gb
  have hc := bankC_enteredBank (getBank (getSeat u q.val) b) l (clMap c k) ga gb
  rw [show v = _ from hv, hst]
  exact ⟨hw, hc, rfl, rfl, rfl, rfl, bit_xctx_enteredBank .., ringDepth_enteredBank .., rfl, hidle, rfl, rfl, rfl, rfl, rfl, hdet,
    enterBank_mem .., fun p => getSeat_enterBank_ne u b l k ga gb⟩

end Sys2Proof.Machine
end

section

namespace Sys2Proof

/-! The fields that a format lays out in a word are read back (04 R128), for the words that other rows share (05 R179, 11 R356). -/

/-- A field of a word, as a number. -/
theorem extract_eq {n lo : Nat} {w : Word} {v : BitVec n} (h : w.toNat / 2 ^ lo % 2 ^ n = v.toNat) : w.extractLsb' lo n = v := by
  apply BitVec.eq_of_toNat_eq
  rw [BitVec.extractLsb'_toNat, Nat.shiftRight_eq_div_pow]
  exact h

section
variable (op : BitVec 7) (rd ra : Reg) (sw : BitVec 12) (m : MemOp)

@[simp] theorem fRd_encS : fRd (encS op rd ra sw) = rd := extract_eq (by rw [encS_toNat]; omega)

@[simp] theorem fRa_encS : fRa (encS op rd ra sw) = ra := extract_eq (by rw [encS_toNat]; omega)

/-- The system-word number of a SYSRD or SYSWR (05 R179). -/
@[simp] theorem sysWord_encS : (encS op rd ra sw).extractLsb' 5 12 = sw := extract_eq (by rw [encS_toNat]; omega)

@[simp] theorem fRd_encM : fRd (encM op rd m) = rd := extract_eq (by rw [encM_toNat]; omega)

@[simp] theorem fMem_encM : fMem (encM op rd m) = m := by
  have hca : (encM op rd m).extractLsb' 20 4 = m.ca := extract_eq (by rw [encM_toNat]; omega)
  have hmode : (encM op rd m).extractLsb' 17 3 = m.mode := extract_eq (by rw [encM_toNat]; omega)
  have hix : (encM op rd m).extractLsb' 12 5 = m.ix := extract_eq (by rw [encM_toNat]; omega)
  have hdisp : (encM op rd m).extractLsb' 0 12 = m.disp := extract_eq (by rw [encM_toNat]; omega)
  simp only [fMem, hca, hmode, hix, hdisp]

end

/-- A word decodes to its candidate where that is a legal instruction of this very word (04 R130). -/
theorem decodeSeat_of_candidate {q : SeatNo} {w imm : Word} {i : Instr} (hc : seatCandidate q w imm = some i)
    (hw : seatWord i = w) (hl : seatLegal i = true) : decodeSeat q w imm = .ok i := by
  simp [decodeSeat, hc, hw, hl]

/-- The major opcode of a word as the opcode map looks it up. -/
theorem major_toNat {w : Word} {op : BitVec 7} (h : majorOf w = op) : (w.extractLsb' 29 7).toNat = op.toNat := by rw [← h, majorOf]

theorem decodeSeat_sysrd (q : SeatNo) (rd : Reg) (sw : BitVec 12) (imm : Word) :
    decodeSeat q (seatWord (.sysrd q rd sw)) imm = .ok (.sysrd q rd sw) := by
  refine decodeSeat_of_candidate ?_ rfl rfl
  unfold seatCandidate
  rw [seatWord, major_toNat (majorOf_encS ..), fRd_encS, sysWord_encS]
  rfl

theorem decodeSeat_syswr (q : SeatNo) (ra : Reg) (sw : BitVec 12) (imm : Word) :
    decodeSeat q (seatWord (.syswr q ra sw)) imm = .ok (.syswr q ra sw) := by
  refine decodeSeat_of_candidate ?_ rfl rfl
  unfold seatCandidate
  rw [seatWord, major_toNat (majorOf_encS ..), fRa_encS, sysWord_encS]
  rfl

theorem decodeSeat_stc (q : SeatNo) (rd : Reg) (m : MemOp) (imm : Word) (h : seatLegal (.stc q rd m) = true) :
    decodeSeat q (seatWord (.stc q rd m)) imm = .ok (.stc q rd m) := by
  refine decodeSeat_of_candidate ?_ rfl h
  unfold seatCandidate
  rw [seatWord, major_toNat (majorOf_encM ..), fRd_encM, fMem_encM]
  rfl

/-- The opcode map assigns no instruction to these majors (04 R137, R138). -/
def majorUnassigned (m : Nat) : Prop :=
  m = 0 ∨ (5 ≤ m ∧ m ≤ 7) ∨ (0o020 ≤ m ∧ m ≤ 0o027) ∨ (0o031 ≤ m ∧ m ≤ 0o037) ∨ (0o041 ≤ m ∧ m ≤ 0o047) ∨
    (0o062 ≤ m ∧ m ≤ 0o067) ∨ (0o115 ≤ m ∧ m ≤ 0o117) ∨ m = 0o127 ∨ (0o133 ≤ m ∧ m ≤ 0o157) ∨ (0o165 ≤ m ∧ m ≤ 0o167) ∨
    (0o171 ≤ m ∧ m ≤ 0o173) ∨ m = 0o175 ∨ m = 0o177

theorem seatCandidate_unassigned {q : SeatNo} {w imm : Word} (h : majorUnassigned (w.extractLsb' 29 7).toNat) :
    seatCandidate q w imm = none := by
  unfold majorUnassigned at h
  unfold seatCandidate
  split
  case h_64 => rfl
  all_goals omega

/-- A word without a candidate is ILLEGAL below the attached block and ATTACHED from it on (04 R137, R138). -/
theorem decodeSeat_none {q : SeatNo} {w imm : Word} (h : seatCandidate q w imm = none) :
    decodeSeat q w imm = .error (if 0o160 ≤ (w.extractLsb' 29 7).toNat then 0o20 else 0o17) := by
  rw [decodeSeat, h]

theorem extract_major (w : Word) : (w.extractLsb' 29 7).toNat = w.toNat / 2 ^ 29 := by
  rw [BitVec.extractLsb'_toNat, Nat.shiftRight_eq_div_pow]
  omega

end Sys2Proof

namespace Sys2Proof.Machine

/-- A row that shares its word with another instruction has its word, its second word and its checks. -/
theorem sharedWord_word {i j : Instr} (h : sharedWord i = some j) :
    seatWord i = seatWord j ∧ seatImm i = seatImm j ∧ seatLegal i = seatLegal j := by
  unfold sharedWord at h
  split at h <;> cases h <;> exact ⟨rfl, rfl, rfl⟩

/-- The instruction whose word a row shares is a SYSRD, a SYSWR or an STC. -/
theorem sharedWord_kind {i j : Instr} (h : sharedWord i = some j) :
    (∃ q rd sw, j = .sysrd q rd sw) ∨ (∃ q ra sw, j = .syswr q ra sw) ∨ ∃ q rd m, j = .stc q rd m := by
  unfold sharedWord at h
  split at h <;> cases h <;> simp

/-- Settles O7: a shared word is that of the instruction, which its decode gives back; an unassigned major has no candidate. -/
theorem decodingAndRefusal : Obligations.DecodingAndRefusal := by
  refine ⟨fun i j q hs hq hl => ?_, fun q w imm => ⟨fun h => ?_, fun h => ?_⟩⟩
  · obtain ⟨hw, -, hlj⟩ := sharedWord_word hs
    refine ⟨hw, ?_⟩
    rw [hw]
    rcases sharedWord_kind hs with ⟨p, rd, sw, rfl⟩ | ⟨p, ra, sw, rfl⟩ | ⟨p, rd, x, rfl⟩ <;> cases hq
    · exact decodeSeat_sysrd ..
    · exact decodeSeat_syswr ..
    · exact decodeSeat_stc _ _ _ _ (hlj ▸ hl)
  · have hm : (w.extractLsb' 29 7).toNat = w.toNat / 2 ^ 29 := extract_major w
    rw [decodeSeat_none (seatCandidate_unassigned (by rw [hm, majorUnassigned]; omega)), hm, if_neg (by omega)]
    rfl
  · have hm : (w.extractLsb' 29 7).toNat = w.toNat / 2 ^ 29 := extract_major w
    rw [decodeSeat_none (seatCandidate_unassigned (by rw [hm, majorUnassigned]; omega)), hm, if_pos (by omega)]
    rfl

end Sys2Proof.Machine
end

section

namespace Sys2Proof.Machine

/-! SYSRD and SYSWR as they run (04 R125, R126), and the rows that write one word. -/

/-- The fetch leaves the word registers. -/
theorem Issues.wGet_eq {s s1 : State} {q : SeatNo} {i : Instr} (h : Issues s q i s1) (r : Nat) : wGet s1 q.val r = wGet s q.val r := by
  rw [wGet, h.translated.curBank_eq, ← wGet]

/-- The fetch leaves the system words of the block. -/
theorem Issues.sys_eq {s s1 : State} {q : SeatNo} {i : Instr} (h : Issues s q i s1) : s1.sys = s.sys :=
  (congrArg State.sys h.translated.rest :)

/-- A system word is granted where the checks of R125 find no trap. -/
theorem sysFail_none_iff (s : State) (q : SeatNo) (n : Nat) (write : Bool) (w : Word) :
    sysFail s q.val n write w = none ↔ sysGranted s q n write w = true := by
  unfold sysFail sysGranted
  dsimp only
  rw [bne]
  generalize sysAllowed (statusOfSeat s q.val) n write = a, xferAllowed (statusOfSeat s q.val) w = x,
    holds (capRights (pccGet s q.val)) rSY = y, (n == 0o164) = e
  split_ifs with h1 h2 <;> simp only [false_iff, true_iff] <;> revert a x y e write <;> decide

/-- A granted SYSRD completes with the word in rd. -/
theorem sysrd_completes {s s1 : State} {q : SeatNo} {i : Instr} {rd : Reg} {n : Nat}
    (he : exec i s = seatRun q i anyMode (sysrdBody q.val rd n) s) (hi : Issues s q i s1)
    (hg : sysGranted s1 q n false 0 = true)
    (ho : pairOver (wSet (sysRead s1 q.val n).2 q.val rd.toNat (sysRead s1 q.val n).1) q.val = false) :
    ∃ t, exec i s = .next t ∧ quiet q.val t =
      quiet q.val (nextInstr q.val (seatLen i) (wSet (sysRead s1 q.val n).2 q.val rd.toNat (sysRead s1 q.val n).1)) := by
  rw [he]
  exact seatRun_done hi rfl (by rw [sysrdBody, (sysFail_none_iff ..).2 hg]) ho

section
variable {s s1 : State} {q : SeatNo} {i : Instr} {ra : Reg} {n : Nat} {test : State → Word → Bool}
  (he : exec i s = sysRow q i ra n test s) (hi : Issues s q i s1) (ht : test s (wGet s1 q.val ra.toNat) = true)
  (hg : sysGranted s1 q n true (wGet s1 q.val ra.toNat) = true)
  (hw : (sysWrite s1 q.val n (wGet s1 q.val ra.toNat)).1 = none)
include he hi ht hg hw

/-- A granted SYSWR, or a row that is one, whose write raises no trap: the write, then retirement, or the end of a pair-checked
activation that has passed its limit. -/
theorem sysRow_runs : exec i s = seatRun q i anyMode (syswrBody q.val ra n) s ∧
    syswrBody q.val ra n s1 = done (sysWrite s1 q.val n (wGet s1 q.val ra.toNat)).2 := by
  refine ⟨by rw [he, sysRow, ← hi.wGet_eq, if_pos ht], ?_⟩
  have hx : sysWrite s1 q.val n (wGet s1 q.val ra.toNat) = (none, (sysWrite s1 q.val n (wGet s1 q.val ra.toNat)).2) :=
    Prod.ext hw rfl
  rw [syswrBody, (sysFail_none_iff ..).2 hg]
  dsimp only
  rw [hx]

/-- The same, where the pair-checked activation goes on. -/
theorem sysRow_completes (ho : pairOver (sysWrite s1 q.val n (wGet s1 q.val ra.toNat)).2 q.val = false) :
    ∃ t, exec i s = .next t ∧
      quiet q.val t = quiet q.val (nextInstr q.val (seatLen i) (sysWrite s1 q.val n (wGet s1 q.val ra.toNat)).2) := by
  obtain ⟨hx, hb⟩ := sysRow_runs he hi ht hg hw
  rw [hx]
  exact seatRun_done hi rfl hb ho

end

/-- What a read of TB_LO gives and captures (04 R127). -/
theorem sysRead_tbLo (s : State) (q : Nat) :
    sysRead s q 0o40 = (BitVec.ofNat 36 s.time, modCur s q fun b => { b with tbHi := BitVec.ofNat 36 (s.time / 2 ^ 36) }) := by
  simp [sysRead, doubleLo, doubleHi]
  rfl

/-- SYSRD and TB_LO_READ complete (04 R127, 05 R179). -/
theorem sysRead_completes : Completes sysReadEffect := by
  intro i q f s s1 r ht hi hf ho
  unfold sysReadEffect at ht
  split at ht
  case h_3 => cases ht
  case h_1 q' rd sw =>
    cases ht
    obtain ⟨hg, hr⟩ := Option.ite_none_right_eq_some.1 hf
    cases hr
    have he : exec (.sysrd q rd sw) s = seatRun q (.sysrd q rd sw) anyMode (sysrdBody q.val rd sw.toNat) s := rfl
    exact sysrd_completes he hi hg ho
  case h_2 q' rd =>
    cases ht
    obtain ⟨hg, hr⟩ := Option.ite_none_right_eq_some.1 hf
    cases hr
    have he : exec (.tbLoRead q rd) s = seatRun q (.tbLoRead q rd) anyMode (sysrdBody q.val rd 0o40) s := rfl
    have hx := sysRead_tbLo s1 q.val
    have := sysrd_completes he hi hg
    rw [hx] at this
    exact this ho

/-- A write of a table that raises no trap and does what the SYSWR does, counters apart. -/
theorem writesSys_completes {q p : SeatNo} {i : Instr} {ra : Reg} {n : Nat} {test run : State → Word → Bool}
    {g : State → Word → State} {f : State → Option State} {s s1 r : State}
    (ht : writesSys q ra n test g = some (p, f)) (hf : f s1 = some r) (he : exec i s = sysRow q i ra n run s)
    (hi : Issues s p i s1) (ho : pairOver r p.val = false)
    (hrun : ∀ w, test s1 w = true → run s w = true)
    (hwrite : ∀ w, test s1 w = true → ∃ u c, sysWrite s1 q.val n w = (none, u) ∧ g s1 w = { u with counters := c }) :
    ∃ t, exec i s = .next t ∧ quiet p.val t = quiet p.val (nextInstr p.val (seatLen i) r) := by
  unfold writesSys onlyIf at ht
  cases ht
  obtain ⟨hc, hr⟩ := Option.ite_none_right_eq_some.1 hf
  obtain ⟨hg, htest⟩ := Bool.and_eq_true_iff.1 hc
  obtain ⟨u, c, hu, hgu⟩ := hwrite _ htest
  dsimp only at hr
  rw [hgu] at hr
  cases hr
  have hd : (sysWrite s1 q.val n (wGet s1 q.val ra.toNat)).2 = u := by rw [hu]
  obtain ⟨t, ht, hq⟩ := sysRow_completes he hi (hrun _ htest) hg (by rw [hu]) (by rw [hd]; exact ho)
  exact ⟨t, ht, hq.trans (by rw [hd]; rfl)⟩

/-- A write of a table that is the SYSWR of its word. -/
theorem writesSys_same {q p : SeatNo} {i : Instr} {ra : Reg} {n : Nat} {test run : State → Word → Bool}
    {g : State → Word → State} {f : State → Option State} {s s1 r : State}
    (ht : writesSys q ra n test g = some (p, f)) (hf : f s1 = some r) (he : exec i s = sysRow q i ra n run s)
    (hi : Issues s p i s1) (ho : pairOver r p.val = false)
    (hrun : ∀ w, test s1 w = true → run s w = true)
    (hwrite : ∀ w, test s1 w = true → sysWrite s1 q.val n w = (none, g s1 w)) :
    ∃ t, exec i s = .next t ∧ quiet p.val t = quiet p.val (nextInstr p.val (seatLen i) r) :=
  writesSys_completes ht hf he hi ho hrun fun w hw => ⟨_, _, hwrite w hw, rfl⟩

/-- A row whose test is of the word alone. -/
theorem writesSys_row {q p : SeatNo} {i : Instr} {ra : Reg} {n : Nat} {test : Word → Bool}
    {g : State → Word → State} {f : State → Option State} {s s1 r : State}
    (ht : writesSys q ra n (fun _ => test) g = some (p, f)) (hf : f s1 = some r)
    (he : exec i s = sysRow q i ra n (fun _ => test) s) (hi : Issues s p i s1) (ho : pairOver r p.val = false)
    (hwrite : ∀ w, test w = true → sysWrite s1 q.val n w = (none, g s1 w)) :
    ∃ t, exec i s = .next t ∧ quiet p.val t = quiet p.val (nextInstr p.val (seatLen i) r) :=
  writesSys_same ht hf he hi ho (fun _ h => h) hwrite

/-- A stick command of the table whose copy meets no refusal (06 R210). -/
theorem stickDone_completes {q p : SeatNo} {i : Instr} {ra : Reg} {cmd : Nat} {f : State → Option State} {s s1 r : State}
    (ht : stickDone q ra cmd = some (p, f)) (hf : f s1 = some r)
    (he : exec i s = sysRow q i ra 0o203 (fun _ w => bits w 2 0 == cmd) s) (hi : Issues s p i s1) (ho : pairOver r p.val = false) :
    ∃ t, exec i s = .next t ∧ quiet p.val t = quiet p.val (nextInstr p.val (seatLen i) r) := by
  refine writesSys_same ht hf he hi ho (fun w hw => (Bool.and_eq_true_iff.1 hw).1) fun w hw => ?_
  obtain ⟨hc, hn⟩ := Bool.and_eq_true_iff.1 hw
  rw [← eq_of_beq hc] at hn ⊢
  exact Prod.ext (Option.isNone_iff_eq_none.1 hn) rfl

/-- Counting the same event of many seats changes counters only. -/
theorem foldl_seatCount (rs : List Nat) (s : State) (i : Nat) :
    ∃ c, rs.foldl (fun s r => seatCount s r i) s = { s with counters := c } := by
  induction rs generalizing s with
  | nil => exact ⟨s.counters, rfl⟩
  | cons p rs ih =>
    obtain ⟨c, hc⟩ := seatCount_eq s p i
    obtain ⟨d, hd⟩ := ih { s with counters := c }
    exact ⟨d, by rw [List.foldl_cons, hc, hd]⟩

/-- The jobs that wait, where some do (02 R67). -/
theorem sealJobs_if (s : State) (q : Nat) (waits : Bool) : (if waits then sealJobs s q else s) =
    { s with engines := { s.engines with jobs := s.engines.jobs.map fun j =>
        if waits && !j.slots.isEmpty then { j with sealWaits := q :: j.sealWaits } else j } } := by
  cases waits
  · simp
  · simp [sealJobs]

/-- A write of SEAL_LIVE, counters apart (02 R65, R66). -/
theorem sealLivePut_eq (s : State) (q : Nat) (w : Word) : ∃ c, sealLivePut s q w =
    let v := s.sys.sealIndex
    if v = 0 then { s with counters := c }
    else
      let waits := v == 65535 && smGet false s.sys.sealLive v != bit w 0
      { s with
          counters := c
          sys := { s.sys with sealLive := smSet false s.sys.sealLive v (bit w 0) },
          engines := { s.engines with jobs := s.engines.jobs.map fun j =>
            if waits && !j.slots.isEmpty then { j with sealWaits := q :: j.sealWaits } else j } } := by
  unfold sealLivePut
  dsimp only
  split
  · exact ⟨s.counters, rfl⟩
  next hv =>
    have hwaits : (s.sys.sealIndex = 65535 ∧ smGet false s.sys.sealLive s.sys.sealIndex ≠ bit w 0) ↔
        (s.sys.sealIndex == 65535 && smGet false s.sys.sealLive s.sys.sealIndex != bit w 0) = true := by simp
    rw [if_congr hwaits rfl rfl, sealJobs_if]
    split
    · exact ⟨s.counters, rfl⟩
    · exact foldl_seatCount _ _ _

/-- SYSWR and the rows that are a SYSWR of one word complete (04 R126). -/
theorem sysWrite_completes : Completes sysWriteEffect := by
  intro i q f s s1 r ht hi hf ho
  unfold sysWriteEffect at ht
  split at ht
  case h_1 q' ra sw =>
    exact writesSys_same ht hf (run := fun _ _ => true) rfl hi ho (fun _ _ => rfl) fun w hw =>
      Prod.ext (Option.isNone_iff_eq_none.1 hw) rfl
  case h_2 q' ra =>
    refine writesSys_completes ht hf (run := fun _ _ => true) rfl hi ho (fun _ _ => rfl) fun w _ => ?_
    cases ht
    obtain ⟨c, hc⟩ := sealLivePut_eq s1 q.val w
    refine ⟨sealLivePut s1 q.val w, s1.counters, rfl, ?_⟩
    rw [hc]
    dsimp only
    split <;> rfl
  case h_3 q' ra =>
    exact writesSys_row ht hf rfl hi ho fun w hw => by
      change (none, sweepCtlPut s1 w) = _
      rw [sweepCtlPut, if_pos hw]
  case h_9 | h_10 | h_11 => exact stickDone_completes ht hf rfl hi ho
  case h_12 q' ra =>
    exact writesSys_row ht hf rfl hi ho fun w hw => by
      change stickCommand s1 q'.val (bits w 2 0) = _
      rw [eq_of_beq hw]
      rfl
  case h_14 q' ra =>
    refine writesSys_same ht hf (run := fun s w => (List.range 8).any fun e => (bits w 7 0).testBit e && !s.sys.setAside.testBit e)
      rfl hi ho (fun _ h => ?_) fun _ _ => rfl
    rw [hi.sys_eq] at h
    exact h
  case h_15 q' ra =>
    refine writesSys_same ht hf (run := fun s w => (List.range 8).any fun e => !(bits w 7 0).testBit e && s.sys.setAside.testBit e)
      rfl hi ho (fun _ h => ?_) fun _ _ => rfl
    rw [hi.sys_eq] at h
    exact h
  case h_19 => cases ht
  all_goals exact writesSys_row ht hf rfl hi ho fun _ _ => rfl

end Sys2Proof.Machine
end

section

namespace Sys2Proof.Machine

/-! The state in which a system-word instruction leaves the machine. -/

/-- State t is state r with seat q at another address, its progress word clear; counters and samples apart, in the parts that the
rules of the system words speak of. -/
structure GoesOn (q : Nat) (r t : State) : Prop where
  mem : t.mem = r.mem
  sys : t.sys = r.sys
  galley : t.galley = r.galley
  lanes : t.lanes = r.lanes
  eth : t.eth = r.eth
  power : t.power = r.power
  seat : ∃ c, unsampled (getSeat t q) =
    unsampled (modBank (getSeat r q) (getSeat r q).status.bank fun b => { b with pcc := c, progress := 0 })

theorem goesOn_of_quiet {q len : Nat} {r t : State} (h : quiet q t = quiet q (nextInstr q len r)) : GoesOn q r t where
  mem := by simpa [quiet, nextInstr, goOn] using congrArg State.mem h
  sys := by simpa [quiet, nextInstr, goOn] using congrArg State.sys h
  galley := by simpa [quiet, nextInstr, goOn] using congrArg State.galley h
  lanes := by simpa [quiet, nextInstr, goOn] using congrArg State.lanes h
  eth := by simpa [quiet, nextInstr, goOn] using congrArg State.eth h
  power := by simpa [quiet, nextInstr, goOn] using congrArg State.power h
  seat := by
    refine ⟨capSetCursor (pccGet r q) ((pcOf r q + len) % space36), ?_⟩
    rw [← getSeat_quiet_self, h, getSeat_quiet_self, nextInstr, getSeat_goOn]
    rfl

/-- A field of the seat beside its banks and samples. -/
theorem GoesOn.field {q : Nat} {r t : State} (h : GoesOn q r t) {α : Type} (f : Seat → α)
    (hf : ∀ x b, f { x with samples := [], banks := b } = f x) : f (getSeat t q) = f (getSeat r q) := by
  obtain ⟨c, hc⟩ := h.seat
  exact (hf (getSeat t q) (getSeat t q).banks).symm.trans ((congrArg f hc).trans (hf (getSeat r q) _))

/-- A change of a seat that leaves its bank in use brings no pair-checked outputs. -/
theorem pairOver_modSeat (s : State) (q : Nat) {f : Seat → Seat} (h : ∀ x, curBank (f x) = curBank x) :
    pairOver (modSeat s q f) q = pairOver s q :=
  pairOver_congr rfl (by rw [getSeat_modSeat_self, h]) (by rw [getSeat_modSeat_self, h])

/-- A granted SYSWR, or a row that is one, goes on after its write. -/
theorem sysRow_goesOn {s s1 r : State} {q : SeatNo} {i : Instr} {ra : Reg} {n : Nat} {test : State → Word → Bool}
    (he : exec i s = sysRow q i ra n test s) (hi : Issues s q i s1) (ht : test s (wGet s1 q.val ra.toNat) = true)
    (hg : sysGranted s1 q n true (wGet s1 q.val ra.toNat) = true)
    (hw : sysWrite s1 q.val n (wGet s1 q.val ra.toNat) = (none, r)) (ho : pairOver r q.val = pairOver s1 q.val) :
    ∃ t, exec i s = .next t ∧ GoesOn q.val r t := by
  have hr : (sysWrite s1 q.val n (wGet s1 q.val ra.toNat)).2 = r := by rw [hw]
  obtain ⟨t, hx, hq⟩ := sysRow_completes he hi ht hg (by rw [hw]) (by rw [hr, ho, hi.pairOver])
  exact ⟨t, hx, goesOn_of_quiet (hr ▸ hq)⟩

end Sys2Proof.Machine
end

section

namespace Sys2Proof.Machine

/-! The stick commands of 06 R210, over a window that is sound and open to them. -/

/-- A table filled key by key below n. -/
theorem smGet_foldl_smSet {α : Type} [DecidableEq α] (d : α) (m : SMap α) (f : Nat → α) (n j : Nat) :
    smGet d ((List.range n).foldl (fun m i => smSet d m i (f i)) m) j = if j < n then f j else smGet d m j := by
  induction n with
  | zero => rfl
  | succ n ih =>
    rw [List.range_succ, List.foldl_append, List.foldl_cons, List.foldl_nil, smGet_smSet, ih]
    by_cases h : j = n
    · simp [h]
    · rw [if_neg h]
      exact if_congr (by omega) rfl rfl

theorem length_smGetList {α : Type} (d : α) (m : SMap α) (k n : Nat) : (smGetList d m k n).length = n := by
  induction n generalizing k with
  | zero => rfl
  | succ n ih => rw [smGetList, List.length_cons, ih]

theorem getElem_smGetList {α : Type} (d : α) (m : SMap α) (k n i : Nat) (h : i < (smGetList d m k n).length) :
    (smGetList d m k n)[i] = smGet d m (k + i) := by
  induction n generalizing k i with
  | zero => exact absurd h (Nat.not_lt_zero i)
  | succ n ih =>
    cases i with
    | zero => rfl
    | succ i => exact (ih (k + 1) i _).trans (by rw [Nat.add_right_comm, Nat.add_assoc])

/-- A word of a window that is sound and open to the copy fails nowhere. -/
theorem copyFail_none {s : State} {a b : Nat} (h : WindowReads s a) (hl : a ≤ b) (hu : b < a + 16384) : copyFail s b = none := by
  obtain ⟨hp, hf⟩ := h.2 b hl hu
  unfold copyFail
  cases hc : fenceCheck s (atMReq 0 b 1 false) with
  | error k => rw [hc] at hf; cases hf
  | ok g => simp [hp]

theorem copyFails_nil {s : State} {a : Nat} (h : WindowReads s a) :
    ((List.range 16384).filterMap fun i => (copyFail s (a + i)).map fun t => (i, t)) = [] := by
  rw [List.filterMap_eq_nil_iff]
  intro i hi
  rw [copyFail_none h (by omega) (by have := List.mem_range.1 hi; omega), Option.map_none]

section
variable {s : State} {q : Nat} (hf : s.mem.flips = []) (hr : s.mem.rot = [])
include hf hr

/-- LOAD_DATA over a window that is sound and open to it. -/
theorem loadStick_open (h : WindowReads s (16384 * (getSeat s q).stickBase)) :
    let d := 16384 * (getSeat s q).stickBase
    stickCommand s q 1 = (none, modSeat s q fun x => { x with
      stick := (List.range 16384).foldl (fun m i => smSet 0 m i (memWord s.mem (d + i))) [],
      stickTag := (List.range 4096).foldl (fun m g => smSet false m g (memTag s.mem (d + 4 * g))) [],
      stickOn := true, stickUse := true }) := by
  simp only [stickCommand, loadStick, copyMeets, meetWords_sound hf hr, copyFails_nil h, List.any_nil, Bool.false_eq_true, if_false,
    List.head?_nil, Option.map_none]

/-- LOAD_CODE over a window that is sound and open to it. -/
theorem loadCodeStore_open (h : WindowReads s (16384 * (getSeat s q).codeBase)) :
    let d := 16384 * (getSeat s q).codeBase
    stickCommand s q 3 = (none, modSeat s q fun x => { x with
      code := (List.range 16384).foldl (fun m i => smSet 0 m i (memWord s.mem (d + i))) [], codeOn := true, stale := [] }) := by
  simp only [stickCommand, loadCodeStore, copyMeets, meetWords_sound hf hr, copyFails_nil h, List.any_nil, Bool.false_eq_true, if_false,
    List.head?_nil, Option.map_none]

end

/-- A write of a whole granule of case replaces words, tag, poison and any error there, met or not (10 R322). -/
theorem putGranule_whole {s : State} {a : Nat} {ws : List Word} {tag : Bool} (hb : isBulk a = false) (hl : 4 ≤ ws.length) :
    putGranule s a ws tag = { s with mem := { s.mem with
      words := smSetList 0 s.mem.words a ws, tags := smSet false s.mem.tags (a / 4) tag,
      poison := smSet false s.mem.poison (a / 4) false, flips := smSet 0 s.mem.flips (a / 4) 0 } } := by
  unfold putGranule storeWords
  simp [hb, hl, Nat.not_lt.2 hl]

theorem isBulk_of_case {a : Nat} (h : a < caseEnd) : isBulk a = false := by
  unfold isBulk
  unfold caseEnd at h
  simp only [Bool.and_eq_false_iff, decide_eq_false_iff_not]
  omega

/-- Memory m after a SAVE_DATA has written n granules: the stick's words and tags in the window at d, and nothing else. -/
structure Saved (s : State) (x : Seat) (d n : Nat) (m : Mem) : Prop where
  flips : m.flips = []
  words : ∀ b, memWord m b = if d ≤ b ∧ b < d + 4 * n then smGet 0 x.stick (b - d) else memWord s.mem b
  tags : ∀ b, memTag m b = if d ≤ b ∧ b < d + 4 * n then smGet false x.stickTag ((b - d) / 4) else memTag s.mem b

/-- A granule of a SAVE_DATA that the fence admits. -/
theorem saveGranule_open {s : State} {q d n : Nat} {m : Mem} (hw : WindowWrites s d) (hn : n < 4096) :
    saveGranule q d (none, { s with mem := m }) n = (none, putGranule { s with mem := m } (d + 4 * n)
      (smGetList 0 (getSeat s q).stick (4 * n) 4) (smGet false (getSeat s q).stickTag n)) := by
  have hok := hw.2 n (smGet false (getSeat s q).stickTag n) hn
  have hseat : getSeat { s with mem := m } q = getSeat s q := rfl
  have hfence : ∀ r, fenceCheck { s with mem := m } r = fenceCheck s r := fun _ => rfl
  unfold saveGranule
  dsimp only
  rw [hseat, hfence]
  cases hc : fenceCheck s (atMReq 1 (d + 4 * n) 4 (smGet false (getSeat s q).stickTag n)) with
  | error k => rw [hc] at hok; cases hok
  | ok g => rfl

theorem saved_granule {s : State} {q d n : Nat} {m : Mem} (hw : WindowWrites s d) (hd : d % 4 = 0) (hn : n < 4096)
    (h : Saved s (getSeat s q) d n m) :
    ∃ m', saveGranule q d (none, { s with mem := m }) n = (none, { s with mem := m' }) ∧
      Saved s (getSeat s q) d (n + 1) m' := by
  have hb : isBulk (d + 4 * n) = false := isBulk_of_case (by have := hw.1; omega)
  have hl := length_smGetList 0 (getSeat s q).stick (4 * n) 4
  rw [saveGranule_open hw hn, putGranule_whole hb hl.ge]
  refine ⟨_, rfl, ?_, fun b => ?_, fun b => ?_⟩
  · simp [h.flips, smSet, smErase]
  · by_cases hc : d + 4 * n ≤ b ∧ b < d + 4 * n + 4
    · obtain ⟨i, rfl⟩ := Nat.exists_eq_add_of_le hc.1
      have hi : i < (smGetList 0 (getSeat s q).stick (4 * n) 4).length := by omega
      rw [if_pos (by omega), memWord]
      dsimp only
      rw [smGet_smSetList_inside _ _ _ _ hi, getElem_smGetList]
      exact congrArg _ (by omega)
    · exact (smGet_smSetList_outside _ _ _ _ (by omega)).trans ((h.words b).trans (if_congr (by omega) rfl rfl))
  · rw [memTag, poisonedAt]
    dsimp only
    rw [smGet_smSet, smGet_smSet, smGet_smSet]
    by_cases hc : d + 4 * n ≤ b ∧ b < d + 4 * n + 4
    · have hbb : isBulk b = false := isBulk_of_case (by have := hw.1; omega)
      have h1 : b / 4 = (d + 4 * n) / 4 := by omega
      have h2 : d ≤ b ∧ b < d + 4 * (n + 1) := by omega
      have h3 : (b - d) / 4 = n := by omega
      simp [hbb, h1, h2, h3]
    · have h1 : b / 4 ≠ (d + 4 * n) / 4 := by omega
      rw [if_neg h1, if_neg h1, if_neg h1]
      exact (h.tags b).trans (if_congr (by omega) rfl rfl)

theorem saved_granules {s : State} {q d : Nat} (hf : s.mem.flips = []) (hw : WindowWrites s d) (hd : d % 4 = 0) {n : Nat}
    (hn : n ≤ 4096) : ∃ m, (List.range n).foldl (saveGranule q d) (none, s) = (none, { s with mem := m }) ∧
      Saved s (getSeat s q) d n m := by
  induction n with
  | zero => exact ⟨s.mem, rfl, hf, fun b => by rw [if_neg (by omega)], fun b => by rw [if_neg (by omega)]⟩
  | succ n ih =>
    obtain ⟨m, hm, hs⟩ := ih (by omega)
    rw [List.range_succ, List.foldl_append, hm]
    exact saved_granule hw hd (by omega) hs

/-- SAVE_DATA over a window that is open to it. -/
theorem saveStick_open {s : State} {q : Nat} (hf : s.mem.flips = []) (ho : (getSeat s q).stickOn = true)
    (hw : WindowWrites s (16384 * (getSeat s q).stickBase)) :
    ∃ m, stickCommand s q 2 = (none, modSeat { s with mem := m } q fun x => { x with stickUse := false }) ∧
      Saved s (getSeat s q) (16384 * (getSeat s q).stickBase) 4096 m := by
  obtain ⟨m, hm, hs⟩ := saved_granules hf hw (by omega) (le_refl 4096)
  refine ⟨m, ?_, hs⟩
  simp only [stickCommand, saveStick, ho, if_true, hm]

/-- A granted stick command that raises no trap goes on after its copy. -/
theorem stickRow_goesOn {s s1 r : State} {q : SeatNo} {i : Instr} {ra : Reg} {cmd : Nat}
    (he : exec i s = sysRow q i ra 0o203 (fun _ w => bits w 2 0 == cmd) s) (hi : Issues s q i s1)
    (hg : sysGranted s1 q 0o203 true (wGet s1 q.val ra.toNat) = true) (hc : bits (wGet s1 q.val ra.toNat) 2 0 = cmd)
    (hr : stickCommand s1 q.val cmd = (none, r)) (ho : pairOver r q.val = pairOver s1 q.val) :
    ∃ t, exec i s = .next t ∧ GoesOn q.val r t := by
  refine sysRow_goesOn he hi (beq_iff_eq.2 hc) hg ?_ ho
  rw [← hr, ← hc]
  rfl

section
variable {s s1 : State} {q : SeatNo} {ra : Reg} (hg : sysGranted s1 q 0o203 true (wGet s1 q.val ra.toNat) = true)
include hg

theorem loadData_goesOn (hf : s1.mem.flips = []) (hr : s1.mem.rot = []) (hi : Issues s q (.loadData q ra) s1)
    (hc : bits (wGet s1 q.val ra.toNat) 2 0 = 1) (hw : WindowReads s1 (16384 * (getSeat s1 q.val).stickBase)) :
    ∃ t, exec (.loadData q ra) s = .next t ∧ t.mem = s1.mem ∧
      let x := getSeat s1 q.val
      let d := 16384 * x.stickBase
      let y := getSeat t q.val
      y.stickOn = true ∧ y.stickUse = true ∧ (∀ i, i < 16384 → smGet 0 y.stick i = memWord s1.mem (d + i)) ∧
        (∀ g, g < 4096 → smGet false y.stickTag g = memTag s1.mem (d + 4 * g)) ∧ y.code = x.code ∧ y.codeOn = x.codeOn := by
  obtain ⟨t, ht, hgo⟩ := stickRow_goesOn rfl hi hg hc (loadStick_open hf hr hw) (pairOver_modSeat s1 q.val fun _ => rfl)
  have field := fun {α : Type} f hf => (hgo.field (α := α) f hf).trans (congrArg f (getSeat_modSeat_self ..))
  refine ⟨t, ht, hgo.mem, field Seat.stickOn fun _ _ => rfl, field Seat.stickUse fun _ _ => rfl, fun i h => ?_, fun g h => ?_,
    field Seat.code fun _ _ => rfl, field Seat.codeOn fun _ _ => rfl⟩
  · rw [field Seat.stick fun _ _ => rfl]
    dsimp only
    rw [smGet_foldl_smSet, if_pos h]
  · rw [field Seat.stickTag fun _ _ => rfl]
    dsimp only
    rw [smGet_foldl_smSet, if_pos h]

theorem loadCode_goesOn (hf : s1.mem.flips = []) (hr : s1.mem.rot = []) (hi : Issues s q (.loadCode q ra) s1)
    (hc : bits (wGet s1 q.val ra.toNat) 2 0 = 3) (hw : WindowReads s1 (16384 * (getSeat s1 q.val).codeBase)) :
    ∃ t, exec (.loadCode q ra) s = .next t ∧ t.mem = s1.mem ∧
      let x := getSeat s1 q.val
      let y := getSeat t q.val
      y.codeOn = true ∧ y.stale = [] ∧ (∀ i, i < 16384 → smGet 0 y.code i = memWord s1.mem (16384 * x.codeBase + i)) ∧
        y.stick = x.stick ∧ y.stickTag = x.stickTag ∧ y.stickOn = x.stickOn := by
  obtain ⟨t, ht, hgo⟩ := stickRow_goesOn rfl hi hg hc (loadCodeStore_open hf hr hw) (pairOver_modSeat s1 q.val fun _ => rfl)
  have field := fun {α : Type} f hf => (hgo.field (α := α) f hf).trans (congrArg f (getSeat_modSeat_self ..))
  refine ⟨t, ht, hgo.mem, field Seat.codeOn fun _ _ => rfl, field Seat.stale fun _ _ => rfl, fun i h => ?_,
    field Seat.stick fun _ _ => rfl, field Seat.stickTag fun _ _ => rfl, field Seat.stickOn fun _ _ => rfl⟩
  rw [field Seat.code fun _ _ => rfl]
  dsimp only
  rw [smGet_foldl_smSet, if_pos h]

theorem saveData_goesOn (hf : s1.mem.flips = []) (hi : Issues s q (.saveData q ra) s1)
    (hc : bits (wGet s1 q.val ra.toNat) 2 0 = 2) (ho : (getSeat s1 q.val).stickOn = true)
    (hw : WindowWrites s1 (16384 * (getSeat s1 q.val).stickBase)) :
    let x := getSeat s1 q.val
    let d := 16384 * x.stickBase
    ∃ t, exec (.saveData q ra) s = .next t ∧ (getSeat t q.val).stickOn = true ∧ (getSeat t q.val).stickUse = false ∧
      (∀ i, i < 16384 → memWord t.mem (d + i) = smGet 0 x.stick i) ∧
      (∀ g, g < 4096 → memTag t.mem (d + 4 * g) = smGet false x.stickTag g) ∧
      ∀ b, b < d ∨ d + 16384 ≤ b → memWord t.mem b = memWord s1.mem b ∧ memTag t.mem b = memTag s1.mem b := by
  obtain ⟨m, hm, hs⟩ := saveStick_open hf ho hw
  obtain ⟨t, ht, hgo⟩ := stickRow_goesOn rfl hi hg hc hm (pairOver_modSeat _ q.val fun _ => rfl)
  have field := fun {α : Type} f hf => (hgo.field (α := α) f hf).trans (congrArg f (getSeat_modSeat_self ..))
  have hmem : t.mem = m := hgo.mem
  refine ⟨t, ht, (field Seat.stickOn fun _ _ => rfl).trans ho, field Seat.stickUse fun _ _ => rfl, ?_, ?_, ?_⟩
  · intro i h
    rw [hmem, hs.words, if_pos (by omega), Nat.add_sub_cancel_left]
  · intro g h
    rw [hmem, hs.tags, if_pos (by omega), Nat.add_sub_cancel_left, Nat.mul_div_cancel_left g (by omega)]
  · intro b h
    rw [hmem, hs.words, hs.tags, if_neg (by omega), if_neg (by omega)]
    exact ⟨rfl, rfl⟩

theorem saveData_unbound_goesOn (hi : Issues s q (.saveData q ra) s1) (hc : bits (wGet s1 q.val ra.toNat) 2 0 = 2)
    (ho : (getSeat s1 q.val).stickOn = false) :
    ∃ t, exec (.saveData q ra) s = .next t ∧ t.mem = s1.mem ∧ (getSeat t q.val).stick = (getSeat s1 q.val).stick := by
  have hn : stickCommand s1 q.val 2 = (none, s1) := by simp [stickCommand, saveStick, ho]
  obtain ⟨t, ht, hgo⟩ := stickRow_goesOn rfl hi hg hc hn rfl
  exact ⟨t, ht, hgo.mem, hgo.field Seat.stick fun _ _ => rfl⟩

theorem release_goesOn (hi : Issues s q (.release q ra) s1) (hc : bits (wGet s1 q.val ra.toNat) 2 0 = 4) :
    ∃ t, exec (.release q ra) s = .next t ∧ t.mem = s1.mem ∧ (getSeat t q.val).stickOn = false ∧
      (getSeat t q.val).codeOn = false := by
  obtain ⟨t, ht, hgo⟩ := stickRow_goesOn rfl hi hg hc rfl (pairOver_modSeat s1 q.val fun _ => rfl)
  have field := fun {α : Type} f hf => (hgo.field (α := α) f hf).trans (congrArg f (getSeat_modSeat_self ..))
  exact ⟨t, ht, hgo.mem, field Seat.stickOn fun _ _ => rfl, field Seat.codeOn fun _ _ => rfl⟩

end

/-- Settles O28: the two tables, then each stick command by what it leaves of the seat and of case. -/
theorem systemWordResults : Obligations.SystemWordResults := by
  refine ⟨sysRead_completes, sysWrite_completes, ?_⟩
  intro s s1 q ra x w d c hf hr hg
  exact ⟨loadData_goesOn hg hf hr, loadCode_goesOn hg hf hr, saveData_goesOn hg hf, saveData_unbound_goesOn hg,
    release_goesOn hg⟩

end Sys2Proof.Machine
end

section

namespace Sys2Proof.Machine

/-! What the system words of a seat and of the block hold (04 R126): the parts of the state that they read. -/

/-- What SYSRD gives of a seat and of the block, in parts that a SYSWR writes apart from each other. -/
structure SysView where
  status : Option Word
  /-- CTX, XCTX, XRET_PC, XRET_DB, RING_LINK of the bank that they mean (03 R83) -/
  ctx : List Word
  tbHi : Word
  /-- the save sets, stroke, bow, M -/
  sets : List SaveSet
  masks : List Word
  resid : Nat
  watch : List Word
  sys : SysWords
  dump : List Word

/-- The context words of a bank (03 R83). -/
def ctxWords (k : Bank) : List Word := [k.ctx, k.xctx, k.xretPc, k.xretDb, k.ringLink]

/-- The view that seat x, the words of the block and the galley's registers give. -/
def viewOf (x : Seat) (v : SysWords) (g : Galley) : SysView :=
  { status := if x.status.bank < 16 then some (BitVec.ofNat 36 (statusNumber x)) else none,
    ctx := ctxWords (getBank x (ctxBank x)), tbHi := (curBank x).tbHi, sets := [x.svStroke, x.svBow, x.svM],
    masks := [x.strokeC, x.strokeR, x.bowC, x.bowR], resid := x.residLim, watch := [x.watchBase, x.watchLast, x.watchCtl],
    sys := v, dump := [g.dumpBase, g.dumpGeo, g.dumpLane] }

/-- The view of seat q. -/
def sysView (s : State) (q : Nat) : SysView := viewOf (getSeat s q) s.sys s.galley

/-- The value of system word n in a view. -/
def SysView.value (v : SysView) (q n : Nat) : Option Word :=
  if n = 0 then some (BitVec.ofNat 36 (256 * q + 16 * (q / 9) + q % 9))
  else if n = 0o10 then v.status
  else if 0o11 ≤ n ∧ n ≤ 0o15 then v.ctx[n - 0o11]?
  else if n = 0o41 then some v.tbHi
  else if 0o100 ≤ n ∧ n ≤ 0o156 then v.sets[(n - 0o100) / 16]?.map fun v => setWord v (n % 16)
  else if 0o160 ≤ n ∧ n ≤ 0o163 then v.masks[n - 0o160]?
  else if n = 0o167 then (if v.resid < 2 ^ 36 then some (BitVec.ofNat 36 v.resid) else none)
  else if 0o170 ≤ n ∧ n ≤ 0o172 then v.watch[n - 0o170]?
  else if n = 0o400 then some (BitVec.ofNat 36 v.sys.sealIndex)
  else if n = 0o401 then some (if v.sys.sealIndex = 0 ∨ smGet false v.sys.sealLive v.sys.sealIndex = true then 1 else 0)
  else if 0o411 ≤ n ∧ n ≤ 0o420 then some (smGet 0 v.sys.sweepQ (n - 0o411))
  else if n = 0o421 then some (BitVec.ofNat 36 v.sys.sealVal)
  else if n = 0o430 then some (BitVec.ofNat 36 (2 ^ 20 * v.sys.laneBase + if v.sys.laneLock then 1 else 0))
  else if n = 0o440 then some (BitVec.ofNat 36 v.sys.setAside)
  else if 0o451 ≤ n ∧ n ≤ 0o453 then v.dump[n - 0o451]?
  else if n = 0o501 then some (smGet 0 v.sys.mr (8 * v.sys.measReg + v.sys.measWord))
  else if n = 0o510 then some v.sys.ethMode
  else if 0o1000 ≤ n ∧ n ≤ 0o1377 then some (smGet 0 v.sys.mapBase (n - 0o1000))
  else none

theorem sysValue_eq (s : State) (q n : Nat) : sysValue s q n = (sysView s q).value q n := rfl

/-- The view goes by the seat beside its banks, by each bank's context words and by TB_HI of the bank in use. -/
theorem sysView_congr {s t : State} {q : Nat} (hs : t.sys = s.sys) (hg : t.galley = s.galley)
    (hx : { getSeat t q with banks := [], samples := [] } = { getSeat s q with banks := [], samples := [] })
    (hc : ∀ b, ctxWords (getBank (getSeat t q) b) = ctxWords (getBank (getSeat s q) b))
    (ht : (curBank (getSeat t q)).tbHi = (curBank (getSeat s q)).tbHi) : sysView t q = sysView s q := by
  have hb : ctxBank (getSeat t q) = ctxBank (getSeat s q) := (congrArg ctxBank hx :)
  have hst : (getSeat t q).status = (getSeat s q).status := (congrArg Seat.status hx :)
  have hn : statusNumber (getSeat t q) = statusNumber (getSeat s q) := (congrArg statusNumber hx :)
  have hsets : [(getSeat t q).svStroke, (getSeat t q).svBow, (getSeat t q).svM] =
    [(getSeat s q).svStroke, (getSeat s q).svBow, (getSeat s q).svM] :=
    (congrArg (fun x : Seat => [x.svStroke, x.svBow, x.svM]) hx :)
  have hmasks : [(getSeat t q).strokeC, (getSeat t q).strokeR, (getSeat t q).bowC, (getSeat t q).bowR] =
    [(getSeat s q).strokeC, (getSeat s q).strokeR, (getSeat s q).bowC, (getSeat s q).bowR] :=
    (congrArg (fun x : Seat => [x.strokeC, x.strokeR, x.bowC, x.bowR]) hx :)
  have hr : (getSeat t q).residLim = (getSeat s q).residLim := (congrArg Seat.residLim hx :)
  have hw : [(getSeat t q).watchBase, (getSeat t q).watchLast, (getSeat t q).watchCtl] =
    [(getSeat s q).watchBase, (getSeat s q).watchLast, (getSeat s q).watchCtl] :=
    (congrArg (fun x : Seat => [x.watchBase, x.watchLast, x.watchCtl]) hx :)
  unfold sysView viewOf
  simp only [hb, hc, ht, hst, hn, hsets, hmasks, hr, hw, hs, hg]

/-- The banks of a seat of which one is changed. -/
theorem getBank_of_unsampled {x y : Seat} {b : Nat} {f : Bank → Bank} (h : unsampled x = unsampled (modBank y b f)) (i : Nat) :
    getBank x i = if i = b then f (getBank y b) else getBank y i :=
  (congrArg (fun x : Seat => getBank x i) h :).trans (getBank_modBank ..)

/-- A change of a bank beside its context words and TB_HI leaves the view. -/
theorem sysView_modBank {s t : State} {q b : Nat} {f : Bank → Bank} (hs : t.sys = s.sys) (hg : t.galley = s.galley)
    (hx : unsampled (getSeat t q) = unsampled (modBank (getSeat s q) b f))
    (hc : ∀ k, ctxWords (f k) = ctxWords k) (ht : ∀ k, (f k).tbHi = k.tbHi) : sysView t q = sysView s q := by
  have hbank := getBank_of_unsampled hx
  have hstatus : (getSeat t q).status = (getSeat s q).status := (congrArg Seat.status hx :)
  refine sysView_congr hs hg (congrArg (fun x : Seat => { x with banks := [], samples := [] }) hx :) (fun i => ?_) ?_
  · rw [hbank]
    split
    · next h => rw [hc, h]
    · rfl
  · rw [curBank, hbank, hstatus, curBank]
    split
    · next h => rw [ht, h]
    · rfl

@[simp] theorem ctxWords_bankSetW (k : Bank) (r : Nat) (v : Word) : ctxWords (bankSetW k r v) = ctxWords k := by
  unfold bankSetW
  split <;> rfl

@[simp] theorem tbHi_bankSetW (k : Bank) (r : Nat) (v : Word) : (bankSetW k r v).tbHi = k.tbHi := by
  unfold bankSetW
  split <;> rfl

/-- A word register written leaves every system word. -/
theorem sysView_wSet (s : State) (q r : Nat) (v : Word) : sysView (wSet s q r v) q = sysView s q :=
  sysView_modBank rfl rfl (congrArg unsampled (getSeat_modCur ..)) (fun _ => ctxWords_bankSetW ..) fun _ => tbHi_bankSetW ..

section
variable {q : Nat} {r t : State} (h : GoesOn q r t)
include h

theorem GoesOn.sysView : sysView t q = sysView r q := by
  obtain ⟨c, hc⟩ := h.seat
  exact sysView_modBank h.sys h.galley hc (fun _ => rfl) fun _ => rfl

theorem GoesOn.sysValue (n : Nat) : sysValue t q n = sysValue r q n := by rw [sysValue_eq, sysValue_eq, h.sysView]

/-- The banks beside PCC and progress of the one in use. -/
theorem GoesOn.bank (i : Nat) : ∃ c p, getBank (getSeat t q) i = { getBank (getSeat r q) i with pcc := c, progress := p } ∧
    (i ≠ (getSeat r q).status.bank → c = (getBank (getSeat r q) i).pcc) := by
  obtain ⟨c, hc⟩ := h.seat
  rw [getBank_of_unsampled hc]
  split
  · next e => exact ⟨c, 0, by rw [e], fun hn => absurd e hn⟩
  · exact ⟨_, _, rfl, fun _ => rfl⟩

theorem GoesOn.bankW (i k : Nat) : bankW (getBank (getSeat t q) i) k = bankW (getBank (getSeat r q) i) k := by
  obtain ⟨c, p, hb, -⟩ := h.bank i
  rw [hb]
  rfl

theorem GoesOn.bankC (i k : Nat) : bankC (getBank (getSeat t q) i) k = bankC (getBank (getSeat r q) i) k := by
  obtain ⟨c, p, hb, -⟩ := h.bank i
  rw [hb]
  rfl

theorem GoesOn.bank_pcc {i : Nat} (hi : i ≠ (getSeat r q).status.bank) :
    (getBank (getSeat t q) i).pcc = (getBank (getSeat r q) i).pcc := by
  obtain ⟨c, p, hb, hc⟩ := h.bank i
  rw [hb, hc hi]

theorem GoesOn.wGet (k : Nat) : wGet t q k = wGet r q k := by
  rw [Machine.wGet, curBank, h.field Seat.status fun _ _ => rfl]
  exact h.bankW ..

theorem GoesOn.cGet (k : Nat) : cGet t q k = cGet r q k := by
  rw [Machine.cGet, curBank, h.field Seat.status fun _ _ => rfl]
  exact h.bankC ..

end
end Sys2Proof.Machine
end

section

namespace Sys2Proof.Machine

/-! What SYSRD and TB_LO_READ do in numbers (04 R126, R127). -/

/-- A field over what fills the bits below it. -/
theorem field_or {lo v b : Nat} (h : b < 2 ^ lo) : field lo v ||| BitVec.ofNat 36 b = BitVec.ofNat 36 (2 ^ lo * v + b) := by
  refine BitVec.eq_of_toNat_eq ?_
  rw [field, BitVec.toNat_or, BitVec.toNat_ofNat, BitVec.toNat_ofNat, BitVec.toNat_ofNat, Nat.two_pow_add_eq_or_of_lt h,
    Nat.or_mod_two_pow]

theorem field_zero (v : Nat) : field 0 v = BitVec.ofNat 36 v := by rw [field, Nat.pow_zero, Nat.one_mul]

theorem flag_eq (n : Nat) (b : Bool) : flag n b = field n (if b then 1 else 0) := by
  cases b
  · simp [flag, field]
  · rfl

/-- STATUS in numbers (03 R81). -/
theorem statusWord_eq (x : Seat) (h : x.status.bank < 16) : statusWord (liveStatus x) = BitVec.ofNat 36 (statusNumber x) := by
  have hl : lvlCode x.status.lvl < 4 := by cases x.status.lvl <;> decide
  have hr := x.status.ring.isLt
  have hb : ∀ b : Bool, (if b = true then 1 else 0) < 2 := by decide
  have e : statusNumber x = 2 ^ 11 * x.status.ring.toNat + (2 ^ 10 * (if x.status.ringMode = true then 1 else 0) +
      (2 ^ 9 * (if x.status.wideOn = true then 1 else 0) + (2 ^ 8 * (if detOn x = true then 1 else 0) + (2 ^ 4 * x.status.bank +
        (2 ^ 2 * (if x.status.side = true then 1 else 0) + lvlCode x.status.lvl))))) := by
    unfold statusNumber
    dsimp only
    cases x.status.lvl <;> simp only [lvlCode] <;> split_ifs <;> omega
  have h1 := hb x.status.side
  have h2 := hb (detOn x)
  have h3 := hb x.status.wideOn
  have h4 := hb x.status.ringMode
  rw [e, statusWord, liveStatus]
  simp only [flag_eq, BitVec.or_assoc, field_zero]
  rw [field_or (by omega), field_or (by omega), field_or (by omega), field_or (by omega), field_or (by omega), field_or (by omega)]

theorem seatIdWord_eq {q : Nat} (h : q < 72) : seatIdWord q = BitVec.ofNat 36 (256 * q + 16 * (q / 9) + q % 9) := by
  rw [seatIdWord, BitVec.or_assoc, field_zero, field_or (by omega), field_or (by omega)]
  exact congrArg _ (by omega)

theorem flag_zero_of (i : Nat) (live : Bool) :
    flag 0 (i == 0 || live) = if i = 0 ∨ live = true then 1 else 0 := by
  by_cases h : i = 0 <;> cases live <;> simp [h, flag, field]

theorem laneBaseWord_eq (b : Nat) (lock : Bool) :
    field 20 b ||| flag 0 lock = BitVec.ofNat 36 (2 ^ 20 * b + if lock then 1 else 0) := by
  rw [flag_eq, field_zero, field_or (by split <;> omega)]

theorem saveWord_eq {v : SaveSet} {o : Nat} (h : o < 16) : saveWord v o = setWord v o := by
  interval_cases o <;> rfl

/-- The words of the save sets as they are read (07 R217). -/
theorem sysRead_save {s : State} {q n : Nat} (h1 : 0o100 ≤ n) (h2 : n ≤ 0o156) :
    sysRead s q n = (saveWord (saveSet (getSeat s q) (svIndex n)) (n % 16), s) := by
  have hne : ∀ k, k < 64 → n ≠ k := by omega
  simp [sysRead, inR, hne, h1, h2]

/-- The bases of the map as they are read (10 R342). -/
theorem sysRead_mapBase {s : State} {q n : Nat} (h1 : 0o1000 ≤ n) (h2 : n ≤ 0o1377) :
    sysRead s q n = (mapBase s (n - 0o1000), s) := by
  have hne : ∀ k, k < 512 → n ≠ k := by omega
  have hle : ∀ k, k < 512 → ¬n ≤ k := by omega
  simp [sysRead, inR, hne, hle, h1, h2]

/-- Save set i of a seat, of three (07 R217). -/
theorem sets_getElem (x : Seat) {i : Nat} (h : i < 3) : [x.svStroke, x.svBow, x.svM][i]? = some (saveSet x i) := by
  interval_cases i <;> rfl

/-- A SYSRD of a word that the view gives reads it, and leaves the state. -/
theorem sysRead_of_value {s : State} {q : SeatNo} {n : Nat} {v : Word} (h : sysValue s q.val n = some v) :
    sysRead s q.val n = (v, s) := by
  unfold sysValue at h
  dsimp only at h
  obtain ⟨hn, hv⟩ | ⟨-, h⟩ := ite_eq_iff.1 h
  · subst hn
    cases hv
    exact congrArg (·, s) (seatIdWord_eq q.isLt)
  obtain ⟨hn, hv⟩ | ⟨-, h⟩ := ite_eq_iff.1 h
  · subst hn
    obtain ⟨hb, hv⟩ | ⟨-, hv⟩ := ite_eq_iff.1 hv
    · cases hv
      exact congrArg (·, s) (statusWord_eq _ hb)
    · cases hv
  obtain ⟨hn, hv⟩ | ⟨-, h⟩ := ite_eq_iff.1 h
  · obtain ⟨h1, h2⟩ := hn
    interval_cases n <;> cases hv <;> rfl
  obtain ⟨hn, hv⟩ | ⟨-, h⟩ := ite_eq_iff.1 h
  · subst hn
    cases hv
    rfl
  obtain ⟨hn, hv⟩ | ⟨-, h⟩ := ite_eq_iff.1 h
  · rw [sets_getElem _ (by omega)] at hv
    cases hv
    rw [sysRead_save hn.1 hn.2, saveWord_eq (Nat.mod_lt n (by omega))]
    rfl
  obtain ⟨hn, hv⟩ | ⟨-, h⟩ := ite_eq_iff.1 h
  · obtain ⟨h1, h2⟩ := hn
    interval_cases n <;> cases hv <;> rfl
  obtain ⟨hn, hv⟩ | ⟨-, h⟩ := ite_eq_iff.1 h
  · subst hn
    obtain ⟨-, hv⟩ | ⟨-, hv⟩ := ite_eq_iff.1 hv
    · cases hv
      exact congrArg (·, s) (field_zero _)
    · cases hv
  obtain ⟨hn, hv⟩ | ⟨-, h⟩ := ite_eq_iff.1 h
  · obtain ⟨h1, h2⟩ := hn
    interval_cases n <;> cases hv <;> rfl
  obtain ⟨hn, hv⟩ | ⟨-, h⟩ := ite_eq_iff.1 h
  · subst hn
    cases hv
    exact congrArg (·, s) (field_zero _)
  obtain ⟨hn, hv⟩ | ⟨-, h⟩ := ite_eq_iff.1 h
  · subst hn
    cases hv
    exact congrArg (·, s) (flag_zero_of ..)
  obtain ⟨hn, hv⟩ | ⟨-, h⟩ := ite_eq_iff.1 h
  · obtain ⟨h1, h2⟩ := hn
    interval_cases n <;> cases hv <;> rfl
  obtain ⟨hn, hv⟩ | ⟨-, h⟩ := ite_eq_iff.1 h
  · subst hn
    cases hv
    exact congrArg (·, s) (field_zero _)
  obtain ⟨hn, hv⟩ | ⟨-, h⟩ := ite_eq_iff.1 h
  · subst hn
    cases hv
    exact congrArg (·, s) (laneBaseWord_eq ..)
  obtain ⟨hn, hv⟩ | ⟨-, h⟩ := ite_eq_iff.1 h
  · subst hn
    cases hv
    exact congrArg (·, s) (field_zero _)
  obtain ⟨hn, hv⟩ | ⟨-, h⟩ := ite_eq_iff.1 h
  · obtain ⟨h1, h2⟩ := hn
    interval_cases n <;> cases hv <;> rfl
  obtain ⟨hn, hv⟩ | ⟨-, h⟩ := ite_eq_iff.1 h
  · subst hn
    cases hv
    rfl
  obtain ⟨hn, hv⟩ | ⟨-, h⟩ := ite_eq_iff.1 h
  · subst hn
    cases hv
    rfl
  obtain ⟨hn, hv⟩ | ⟨-, h⟩ := ite_eq_iff.1 h
  · cases hv
    exact sysRead_mapBase hn.1 hn.2
  · cases h

/-- A granted SYSRD goes on with the word in rd. -/
theorem sysrd_goesOn {s s1 u : State} {q : SeatNo} {i : Instr} {rd : Reg} {n : Nat} {v : Word}
    (he : exec i s = seatRun q i anyMode (sysrdBody q.val rd n) s) (hi : Issues s q i s1)
    (hg : sysGranted s1 q n false 0 = true) (hr : sysRead s1 q.val n = (v, u))
    (ho : pairOver (wSet u q.val rd.toNat v) q.val = pairOver s1 q.val) :
    ∃ t, exec i s = .next t ∧ GoesOn q.val (wSet u q.val rd.toNat v) t := by
  have h := sysrd_completes he hi hg
  rw [hr, ho, hi.pairOver] at h
  obtain ⟨t, ht, hq⟩ := h rfl
  exact ⟨t, ht, goesOn_of_quiet hq⟩

/-- A change of the bank in use beside its pair-checking brings no outputs. -/
theorem pairOver_modCur (s : State) (q : Nat) {f : Bank → Bank} (hr : ∀ b, (f b).role = b.role)
    (hp : ∀ b, (f b).pairBuf = b.pairBuf) : pairOver (modCur s q f) q = pairOver s q :=
  pairOver_congr rfl (by rw [curBank_modCur, hr]) (by rw [curBank_modCur, hp])

theorem pairOver_wSet (s : State) (q r : Nat) (v : Word) : pairOver (wSet s q r v) q = pairOver s q :=
  pairOver_modCur s q (fun b => by unfold bankSetW; split <;> rfl) fun b => by unfold bankSetW; split <;> rfl

theorem pairOver_cSet (s : State) (q r : Nat) (v : Cap) : pairOver (cSet s q r v) q = pairOver s q :=
  pairOver_modCur s q (fun b => by unfold bankSetC; split <;> rfl) fun b => by unfold bankSetC; split <;> rfl

section
variable {s s1 : State} {q : SeatNo} {rd : Reg}

/-- SYSRD of a word of the view gives its value and changes nothing else (04 R126). -/
theorem sysrd_reads {sw : BitVec 12} {v : Word} (hi : Issues s q (.sysrd q rd sw) s1)
    (hg : sysGranted s1 q sw.toNat false 0 = true) (hv : sysValue s1 q.val sw.toNat = some v) :
    ∃ t, exec (.sysrd q rd sw) s = .next t ∧ t.mem = s1.mem ∧ (∀ r, cGet t q.val r = cGet s1 q.val r) ∧
      (∀ m, sysValue t q.val m = sysValue s1 q.val m) ∧
      ∀ r, wGet t q.val r = if r = rd.toNat ∧ r ≠ 0 then v else wGet s1 q.val r := by
  have he : exec (.sysrd q rd sw) s = seatRun q (.sysrd q rd sw) anyMode (sysrdBody q.val rd sw.toNat) s := rfl
  obtain ⟨t, ht, h⟩ := sysrd_goesOn he hi hg (sysRead_of_value hv) (pairOver_wSet ..)
  refine ⟨t, ht, h.mem, fun r => ?_, fun m => ?_, fun r => ?_⟩
  · rw [h.cGet, cGet_wSet]
  · rw [h.sysValue, sysValue_eq, sysView_wSet, sysValue_eq]
  · rw [h.wGet, wGet_wSet]
    exact if_congr (by constructor <;> rintro ⟨rfl, h⟩ <;> exact ⟨rfl, h⟩) rfl rfl

/-- A read of TB_LO takes bits 35 to 0 of the timebase and captures the rest in TB_HI (04 R127). -/
theorem tbLo_reads {i : Instr} (he : exec i s = seatRun q i anyMode (sysrdBody q.val rd 0o40) s) (hi : Issues s q i s1)
    (hg : sysGranted s1 q 0o40 false 0 = true) :
    ∃ t, exec i s = .next t ∧ t.mem = s1.mem ∧ (∀ r, cGet t q.val r = cGet s1 q.val r) ∧
      sysValue t q.val 0o41 = some (BitVec.ofNat 36 (s1.time / 2 ^ 36)) ∧
      ∀ r, wGet t q.val r = if r = rd.toNat ∧ r ≠ 0 then BitVec.ofNat 36 s1.time else wGet s1 q.val r := by
  obtain ⟨t, ht, h⟩ := sysrd_goesOn he hi hg (sysRead_tbLo ..) ((pairOver_wSet ..).trans (pairOver_modCur _ _ (fun _ => rfl) fun _ => rfl))
  refine ⟨t, ht, h.mem, fun r => ?_, ?_, fun r => ?_⟩
  · rw [h.cGet, cGet_wSet, cGet, curBank_modCur]
    rfl
  · rw [h.sysValue, sysValue_eq, sysView_wSet, ← sysValue_eq]
    change some (curBank (getSeat (modCur s1 q.val _) q.val)).tbHi = _
    rw [curBank_modCur]
  · rw [h.wGet, wGet_wSet]
    refine if_congr (by constructor <;> rintro ⟨rfl, h⟩ <;> exact ⟨rfl, h⟩) rfl ?_
    rw [wGet, curBank_modCur]
    rfl

end
end Sys2Proof.Machine
end

section

namespace Sys2Proof.Machine

/-! What a written word of a view reads, and that the others read as before (04 R126). -/

/-- From view v to u word n has come to read b, and no other word reads otherwise; SEAL_LIVE follows SEAL_INDEX (02 R65). -/
def SysView.Written (v u : SysView) (q n : Nat) (b : Word) : Prop :=
  u.value q n = some b ∧ ∀ m, m ≠ n → (n = 0o400 → m ≠ 0o401) → u.value q m = v.value q m

theorem ite_else {α : Type} {c : Prop} [Decidable c] {a x y : α} (h : ¬c → x = y) : (if c then a else x) = if c then a else y :=
  ite_congr rfl (fun _ => rfl) h

theorem ite_then {α : Type} {c : Prop} [Decidable c] {a x y : α} (h : c → x = y) : (if c then x else a) = if c then y else a :=
  ite_congr rfl h fun _ => rfl

namespace SysView.Written

variable (v : SysView) (q : Nat) {i : Nat} {b : Word}

theorem ctx (hl : v.ctx.length = 5) (hi : i < 5) : v.Written { v with ctx := v.ctx.set i b } q (0o11 + i) b := by
  refine ⟨?_, fun m hm _ => ?_⟩
  · interval_cases i <;> simp [value, hl]
  · unfold value
    iterate 2 refine ite_else fun _ => ?_
    exact ite_then fun h => List.getElem?_set_ne (by omega)

theorem masks (hl : v.masks.length = 4) (hi : i < 4) : v.Written { v with masks := v.masks.set i b } q (0o160 + i) b := by
  refine ⟨?_, fun m hm _ => ?_⟩
  · interval_cases i <;> simp [value, hl]
  · unfold value
    iterate 5 refine ite_else fun _ => ?_
    exact ite_then fun h => List.getElem?_set_ne (by omega)

theorem watch (hl : v.watch.length = 3) (hi : i < 3) : v.Written { v with watch := v.watch.set i b } q (0o170 + i) b := by
  refine ⟨?_, fun m hm _ => ?_⟩
  · interval_cases i <;> simp [value, hl]
  · unfold value
    iterate 7 refine ite_else fun _ => ?_
    exact ite_then fun h => List.getElem?_set_ne (by omega)

theorem dump (hl : v.dump.length = 3) (hi : i < 3) : v.Written { v with dump := v.dump.set i b } q (0o451 + i) b := by
  refine ⟨?_, fun m hm _ => ?_⟩
  · interval_cases i <;> simp [value, hl]
  · unfold value
    iterate 14 refine ite_else fun _ => ?_
    exact ite_then fun h => List.getElem?_set_ne (by omega)

theorem resid {k : Nat} (hk : k < 2 ^ 36) : v.Written { v with resid := k } q 0o167 (BitVec.ofNat 36 k) := by
  refine ⟨?_, fun m hm _ => ?_⟩
  · simp [value]
    omega
  · unfold value
    iterate 6 refine ite_else fun _ => ?_
    exact ite_then fun h => absurd h hm

theorem sealIndex (k : Nat) : v.Written { v with sys := { v.sys with sealIndex := k } } q 0o400 (BitVec.ofNat 36 k) := by
  refine ⟨rfl, fun m hm hl => ?_⟩
  unfold value
  iterate 8 refine ite_else fun _ => ?_
  exact ite_congr rfl (fun h => absurd h hm) fun _ => ite_then fun h => absurd h (hl rfl)

theorem sealVal (k : Nat) : v.Written { v with sys := { v.sys with sealVal := k } } q 0o421 (BitVec.ofNat 36 k) := by
  refine ⟨rfl, fun m hm _ => ?_⟩
  unfold value
  iterate 11 refine ite_else fun _ => ?_
  exact ite_then fun h => absurd h hm

theorem sweepQ (hi : i < 8) :
    v.Written { v with sys := { v.sys with sweepQ := smSet 0 v.sys.sweepQ i b } } q (0o411 + i) b := by
  refine ⟨?_, fun m hm _ => ?_⟩
  · interval_cases i <;> simp [value]
  · unfold value
    iterate 10 refine ite_else fun _ => ?_
    exact ite_then fun h => congrArg some (smGet_smSet_ne _ _ _ (by omega))

theorem mapBase (hi : i < 256) :
    v.Written { v with sys := { v.sys with mapBase := smSet 0 v.sys.mapBase i b } } q (0o1000 + i) b := by
  have hne : ∀ k, k < 512 → 512 + i ≠ k := by omega
  have hle : ∀ k, k < 512 → ¬512 + i ≤ k := by omega
  refine ⟨?_, fun m hm _ => ?_⟩
  · simp [value, hne, hle]
    omega
  · unfold value
    iterate 17 refine ite_else fun _ => ?_
    exact ite_then fun h => congrArg some (smGet_smSet_ne _ _ _ (by omega))

end SysView.Written

/-- What a word of a save set reads after one was written: SV_CAUSE, SV_ADDR, SV_AUX, SV_BANK and MV_ATST are read-only, and
SV_STATUS keeps the bits of STATUS (07 R217). -/
theorem setWord_saveWordSet (v : SaveSet) (w : Word) {o p : Nat} (ho : o < 15) (hp : p < 16) :
    setWord (saveWordSet v o w) p =
      if p = o then (if o < 8 ∨ o = 12 then w else if o = 8 then w &&& 0o17767 else setWord v o) else setWord v p := by
  interval_cases o <;> interval_cases p <;> rfl

theorem SysView.Written.sets (v : SysView) (q : Nat) {i o : Nat} {x : SaveSet} {w old : Word} (hx : v.sets[i]? = some x)
    (hi : i < 3) (ho : o < 15) (hold : setWord x o = old) :
    v.Written { v with sets := v.sets.set i (saveWordSet x o w) } q (0o100 + 16 * i + o)
      (if o < 8 ∨ o = 12 then w else if o = 8 then w &&& 0o17767 else old) := by
  have hl : i < v.sets.length := (List.getElem?_eq_some_iff.1 hx).1
  refine ⟨?_, fun m hm _ => ?_⟩
  · have hne : ∀ k, k < 64 → 64 + 16 * i + o ≠ k := by omega
    have h1 : 64 ≤ 64 + 16 * i + o ∧ 64 + 16 * i + o ≤ 110 := by omega
    have h2 : (64 + 16 * i + o - 64) / 16 = i := by omega
    have h3 : (64 + 16 * i + o) % 16 = o := by omega
    have hle : ¬64 + 16 * i + o ≤ 13 := by omega
    simp [value, hne, hle, h1, h2, h3, hl, setWord_saveWordSet x w ho (p := o) (by omega), hold]
  · unfold value
    iterate 4 refine ite_else fun _ => ?_
    refine ite_then fun h => ?_
    by_cases hj : i = (m - 64) / 16
    · dsimp only
      rw [← hj, List.getElem?_set_self hl, hx, Option.map_some, Option.map_some, setWord_saveWordSet x w ho (by omega),
        if_neg (by omega)]
    · exact congrArg _ (List.getElem?_set_ne hj)

end Sys2Proof.Machine
end

section

namespace Sys2Proof.Machine

/-! SYSWR of the words that read back whole or under a mask (04 R126). -/

/-- The write of w to word n leads from s to r: the word then reads b, and no register, no memory and no other word differs. -/
structure SysWritten (s r : State) (q n : Nat) (w b : Word) : Prop where
  write : sysWrite s q n w = (none, r)
  mem : r.mem = s.mem
  wGet : ∀ k, wGet r q k = wGet s q k
  cGet : ∀ k, cGet r q k = cGet s q k
  pairs : pairOver r q = pairOver s q
  view : (sysView s q).Written (sysView r q) q n b

theorem SysWritten.of_seat {s : State} {q n : Nat} {w b : Word} {f : Seat → Seat}
    (hw : sysWrite s q n w = (none, modSeat s q f)) (hf : ∀ x, curBank (f x) = curBank x)
    (h : (sysView s q).Written (viewOf (f (getSeat s q)) s.sys s.galley) q n b) : SysWritten s (modSeat s q f) q n w b where
  write := hw
  mem := rfl
  wGet k := by rw [Machine.wGet, getSeat_modSeat_self, hf, ← Machine.wGet]
  cGet k := by rw [Machine.cGet, getSeat_modSeat_self, hf, ← Machine.cGet]
  pairs := pairOver_modSeat s q hf
  view := by
    have hu : sysView (modSeat s q f) q = viewOf (f (getSeat s q)) s.sys s.galley :=
      congrArg (viewOf · s.sys s.galley) (getSeat_modSeat_self ..)
    exact hu ▸ h

theorem SysWritten.of_sys {s : State} {q n : Nat} {w b : Word} {v : SysWords}
    (hw : sysWrite s q n w = (none, { s with sys := v }))
    (h : (sysView s q).Written { sysView s q with sys := v } q n b) : SysWritten s { s with sys := v } q n w b :=
  ⟨hw, rfl, fun _ => rfl, fun _ => rfl, rfl, h⟩

theorem SysWritten.of_galley {s : State} {q n : Nat} {w b : Word} {g : Galley}
    (hw : sysWrite s q n w = (none, { s with galley := g }))
    (h : (sysView s q).Written { sysView s q with dump := [g.dumpBase, g.dumpGeo, g.dumpLane] } q n b) :
    SysWritten s { s with galley := g } q n w b :=
  ⟨hw, rfl, fun _ => rfl, fun _ => rfl, rfl, h⟩

/-- A field at bit 0 is the word under its mask. -/
theorem ofNat_bits_low (w : Word) {n : Nat} (hn : n < 36) : BitVec.ofNat 36 (bits w n 0) = w &&& BitVec.ofNat 36 (2 ^ (n + 1) - 1) := by
  refine BitVec.eq_of_toNat_eq ?_
  have hlt : 2 ^ (n + 1) - 1 < 2 ^ 36 := by
    have := Nat.pow_le_pow_right (n := 2) (by omega) (show n + 1 ≤ 36 by omega)
    have := Nat.two_pow_pos (n + 1)
    omega
  rw [BitVec.toNat_and, BitVec.toNat_ofNat, BitVec.toNat_ofNat, Nat.mod_eq_of_lt hlt, Nat.and_two_pow_sub_one_eq_mod, bits,
    Nat.pow_zero, Nat.div_one, Nat.sub_zero, Nat.mod_eq_of_lt]
  exact lt_of_le_of_lt (Nat.mod_le ..) w.isLt

/-- CTX as a SYSWR leaves it (03 R83). -/
theorem mkCtx_bits (w : Word) : mkCtx (bits w 35 20) (bits w 6 0) = w &&& 0o777774000177 := by
  refine BitVec.eq_of_getLsbD_eq fun i hi => ?_
  have hs : bits w 35 20 % 65536 = bits w 35 20 := Nat.mod_eq_of_lt (bits_lt ..)
  have hm : bits w 6 0 % 128 = bits w 6 0 := Nat.mod_eq_of_lt (bits_lt ..)
  rw [mkCtx, hs, hm, BitVec.getLsbD_or, getLsbD_field, getLsbD_field,
    testBit_bits, testBit_bits, BitVec.getLsbD_and]
  interval_cases i <;> simp

/-- A change of the context words of the bank that they mean. -/
theorem viewOf_modCtx (x : Seat) (v : SysWords) (d : Galley) {g : Bank → Bank} (hg : ∀ k, (g k).tbHi = k.tbHi) :
    viewOf (modBank x (ctxBank x) g) v d = { viewOf x v d with ctx := ctxWords (g (getBank x (ctxBank x))) } := by
  have ht : (curBank (modBank x (ctxBank x) g)).tbHi = (curBank x).tbHi := by
    rw [curBank, modBank_status, getBank_modBank]
    split
    · next h => rw [hg, curBank, h]
    · rfl
  have hc : getBank (modBank x (ctxBank x) g) (ctxBank (modBank x (ctxBank x) g)) = g (getBank x (ctxBank x)) :=
    (getBank_modBank x (ctxBank x) (ctxBank x) g).trans (if_pos rfl)
  unfold viewOf
  rw [ht, hc]
  rfl

/-- A change of a save set that leaves what it says of the bank trapped (07 R217). -/
theorem viewOf_setSaveSet (x : Seat) (w : SysWords) (d : Galley) {i : Nat} (hi : i < 3) {v : SaveSet}
    (hv : v.bank = (saveSet x i).bank) :
    viewOf (setSaveSet x i v) w d = { viewOf x w d with sets := (viewOf x w d).sets.set i v } := by
  have hb : ∀ v : SaveSet, v.bank = x.svM.bank → ctxBank { x with svM := v } = ctxBank x ∧
      statusNumber { x with svM := v } = statusNumber x := by
    intro v hv
    have ho : occupied v = occupied x.svM := congrArg (bit · 35) hv
    have hk : saveBank v = saveBank x.svM := congrArg (bits · 3 0) hv
    simp [ctxBank, statusNumber, detOn, inActivation, ho, hk]
  interval_cases i
  · rfl
  · rfl
  · obtain ⟨h1, h2⟩ := hb v hv
    change viewOf { x with svM := v } w d = _
    unfold viewOf
    rw [h1, h2]
    rfl

/-- The bank without its context words. -/
def contextless (k : Bank) : Bank := { k with ctx := 0, xctx := 0, xretPc := 0, xretDb := 0, ringLink := 0 }

theorem curBank_modCtx {x : Seat} {g : Bank → Bank} (hg : ∀ k, contextless (g k) = contextless k) :
    contextless (curBank (modBank x (ctxBank x) g)) = contextless (curBank x) := by
  rw [curBank, modBank_status, getBank_modBank]
  split
  · next h => rw [hg, curBank, h]
  · rfl

theorem SysWritten.of_modCtx {s : State} {q n : Nat} {w b : Word} {g : Bank → Bank}
    (hw : sysWrite s q n w = (none, modSeat s q fun x => modBank x (ctxBank x) g)) (hg : ∀ k, contextless (g k) = contextless k)
    (h : (sysView s q).Written
      { sysView s q with ctx := ctxWords (g (getBank (getSeat s q) (ctxBank (getSeat s q)))) } q n b) :
    SysWritten s (modSeat s q fun x => modBank x (ctxBank x) g) q n w b := by
  have hk : contextless (curBank (getSeat (modSeat s q fun x => modBank x (ctxBank x) g) q)) = contextless (curBank (getSeat s q)) := by
    rw [getSeat_modSeat_self, curBank_modCtx hg]
  have hv : sysView (modSeat s q fun x => modBank x (ctxBank x) g) q = _ :=
    (congrArg (viewOf · s.sys s.galley) (getSeat_modSeat_self ..)).trans
      (viewOf_modCtx _ _ _ fun k => (congrArg Bank.tbHi (hg k) :))
  exact ⟨hw, rfl, fun r => (congrArg (fun k => bankW k r) hk :), fun r => (congrArg (fun k => bankC k r) hk :),
    pairOver_congr rfl (congrArg Bank.role hk :) (congrArg Bank.pairBuf hk :), hv ▸ h⟩

/-- What the cox takes from a rise of POSTABLE concerns none of its pair buffers (08 R243). -/
theorem coxWake_pairs (s : State) (x c : Nat) : (getCox (coxWake s x) c).pairs = (getCox s c).pairs := by
  unfold coxWake
  split
  · simp only [modCox, getCox, setCox_coxes, smGet_smSet]
    split
    · next h => rw [h]
    · rfl
  · rfl

/-- What a rise of POSTABLE leaves (08 R243). -/
theorem postRise_keeps (x : Seat) (s : State) (q : Nat) : (postRise x s q).sys = s.sys ∧ (postRise x s q).galley = s.galley ∧
    ∀ c, (getCox (postRise x s q) c).pairs = (getCox s c).pairs := by
  unfold postRise
  split
  · refine ⟨?_, ?_, coxWake_pairs s _⟩ <;> unfold coxWake <;> split <;> rfl
  · exact ⟨rfl, rfl, fun _ => rfl⟩

theorem curBank_setSaveSet (x : Seat) (i : Nat) (v : SaveSet) : curBank (setSaveSet x i v) = curBank x := by
  unfold setSaveSet
  split
  · rfl
  · split <;> rfl

/-- A write to a save set, and the post that may follow (07 R217, 08 R243). -/
theorem SysWritten.of_set {s : State} {q i n : Nat} {w b : Word} {v : SaveSet} (hi : i < 3)
    (hw : sysWrite s q n w = (none, postRise (getSeat s q) (modSeat s q fun x => setSaveSet x i v) q))
    (hv : v.bank = (saveSet (getSeat s q) i).bank)
    (h : (sysView s q).Written { sysView s q with sets := (sysView s q).sets.set i v } q n b) :
    SysWritten s (postRise (getSeat s q) (modSeat s q fun x => setSaveSet x i v) q) q n w b := by
  obtain ⟨hs, hg, hp⟩ := postRise_keeps (getSeat s q) (modSeat s q fun x => setSaveSet x i v) q
  generalize hr : postRise (getSeat s q) (modSeat s q fun x => setSaveSet x i v) q = r at hw hs hg hp
  have hx : getSeat r q = setSaveSet (getSeat s q) i v := by rw [← hr, getSeat_postRise, getSeat_modSeat_self]
  have hc : curBank (getSeat r q) = curBank (getSeat s q) := by rw [hx, curBank_setSaveSet]
  have hm : r.mem = s.mem := by rw [← hr, postRise_mem, modSeat_mem]
  have hv' : sysView r q = { sysView s q with sets := (sysView s q).sets.set i v } := by
    rw [sysView, hx, hs, hg]
    exact viewOf_setSaveSet _ _ _ hi hv
  refine ⟨hw, hm, fun k => congrArg (bankW · k) hc, fun k => congrArg (bankC · k) hc, ?_, hv' ▸ h⟩
  simp only [pairOver, getPair, hc, hp]
  rfl

section
variable (s : State) (q : Nat) (w : Word)

theorem sysWritten_ctx {i : Nat} (hi : i < 5) : ∃ r, SysWritten s r q (0o11 + i) w
    ([w &&& 0o777774000177, w &&& 0o777774001577, w, w, w &&& 0o37777].getD i 0) := by
  have h := SysView.Written.ctx (sysView s q) q (b := [w &&& 0o777774000177, w &&& 0o777774001577, w, w, w &&& 0o37777].getD i 0)
    rfl hi
  interval_cases i
  · exact ⟨_, .of_modCtx (g := fun k => { k with ctx := mkCtx (bits w 35 20) (bits w 6 0) }) rfl (fun _ => rfl)
      (by rw [mkCtx_bits]; exact h)⟩
  · exact ⟨_, .of_modCtx (g := fun k => { k with xctx := w &&& 0o777774001577 }) rfl (fun _ => rfl) h⟩
  · exact ⟨_, .of_modCtx (g := fun k => { k with xretPc := w }) rfl (fun _ => rfl) h⟩
  · exact ⟨_, .of_modCtx (g := fun k => { k with xretDb := w }) rfl (fun _ => rfl) h⟩
  · exact ⟨_, .of_modCtx (g := fun k => { k with ringLink := w &&& 0o37777 }) rfl (fun _ => rfl) h⟩

theorem sysWritten_mask {i : Nat} (hi : i < 4) : ∃ r, SysWritten s r q (0o160 + i) w (w &&& 0o541177776) := by
  have h := SysView.Written.masks (sysView s q) q (b := w &&& 0o541177776) rfl hi
  interval_cases i <;> exact ⟨_, .of_seat rfl (fun _ => rfl) h⟩

theorem sysWritten_watch {i : Nat} (hi : i < 3) : ∃ r, SysWritten s r q (0o170 + i) w ([w, w, w &&& 7].getD i 0) := by
  have h := SysView.Written.watch (sysView s q) q (b := [w, w, w &&& 7].getD i 0) rfl hi
  interval_cases i <;> exact ⟨_, .of_seat rfl (fun _ => rfl) h⟩

theorem sysWritten_resid : ∃ r, SysWritten s r q 0o167 w (w &&& 0o177777) := by
  have h := SysView.Written.resid (sysView s q) q (k := bits w 15 0) ((bits_lt w 15 0).trans (by omega))
  rw [ofNat_bits_low w (by omega)] at h
  exact ⟨_, .of_seat rfl (fun _ => rfl) h⟩

theorem sysWritten_sealIndex : ∃ r, SysWritten s r q 0o400 w (w &&& 0o177777) := by
  have h := SysView.Written.sealIndex (sysView s q) q (bits w 15 0)
  rw [ofNat_bits_low w (by omega)] at h
  exact ⟨_, .of_sys rfl h⟩

theorem sysWritten_sealVal : ∃ r, SysWritten s r q 0o421 w (w &&& 0o177777) := by
  have h := SysView.Written.sealVal (sysView s q) q (bits w 15 0)
  rw [ofNat_bits_low w (by omega)] at h
  exact ⟨_, .of_sys rfl h⟩

theorem sysWritten_sweepQ {i : Nat} (hi : i < 8) : ∃ r, SysWritten s r q (0o411 + i) w w := by
  refine ⟨_, .of_sys ?_ (SysView.Written.sweepQ (sysView s q) q hi)⟩
  interval_cases i <;> rfl

theorem sysWritten_dump {i : Nat} (hi : i < 3) : ∃ r, SysWritten s r q (0o451 + i) w ([w, w, w &&& 0o177777].getD i 0) := by
  have h := SysView.Written.dump (sysView s q) q (b := [w, w, w &&& 0o177777].getD i 0) rfl hi
  interval_cases i <;> exact ⟨_, .of_galley rfl h⟩

theorem sysWritten_mapBase {i : Nat} (hi : i < 256) : ∃ r, SysWritten s r q (0o1000 + i) w (w &&& 0o777777774000) := by
  refine ⟨_, .of_sys ?_ (SysView.Written.mapBase (sysView s q) q hi)⟩
  have hne : ∀ k, k < 512 → 512 + i ≠ k := by omega
  have hle : ∀ k, k < 512 → ¬512 + i ≤ k := by omega
  have hu : 512 + i ≤ 767 := by omega
  simp [sysWrite, inR, hne, hle, hu, sysView, viewOf]

theorem bank_saveWordSet (v : SaveSet) (o : Nat) : (saveWordSet v o w).bank = v.bank := by
  unfold saveWordSet
  split_ifs <;> rfl

theorem sysWritten_set {i o : Nat} {old : Word} (hi : i < 3) (ho : o < 15)
    (hold : sysValue s q (0o100 + 16 * i + o) = some old) : ∃ r, SysWritten s r q (0o100 + 16 * i + o) w
      (if o < 8 ∨ o = 12 then w else if o = 8 then w &&& 0o17767 else old) := by
  have hne : ∀ k, k < 64 → 64 + 16 * i + o ≠ k := by omega
  have hle : ¬64 + 16 * i + o ≤ 13 := by omega
  have h1 : 64 + 16 * i + o ≤ 110 := by omega
  have h1' : 64 ≤ 64 + 16 * i + o := by omega
  have h2 : (64 + 16 * i + o - 64) / 16 = i := by omega
  have h3 : (64 + 16 * i + o) % 16 = o := by omega
  have hx := sets_getElem (getSeat s q) hi
  have hset : setWord (saveSet (getSeat s q) i) o = old := by
    simpa [sysValue, hne, hle, h1, h1', h2, h3, hx] using hold
  refine ⟨_, .of_set hi ?_ (bank_saveWordSet w (saveSet (getSeat s q) i) o)
    (SysView.Written.sets (sysView s q) q hx hi ho hset)⟩
  simp [sysWrite, inR, hne, hle, h1, h1', svIndex, h2, h3]
  rfl

/-- A word that SYSRD gives and that a SYSWR writes back whole or under its mask: the write is done, the word reads so, and no
other word changes (04 R126). -/
theorem sysWritten_of_back {n : Nat} {old b : Word} (hv : sysValue s q n = some old) (hb : sysBack n w old = some b) :
    ∃ r, SysWritten s r q n w b := by
  unfold sysBack at hb
  obtain ⟨rfl, ⟨⟩⟩ | ⟨-, hb⟩ := ite_eq_iff.1 hb
  · exact sysWritten_ctx s q w (i := 0) (by omega)
  obtain ⟨rfl, ⟨⟩⟩ | ⟨-, hb⟩ := ite_eq_iff.1 hb
  · exact sysWritten_ctx s q w (i := 1) (by omega)
  obtain ⟨hn, ⟨⟩⟩ | ⟨-, hb⟩ := ite_eq_iff.1 hb
  · obtain rfl | rfl | rfl | rfl | rfl | rfl | ⟨h1, h2⟩ := hn
    · exact sysWritten_ctx s q w (i := 2) (by omega)
    · exact sysWritten_ctx s q w (i := 3) (by omega)
    · exact sysWritten_watch s q w (i := 0) (by omega)
    · exact sysWritten_watch s q w (i := 1) (by omega)
    · exact sysWritten_dump s q w (i := 0) (by omega)
    · exact sysWritten_dump s q w (i := 1) (by omega)
    · obtain ⟨i, rfl⟩ := Nat.exists_eq_add_of_le h1
      exact sysWritten_sweepQ s q w (by omega)
  obtain ⟨rfl, ⟨⟩⟩ | ⟨-, hb⟩ := ite_eq_iff.1 hb
  · exact sysWritten_ctx s q w (i := 4) (by omega)
  obtain ⟨⟨h1, h2, h3⟩, ⟨⟩⟩ | ⟨-, hb⟩ := ite_eq_iff.1 hb
  · have hn : 0o100 + 16 * ((n - 0o100) / 16) + n % 16 = n := by omega
    have h := sysWritten_set s q w (i := (n - 0o100) / 16) (o := n % 16) (by omega) (by omega) (by rwa [hn])
    rwa [hn] at h
  obtain ⟨⟨h1, h2⟩, ⟨⟩⟩ | ⟨-, hb⟩ := ite_eq_iff.1 hb
  · obtain ⟨i, rfl⟩ := Nat.exists_eq_add_of_le h1
    exact sysWritten_mask s q w (by omega)
  obtain ⟨rfl, ⟨⟩⟩ | ⟨-, hb⟩ := ite_eq_iff.1 hb
  · exact sysWritten_watch s q w (i := 2) (by omega)
  obtain ⟨hn, ⟨⟩⟩ | ⟨-, hb⟩ := ite_eq_iff.1 hb
  · obtain rfl | rfl | rfl | rfl := hn
    · exact sysWritten_resid s q w
    · exact sysWritten_sealIndex s q w
    · exact sysWritten_sealVal s q w
    · exact sysWritten_dump s q w (i := 2) (by omega)
  obtain ⟨⟨h1, h2⟩, ⟨⟩⟩ | ⟨-, hb⟩ := ite_eq_iff.1 hb
  · obtain ⟨i, rfl⟩ := Nat.exists_eq_add_of_le h1
    exact sysWritten_mapBase s q w (by omega)
  · cases hb
end

/-- A granted SYSWR of such a word (04 R126). -/
theorem syswr_writes {s s1 : State} {q : SeatNo} {ra : Reg} {sw : BitVec 12} {b old : Word}
    (hi : Issues s q (.syswr q ra sw) s1) (hg : sysGranted s1 q sw.toNat true (wGet s1 q.val ra.toNat) = true)
    (hv : sysValue s1 q.val sw.toNat = some old) (hb : sysBack sw.toNat (wGet s1 q.val ra.toNat) old = some b) :
    ∃ t, exec (.syswr q ra sw) s = .next t ∧
      (t.mem = s1.mem ∧ (∀ r, wGet t q.val r = wGet s1 q.val r) ∧ ∀ r, cGet t q.val r = cGet s1 q.val r) ∧
      sysValue t q.val sw.toNat = some b ∧
      ∀ m, m ≠ sw.toNat → (sw.toNat = 0o400 → m ≠ 0o401) → sysValue t q.val m = sysValue s1 q.val m := by
  obtain ⟨r, h⟩ := sysWritten_of_back s1 q.val _ hv hb
  have he : exec (.syswr q ra sw) s = sysRow q (.syswr q ra sw) ra sw.toNat (fun _ _ => true) s := rfl
  obtain ⟨t, ht, hgo⟩ := sysRow_goesOn he hi rfl hg h.write h.pairs
  refine ⟨t, ht, ⟨hgo.mem.trans h.mem, fun k => (hgo.wGet k).trans (h.wGet k), fun k => (hgo.cGet k).trans (h.cGet k)⟩, ?_,
    fun m hm hl => ?_⟩
  · rw [hgo.sysValue]
    exact h.view.1
  · rw [hgo.sysValue]
    exact h.view.2 m hm hl

end Sys2Proof.Machine
end

section

namespace Sys2Proof.Machine

/-! SV_XFER: the granules of the save sets and the trap vectors, and c11 (07 R218). -/

/-- The granules that a seat and the trap vectors give SV_XFER. -/
def granulesOf (x : Seat) (v : SMap Cap) : List Cap :=
  [x.svStroke.pcc, x.svStroke.granB, x.svBow.pcc, x.svBow.granB, x.svM.pcc, x.svM.granB] ++
    (List.range 5).map fun i => smGet {} v (6 + i)

theorem svGranules_eq (s : State) (q : Nat) : svGranules s q = granulesOf (getSeat s q) s.sys.vectors := rfl

theorem svGranules_modSeat (s : State) (q : Nat) (f : Seat → Seat) :
    svGranules (modSeat s q f) q = granulesOf (f (getSeat s q)) s.sys.vectors :=
  congrArg (granulesOf · s.sys.vectors) (getSeat_modSeat_self ..)

theorem GoesOn.svGranules {q : Nat} {r t : State} (h : GoesOn q r t) : svGranules t q = svGranules r q := by
  rw [svGranules_eq, svGranules_eq, h.sys]
  exact h.field (granulesOf · r.sys.vectors) fun _ _ => rfl

theorem xferGet_eq (s : State) (q : Nat) {sel : Nat} (h : sel ≤ 10) : xferGet s q sel = (svGranules s q).getD sel {} := by
  interval_cases sel <;> rfl

theorem granulesOf_smSet (x : Seat) (v : SMap Cap) {i : Nat} (h : i < 5) (c : Cap) :
    granulesOf x (smSet {} v (6 + i) c) = (granulesOf x v).set (6 + i) c := by
  interval_cases i <;> simp [granulesOf, List.range_succ, smGet_smSet]

/-- A granule written reads back with its tag, and no other changes (07 R218). -/
theorem svGranules_xferSet (s : State) (q : Nat) {sel : Nat} (h : sel ≤ 10) (c : Cap) :
    svGranules (xferSet s q sel c) q = (svGranules s q).set sel c := by
  interval_cases sel
  iterate 6 exact svGranules_modSeat ..
  · exact granulesOf_smSet _ _ (i := 0) (by omega) c
  · exact granulesOf_smSet _ _ (i := 1) (by omega) c
  · exact granulesOf_smSet _ _ (i := 2) (by omega) c
  · exact granulesOf_smSet _ _ (i := 3) (by omega) c
  · exact granulesOf_smSet _ _ (i := 4) (by omega) c

/-- What a write of a granule leaves. -/
theorem xferSet_keeps (s : State) (q sel : Nat) (c : Cap) : (xferSet s q sel c).mem = s.mem ∧
    curBank (getSeat (xferSet s q sel c) q) = curBank (getSeat s q) ∧ (xferSet s q sel c).coxes = s.coxes := by
  have hm : ∀ f : Seat → Seat, (∀ x, curBank (f x) = curBank x) → (modSeat s q f).mem = s.mem ∧
      curBank (getSeat (modSeat s q f) q) = curBank (getSeat s q) ∧ (modSeat s q f).coxes = s.coxes :=
    fun f h => ⟨rfl, by rw [getSeat_modSeat_self, h], rfl⟩
  unfold xferSet
  split
  case h_7 => exact ⟨rfl, rfl, rfl⟩
  all_goals exact hm _ fun _ => rfl

section
variable {s s1 : State} {q : SeatNo} {ra : Reg} (hg : sysGranted s1 q 0o164 true (wGet s1 q.val ra.toNat) = true)
include hg

theorem svXferLoad_moves (hi : Issues s q (.svXferLoad q ra) s1) (hb : bit (wGet s1 q.val ra.toNat) 5 = false) :
    ∃ t, exec (.svXferLoad q ra) s = .next t ∧ t.mem = s1.mem ∧ svGranules t q.val = svGranules s1 q.val ∧
      (∀ r, wGet t q.val r = wGet s1 q.val r) ∧
      ∀ r, cGet t q.val r = if r = 11 ∧ bits (wGet s1 q.val ra.toNat) 4 0 ≤ 10
        then (svGranules s1 q.val).getD (bits (wGet s1 q.val ra.toNat) 4 0) {} else cGet s1 q.val r := by
  have he : exec (.svXferLoad q ra) s = sysRow q (.svXferLoad q ra) ra 0o164 (fun _ w => !bit w 5) s := rfl
  have hw : sysWrite s1 q.val 0o164 (wGet s1 q.val ra.toNat) = (none, xferWrite s1 q.val (wGet s1 q.val ra.toNat)) := rfl
  have hgo := sysRow_goesOn he hi (by rw [hb]; rfl) hg hw
  rw [xferWrite, hb] at hgo
  by_cases hsel : bits (wGet s1 q.val ra.toNat) 4 0 ≤ 10
  · rw [if_neg (by omega), if_neg (by decide), xferGet_eq _ _ hsel] at hgo
    obtain ⟨t, ht, h⟩ := hgo (pairOver_cSet ..)
    refine ⟨t, ht, h.mem, ?_, fun r => ?_, fun r => ?_⟩
    · rw [h.svGranules]
      exact svGranules_modSeat ..
    · rw [h.wGet, wGet_cSet]
    · rw [h.cGet, cGet_cSet]
      exact if_congr (by simp [hsel]) rfl rfl
  · rw [if_pos (by omega)] at hgo
    obtain ⟨t, ht, h⟩ := hgo rfl
    refine ⟨t, ht, h.mem, h.svGranules, h.wGet, fun r => ?_⟩
    rw [h.cGet, if_neg fun hr => hsel hr.2]

theorem svXferStore_moves (hi : Issues s q (.svXferStore q ra) s1) (hb : bit (wGet s1 q.val ra.toNat) 5 = true) :
    ∃ t, exec (.svXferStore q ra) s = .next t ∧
      (t.mem = s1.mem ∧ (∀ r, wGet t q.val r = wGet s1 q.val r) ∧ ∀ r, cGet t q.val r = cGet s1 q.val r) ∧
      svGranules t q.val = (svGranules s1 q.val).set (bits (wGet s1 q.val ra.toNat) 4 0) (cGet s1 q.val 11) := by
  have he : exec (.svXferStore q ra) s = sysRow q (.svXferStore q ra) ra 0o164 (fun _ w => bit w 5) s := rfl
  have hw : sysWrite s1 q.val 0o164 (wGet s1 q.val ra.toNat) = (none, xferWrite s1 q.val (wGet s1 q.val ra.toNat)) := rfl
  have hgo := sysRow_goesOn he hi hb hg hw
  rw [xferWrite, if_pos hb] at hgo
  by_cases hsel : bits (wGet s1 q.val ra.toNat) 4 0 ≤ 10
  · rw [if_neg (by omega)] at hgo
    obtain ⟨hm, hk, hc⟩ := xferSet_keeps s1 q.val (bits (wGet s1 q.val ra.toNat) 4 0) (cGet s1 q.val 11)
    obtain ⟨t, ht, h⟩ := hgo (pairOver_congr hc (by rw [hk]) (by rw [hk]))
    exact ⟨t, ht, ⟨h.mem.trans hm, fun r => (h.wGet r).trans (congrArg (bankW · r) hk),
      fun r => (h.cGet r).trans (congrArg (bankC · r) hk)⟩, h.svGranules.trans (svGranules_xferSet _ _ hsel _)⟩
  · rw [if_pos (by omega)] at hgo
    obtain ⟨t, ht, h⟩ := hgo rfl
    refine ⟨t, ht, ⟨h.mem, h.wGet, h.cGet⟩, h.svGranules.trans (List.set_eq_of_length_le ?_).symm⟩
    exact Nat.lt_of_not_le hsel

end
end Sys2Proof.Machine
end

section

namespace Sys2Proof.Machine

/-! BANK_SEL and BANK_DATA: the registers of another bank (07 R219). -/

theorem bits_mask12 (w : Word) {hi lo : Nat} (h : hi < 12) : bits (w &&& 0o7777) hi lo = bits w hi lo := by
  refine bits_congr fun i _ hi' => ?_
  have : i < 12 := by omega
  rw [BitVec.getLsbD_and]
  interval_cases i <;> simp

theorem bit_mask12 (w : Word) {n : Nat} (h : n < 12) : bit (w &&& 0o7777) n = bit w n := by
  rw [bit_eq_getLsbD, bit_eq_getLsbD, BitVec.getLsbD_and]
  interval_cases n <;> simp

theorem bankSetC_pcc (b : Bank) (r : Nat) (v : Cap) : (bankSetC b r v).pcc = b.pcc := by
  unfold bankSetC
  split <;> rfl

theorem bankSetW_pcc (b : Bank) (r : Nat) (v : Word) : (bankSetW b r v).pcc = b.pcc := by
  unfold bankSetW
  split <;> rfl

/-- Seats of the same STATUS whose banks differ in registers alone. -/
structure RegsAlone (x y : Seat) : Prop where
  status : y.status = x.status
  role : ∀ i, (getBank y i).role = (getBank x i).role
  pairBuf : ∀ i, (getBank y i).pairBuf = (getBank x i).pairBuf

theorem RegsAlone.modBank (x : Seat) (b : Nat) {f : Bank → Bank} (hr : ∀ k, (f k).role = k.role)
    (hp : ∀ k, (f k).pairBuf = k.pairBuf) : RegsAlone x (modBank x b f) where
  status := rfl
  role i := by
    rw [getBank_modBank]
    split
    · next h => rw [hr, h]
    · rfl
  pairBuf i := by
    rw [getBank_modBank]
    split
    · next h => rw [hp, h]
    · rfl

theorem pairOver_regsAlone (s : State) (q : Nat) {f : Seat → Seat} (h : RegsAlone (getSeat s q) (f (getSeat s q))) :
    pairOver (modSeat s q f) q = pairOver s q := by
  refine pairOver_congr rfl ?_ ?_
  · rw [getSeat_modSeat_self, curBank, h.status, h.role]
    rfl
  · rw [getSeat_modSeat_self, curBank, h.status, h.pairBuf]
    rfl

/-- The capability register that BANK_SEL names, written in its bank. -/
def selPut (w : Word) (c : Cap) (b : Bank) : Bank :=
  if selReg w = 16 then { b with pcc := asPcc c } else if selReg w < 16 then bankSetC b (selReg w) c else b

theorem selSet_eq (x : Seat) (w : Word) (c : Cap) :
    selSet x w c = if 8 ≤ selBank w then x else modBank x (selBank w) (selPut w c) := rfl

section
variable (w : Word) (c : Cap) (b : Bank)

theorem bankW_selPut (j : Nat) : bankW (selPut w c b) j = bankW b j := by
  unfold selPut
  split
  · rfl
  · split
    · exact bankW_bankSetC ..
    · rfl

theorem bankC_selPut (j : Nat) : bankC (selPut w c b) j =
    if j = selReg w ∧ 1 ≤ selReg w ∧ selReg w < 16 then c else bankC b j := by
  unfold selPut
  split
  · rw [if_neg (by omega)]
    rfl
  · split
    · rw [bankC_bankSetC]
      exact if_congr (by omega) rfl rfl
    · rw [if_neg (by omega)]

theorem pcc_selPut : (selPut w c b).pcc = if selReg w = 16 then asPcc c else b.pcc := by
  unfold selPut
  split
  · rfl
  · split
    · exact bankSetC_pcc ..
    · rfl

theorem pair_selPut : (selPut w c b).role = b.role ∧ (selPut w c b).pairBuf = b.pairBuf := by
  unfold selPut bankSetC
  split_ifs <;> exact ⟨rfl, rfl⟩

end

section
variable (x : Seat) (w : Word) (c : Cap)

theorem getBank_selSet (i : Nat) : getBank (selSet x w c) i =
    if i = selBank w ∧ selBank w < 8 then selPut w c (getBank x i) else getBank x i := by
  rw [selSet_eq]
  split
  · rw [if_neg (by omega)]
  · next h =>
    rw [getBank_modBank]
    by_cases hi : i = selBank w
    · rw [if_pos hi, if_pos ⟨hi, by omega⟩, hi]
    · rw [if_neg hi, if_neg fun h => hi h.1]

theorem regsAlone_selSet : RegsAlone x (selSet x w c) := by
  rw [selSet_eq]
  split
  · exact ⟨rfl, fun _ => rfl, fun _ => rfl⟩
  · exact .modBank x _ (fun k => (pair_selPut w c k).1) fun k => (pair_selPut w c k).2

theorem bankW_selSet (i j : Nat) : bankW (getBank (selSet x w c) i) j = bankW (getBank x i) j := by
  rw [getBank_selSet]
  split
  · exact bankW_selPut ..
  · rfl

theorem bankC_selSet (i j : Nat) : bankC (getBank (selSet x w c) i) j =
    if i = selBank w ∧ selBank w < 8 ∧ j = selReg w ∧ 1 ≤ selReg w ∧ selReg w < 16 then c else bankC (getBank x i) j := by
  rw [getBank_selSet]
  split
  · next h =>
    rw [bankC_selPut]
    exact if_congr (by simp [h]) rfl rfl
  · next h => rw [if_neg fun hi => h ⟨hi.1, hi.2.1⟩]

theorem pcc_selSet (i : Nat) : (getBank (selSet x w c) i).pcc =
    if i = selBank w ∧ selBank w < 8 ∧ selReg w = 16 then asPcc c else (getBank x i).pcc := by
  rw [getBank_selSet]
  split
  · next h =>
    rw [pcc_selPut]
    exact if_congr (by simp [h]) rfl rfl
  · next h => rw [if_neg fun hi => h ⟨hi.1, hi.2.1⟩]

end

/-- The seat with BANK_SEL written, without its CMD. -/
def selected (x : Seat) (v : Word) : Seat := { x with bankSel := v &&& 0o7777 }

theorem selCap_mask (v : Word) : selCap (v &&& 0o7777) = bit v 7 := bit_mask12 v (by omega)
theorem selBank_mask (v : Word) : selBank (v &&& 0o7777) = bits v 11 8 := bits_mask12 v (by omega)
theorem selReg_mask (v : Word) : selReg (v &&& 0o7777) = bits v 4 0 := bits_mask12 v (by omega)

/-- The register that BANK_SEL names, null outside the file. -/
theorem selGet_getD (x : Seat) (w : Word) : (selGet x w).getD {} =
    if 8 ≤ selBank w ∨ 16 < selReg w then {}
    else if selReg w = 16 then (getBank x (selBank w)).pcc else bankC (getBank x (selBank w)) (selReg w) := by
  unfold selGet
  by_cases hb : 8 ≤ selBank w
  · rw [if_pos hb, if_pos (.inl hb)]
    rfl
  · rw [if_neg hb]
    dsimp only
    by_cases h16 : selReg w = 16
    · rw [if_pos h16, if_neg (by omega), if_pos h16]
      rfl
    · rw [if_neg h16, if_neg h16]
      by_cases hr : 1 ≤ selReg w ∧ selReg w < 16
      · rw [if_pos hr, if_neg (by omega)]
        rfl
      · rw [if_neg hr]
        by_cases h0 : selReg w = 0
        · rw [if_neg (by omega), h0]
          rfl
        · rw [if_pos (by omega)]
          rfl

/-- CMD 1 (07 R219). -/
theorem bankSelPut_fetch (x : Seat) {v : Word} (h : bits v 13 12 = 1) : bankSelPut x v =
    if bit v 7 = true then modBank (selected x v) 8 fun b => bankSetC b 11 ((selGet (selected x v) (v &&& 0o7777)).getD {})
    else selected x v := by
  unfold bankSelPut
  dsimp only
  rw [selCap_mask, h, if_pos rfl]
  cases bit v 7
  · rfl
  · simp only [Bool.not_true, Bool.false_eq_true, if_false, if_true]
    change (match selGet (selected x v) (v &&& 0o7777) with | some c => _ | none => _) = _
    cases selGet (selected x v) (v &&& 0o7777) <;> rfl

/-- CMD 2 (07 R219). -/
theorem bankSelPut_place (x : Seat) {v : Word} (h : bits v 13 12 = 2) : bankSelPut x v =
    if bit v 7 = true then selSet (selected x v) (v &&& 0o7777) (bankC (getBank x 8) 11) else selected x v := by
  unfold bankSelPut
  dsimp only
  rw [selCap_mask, h, if_neg (show ¬(2 : Nat) = 1 by decide), if_pos rfl]
  cases bit v 7 <;> rfl

theorem RegsAlone.of_selected {x y : Seat} {v : Word} (h : RegsAlone (selected x v) y) : RegsAlone x y := ⟨h.status, h.role, h.pairBuf⟩

theorem role_bankSetC (b : Bank) (r : Nat) (c : Cap) : (bankSetC b r c).role = b.role := by
  unfold bankSetC
  split <;> rfl

theorem pairBuf_bankSetC (b : Bank) (r : Nat) (c : Cap) : (bankSetC b r c).pairBuf = b.pairBuf := by
  unfold bankSetC
  split <;> rfl

section
variable (x : Seat) {v : Word} (h : bits v 13 12 = 1)
include h

theorem bankSel_fetch : (bankSelPut x v).bankSel = v &&& 0o7777 := by
  rw [bankSelPut_fetch x h]
  split <;> rfl

theorem regsAlone_fetch : RegsAlone x (bankSelPut x v) := by
  rw [bankSelPut_fetch x h]
  refine RegsAlone.of_selected (v := v) ?_
  split
  · exact .modBank _ _ (fun _ => role_bankSetC ..) fun _ => pairBuf_bankSetC ..
  · exact ⟨rfl, fun _ => rfl, fun _ => rfl⟩

/-- The banks after CMD 1: c11 of T alone can differ. -/
theorem getBank_fetch (i : Nat) : getBank (bankSelPut x v) i = if bit v 7 = true ∧ i = 8
    then bankSetC (getBank x 8) 11 ((selGet (selected x v) (v &&& 0o7777)).getD {}) else getBank x i := by
  rw [bankSelPut_fetch x h]
  split
  · next hb =>
    rw [getBank_modBank]
    exact if_congr (by simp [hb]) rfl rfl
  · next hb => exact (if_neg fun hi => hb hi.1).symm

theorem bankW_fetch (i j : Nat) : bankW (getBank (bankSelPut x v) i) j = bankW (getBank x i) j := by
  rw [getBank_fetch x h]
  split
  · next hi => rw [bankW_bankSetC, hi.2]
  · rfl

theorem bankC_fetch (i j : Nat) : bankC (getBank (bankSelPut x v) i) j = if bit v 7 = true ∧ i = 8 ∧ j = 11
    then (selGet (selected x v) (v &&& 0o7777)).getD {} else bankC (getBank x i) j := by
  rw [getBank_fetch x h]
  split
  · next hi =>
    rw [bankC_bankSetC, hi.2]
    exact if_congr (by simp [hi]) rfl rfl
  · next hi => rw [if_neg fun hj => hi ⟨hj.1, hj.2.1⟩]

end

section
variable (x : Seat) {v : Word} (h : bits v 13 12 = 2)
include h

theorem bankSel_place : (bankSelPut x v).bankSel = v &&& 0o7777 := by
  rw [bankSelPut_place x h, selSet_eq]
  split_ifs <;> rfl

theorem regsAlone_place : RegsAlone x (bankSelPut x v) := by
  rw [bankSelPut_place x h]
  refine RegsAlone.of_selected (v := v) ?_
  split
  · exact regsAlone_selSet ..
  · exact ⟨rfl, fun _ => rfl, fun _ => rfl⟩

theorem bankW_place (i j : Nat) : bankW (getBank (bankSelPut x v) i) j = bankW (getBank x i) j := by
  rw [bankSelPut_place x h]
  split
  · exact bankW_selSet ..
  · rfl

theorem bankC_place (i j : Nat) : bankC (getBank (bankSelPut x v) i) j =
    if bit v 7 = true ∧ i = bits v 11 8 ∧ bits v 11 8 < 8 ∧ j = bits v 4 0 ∧ 1 ≤ bits v 4 0 ∧ bits v 4 0 < 16
      then bankC (getBank x 8) 11 else bankC (getBank x i) j := by
  rw [bankSelPut_place x h]
  split
  · next hb =>
    rw [bankC_selSet, selBank_mask, selReg_mask]
    exact if_congr (by simp [hb]) rfl rfl
  · next hb => exact (if_neg fun hi => hb hi.1).symm

theorem pcc_place (i : Nat) : (getBank (bankSelPut x v) i).pcc =
    if bit v 7 = true ∧ i = bits v 11 8 ∧ bits v 11 8 < 8 ∧ bits v 4 0 = 16 then asPcc (bankC (getBank x 8) 11)
      else (getBank x i).pcc := by
  rw [bankSelPut_place x h]
  split
  · next hb =>
    rw [pcc_selSet, selBank_mask, selReg_mask]
    exact if_congr (by simp [hb]) rfl rfl
  · next hb => exact (if_neg fun hi => hb hi.1).symm

end

/-- The register that BANK_SEL names is one of the file. -/
theorem selGet_some {x : Seat} {w : Word} {c : Cap} (h : selGet x w = some c) : selBank w < 8 ∧
    (selReg w = 16 ∧ c = (getBank x (selBank w)).pcc ∨
      1 ≤ selReg w ∧ selReg w < 16 ∧ c = bankC (getBank x (selBank w)) (selReg w)) := by
  unfold selGet at h
  split at h
  · cases h
  · dsimp only at h
    split at h
    · cases h
      exact ⟨by omega, .inl ⟨by assumption, rfl⟩⟩
    · split at h
      · next hr =>
        cases h
        exact ⟨by omega, .inr ⟨hr.1, hr.2, rfl⟩⟩
      · cases h

theorem selGet_none {x : Seat} {w : Word} (h : selGet x w = none) : 8 ≤ selBank w ∨ selReg w = 0 ∨ 16 < selReg w := by
  unfold selGet at h
  by_contra hn
  rw [if_neg (by omega)] at h
  dsimp only at h
  split at h
  · cases h
  · rw [if_pos (by omega)] at h
    cases h

/-- A granule with a word written has no tag (07 R219). -/
theorem capPutWord_reads (c : Cap) {k : Nat} (hk : k < 4) (v : Word) : (capPutWord c k v).tag = false ∧
    ∀ i, i < 4 → granuleWord (capPutWord c k v) i = if i = k then v else granuleWord c i := by
  refine ⟨?_, fun i hi => ?_⟩
  · interval_cases k <;> rfl
  · interval_cases k <;> interval_cases i <;> rfl

theorem asPcc_untagged {c : Cap} (h : c.tag = false) : asPcc c = c := by
  unfold asPcc
  rw [h, Bool.false_and, ← h]

section
variable (x : Seat) (v : Word)

/-- BANK_DATA written where BANK_SEL names a word register, or none. -/
theorem bankDataPut_word (h : selCap x.bankSel = false) : bankDataPut x v = if selBank x.bankSel < 8
    then modBank x (selBank x.bankSel) fun b => bankSetW b (selReg x.bankSel) v else x := by
  unfold bankDataPut
  simp only [h, Bool.false_eq_true, if_false]

/-- BANK_DATA written where BANK_SEL names a capability register, or none. -/
theorem bankDataPut_cap (h : selCap x.bankSel = true) : bankDataPut x v = x ∧
      (8 ≤ selBank x.bankSel ∨ selReg x.bankSel = 0 ∨ 16 < selReg x.bankSel) ∨
    ∃ c, selGet x x.bankSel = some c ∧ bankDataPut x v = selSet x x.bankSel (capPutWord c (selWord x.bankSel) v) := by
  unfold bankDataPut
  simp only [h, if_true]
  cases hc : selGet x x.bankSel with
  | none => exact .inl ⟨rfl, selGet_none hc⟩
  | some c => exact .inr ⟨c, rfl, rfl⟩

theorem regsAlone_bankDataPut : RegsAlone x (bankDataPut x v) := by
  have hid : RegsAlone x x := ⟨rfl, fun _ => rfl, fun _ => rfl⟩
  by_cases h : selCap x.bankSel = true
  · obtain ⟨hx, -⟩ | ⟨c, -, hx⟩ := bankDataPut_cap x v h
    · rw [hx]
      exact hid
    · rw [hx]
      exact regsAlone_selSet ..
  · rw [bankDataPut_word x v (by simpa using h)]
    split
    · refine .modBank x _ (fun k => ?_) fun k => ?_ <;> unfold bankSetW <;> split <;> rfl
    · exact hid

theorem bankW_bankDataPut (i j : Nat) : bankW (getBank (bankDataPut x v) i) j =
    if selCap x.bankSel = false ∧ i = selBank x.bankSel ∧ selBank x.bankSel < 8 ∧ j = selReg x.bankSel ∧ selReg x.bankSel ≠ 0
      then v else bankW (getBank x i) j := by
  cases h : selCap x.bankSel with
  | true =>
    rw [if_neg fun hn => Bool.noConfusion hn.1]
    obtain ⟨hx, -⟩ | ⟨c, -, hx⟩ := bankDataPut_cap x v h <;> rw [hx]
    exact bankW_selSet ..
  | false =>
    rw [bankDataPut_word x v h]
    by_cases hb : selBank x.bankSel < 8
    · rw [if_pos hb, getBank_modBank]
      split
      · next hi =>
        rw [bankW_bankSetW, hi]
        exact if_congr (by simp [hb]) rfl rfl
      · next hi => exact (if_neg fun hn => hi hn.2.1).symm
    · rw [if_neg hb, if_neg fun hn => hb hn.2.2.1]

theorem bankC_bankDataPut (i j : Nat) : bankC (getBank (bankDataPut x v) i) j =
    if selCap x.bankSel = true ∧ i = selBank x.bankSel ∧ selBank x.bankSel < 8 ∧ j = selReg x.bankSel ∧ 1 ≤ selReg x.bankSel ∧
        selReg x.bankSel < 16
      then capPutWord (bankC (getBank x i) j) (selWord x.bankSel) v else bankC (getBank x i) j := by
  cases h : selCap x.bankSel with
  | false =>
    rw [if_neg fun hn => Bool.noConfusion hn.1, bankDataPut_word x v h]
    split
    · rw [getBank_modBank]
      split
      · next hi => rw [bankC_bankSetW, hi]
      · rfl
    · rfl
  | true =>
    obtain ⟨hx, ho⟩ | ⟨c, hc, hx⟩ := bankDataPut_cap x v h <;> rw [hx]
    · rw [if_neg (by omega)]
    · rw [bankC_selSet]
      split
      · next hi =>
        obtain ⟨-, ⟨h16, -⟩ | ⟨-, -, rfl⟩⟩ := selGet_some hc
        · omega
        · rw [if_pos ⟨rfl, hi⟩, hi.1, hi.2.2.1]
      · next hi => exact (if_neg fun hn => hi hn.2).symm

theorem pcc_bankDataPut (i : Nat) : (getBank (bankDataPut x v) i).pcc =
    if selCap x.bankSel = true ∧ i = selBank x.bankSel ∧ selBank x.bankSel < 8 ∧ selReg x.bankSel = 16
      then capPutWord (getBank x i).pcc (selWord x.bankSel) v else (getBank x i).pcc := by
  cases h : selCap x.bankSel with
  | false =>
    rw [if_neg fun hn => Bool.noConfusion hn.1, bankDataPut_word x v h]
    split
    · rw [getBank_modBank]
      split
      · next hi => rw [bankSetW_pcc, hi]
      · rfl
    · rfl
  | true =>
    have hk : selWord x.bankSel < 4 := bits_lt x.bankSel 6 5
    obtain ⟨hx, ho⟩ | ⟨c, hc, hx⟩ := bankDataPut_cap x v h <;> rw [hx]
    · rw [if_neg (by omega)]
    · rw [pcc_selSet]
      split
      · next hi =>
        obtain ⟨-, ⟨-, rfl⟩ | ⟨-, h16, -⟩⟩ := selGet_some hc
        · rw [if_pos ⟨rfl, hi⟩, asPcc_untagged (capPutWord_reads _ hk v).1, hi.1]
        · omega
      · next hi => exact (if_neg fun hn => hi hn.2).symm

end

section
variable {s s1 : State} {q : SeatNo} {ra : Reg}

/-- BANK_SEL with CMD 1 (07 R219). -/
theorem bankSelFetch_moves (hg : sysGranted s1 q 0o165 true (wGet s1 q.val ra.toNat) = true)
    (hi : Issues s q (.bankSelFetch q ra) s1) (hc : bits (wGet s1 q.val ra.toNat) 13 12 = 1) :
    ∃ t, exec (.bankSelFetch q ra) s = .next t ∧ t.mem = s1.mem ∧
      let w := wGet s1 q.val ra.toNat
      let x := getSeat s1 q.val
      let y := getSeat t q.val
      let b := bits w 11 8
      let r := bits w 4 0
      y.bankSel = w &&& 0o7777 ∧ (∀ i j, bankW (getBank y i) j = bankW (getBank x i) j) ∧
      (∀ i j, (i ≠ 8 ∨ j ≠ 11) → bankC (getBank y i) j = bankC (getBank x i) j) ∧
      (bit w 7 = false → bankC (getBank y 8) 11 = bankC (getBank x 8) 11) ∧
      (bit w 7 = true → bankC (getBank y 8) 11 =
        if 8 ≤ b ∨ 16 < r then {} else if r = 16 then (getBank x b).pcc else bankC (getBank x b) r) := by
  have he : exec (.bankSelFetch q ra) s = sysRow q (.bankSelFetch q ra) ra 0o165 (fun _ w => bits w 13 12 == 1) s := rfl
  obtain ⟨t, ht, h⟩ := sysRow_goesOn he hi (beq_iff_eq.2 hc) hg rfl (pairOver_regsAlone s1 q.val (regsAlone_fetch _ hc))
  have hC : ∀ i j, bankC (getBank (getSeat t q.val) i) j = _ := fun i j => by
    rw [h.bankC, getSeat_modSeat_self, bankC_fetch _ hc]
  refine ⟨t, ht, h.mem, ?_, fun i j => ?_, fun i j hij => ?_, fun hb => ?_, fun hb => ?_⟩
  · rw [h.field Seat.bankSel fun _ _ => rfl, getSeat_modSeat_self, bankSel_fetch _ hc]
  · rw [h.bankW, getSeat_modSeat_self, bankW_fetch _ hc]
  · rw [hC, if_neg (by omega)]
  · rw [hC, if_neg (by simp [hb])]
  · rw [hC, if_pos ⟨hb, rfl, rfl⟩, selGet_getD, selBank_mask, selReg_mask]
    rfl

/-- BANK_SEL with CMD 2 (07 R219, log 89). -/
theorem bankSelPlace_moves (hg : sysGranted s1 q 0o165 true (wGet s1 q.val ra.toNat) = true)
    (hi : Issues s q (.bankSelPlace q ra) s1) (hc : bits (wGet s1 q.val ra.toNat) 13 12 = 2)
    (h8 : (getSeat s1 q.val).status.bank = 8) :
    ∃ t, exec (.bankSelPlace q ra) s = .next t ∧ t.mem = s1.mem ∧
      let w := wGet s1 q.val ra.toNat
      let x := getSeat s1 q.val
      let y := getSeat t q.val
      let b := bits w 11 8
      let r := bits w 4 0
      let c := bankC (getBank x 8) 11
      y.bankSel = w &&& 0o7777 ∧ (∀ i j, bankW (getBank y i) j = bankW (getBank x i) j) ∧
      (∀ i j, bankC (getBank y i) j = if bit w 7 = true ∧ i = b ∧ b < 8 ∧ j = r ∧ 1 ≤ r ∧ r < 16 then c else bankC (getBank x i) j) ∧
      ∀ i, i < 8 → (getBank y i).pcc =
        if bit w 7 = true ∧ i = b ∧ r = 16 then { c with tag := c.tag && holds (capRights c) rEX } else (getBank x i).pcc := by
  have he : exec (.bankSelPlace q ra) s = sysRow q (.bankSelPlace q ra) ra 0o165 (fun _ w => bits w 13 12 == 2) s := rfl
  have hr := regsAlone_place (getSeat s1 q.val) hc
  obtain ⟨t, ht, h⟩ := sysRow_goesOn he hi (beq_iff_eq.2 hc) hg rfl (pairOver_regsAlone s1 q.val hr)
  refine ⟨t, ht, h.mem, ?_, fun i j => ?_, fun i j => ?_, fun i h8' => ?_⟩
  · rw [h.field Seat.bankSel fun _ _ => rfl, getSeat_modSeat_self, bankSel_place _ hc]
  · rw [h.bankW, getSeat_modSeat_self, bankW_place _ hc]
  · rw [h.bankC, getSeat_modSeat_self, bankC_place _ hc]
  · have hb : i ≠ (bankSelPut (getSeat s1 q.val) (wGet s1 q.val ra.toNat)).status.bank := by
      rw [hr.status, h8]
      omega
    rw [h.bank_pcc (by rwa [getSeat_modSeat_self]), getSeat_modSeat_self, pcc_place _ hc]
    exact if_congr ⟨fun ⟨h1, h2, _, h3⟩ => ⟨h1, h2, h3⟩, fun ⟨h1, h2, h3⟩ => ⟨h1, h2, by omega, h3⟩⟩ rfl rfl

/-- BANK_DATA written (07 R219): what is written into a capability register has no tag. -/
theorem bankDataWrite_moves (hg : sysGranted s1 q 0o166 true (wGet s1 q.val ra.toNat) = true)
    (hi : Issues s q (.bankDataWrite q ra) s1) (h8 : (getSeat s1 q.val).status.bank = 8) :
    ∃ t, exec (.bankDataWrite q ra) s = .next t ∧ t.mem = s1.mem ∧
      let w := wGet s1 q.val ra.toNat
      let x := getSeat s1 q.val
      let y := getSeat t q.val
      let b := bits x.bankSel 11 8
      let r := bits x.bankSel 4 0
      let k := bits x.bankSel 6 5
      let cap := bit x.bankSel 7
      let put := fun old new : Cap => new.tag = false ∧ ∀ i, i < 4 → granuleWord new i = if i = k then w else granuleWord old i
      (∀ i j, bankW (getBank y i) j = if cap = false ∧ i = b ∧ b < 8 ∧ j = r ∧ r ≠ 0 then w else bankW (getBank x i) j) ∧
      (∀ i j, if cap = true ∧ i = b ∧ b < 8 ∧ j = r ∧ 1 ≤ r ∧ r < 16 then put (bankC (getBank x i) j) (bankC (getBank y i) j)
        else bankC (getBank y i) j = bankC (getBank x i) j) ∧
      ∀ i, i < 8 → if cap = true ∧ i = b ∧ r = 16 then put (getBank x i).pcc (getBank y i).pcc
        else (getBank y i).pcc = (getBank x i).pcc := by
  have he : exec (.bankDataWrite q ra) s = sysRow q (.bankDataWrite q ra) ra 0o166 (fun _ _ => true) s := rfl
  have hr := regsAlone_bankDataPut (getSeat s1 q.val) (wGet s1 q.val ra.toNat)
  have hk : selWord (getSeat s1 q.val).bankSel < 4 := bits_lt _ 6 5
  obtain ⟨t, ht, h⟩ := sysRow_goesOn he hi rfl hg rfl (pairOver_regsAlone s1 q.val hr)
  refine ⟨t, ht, h.mem, fun i j => ?_, fun i j => ?_, fun i h8' => ?_⟩
  · rw [h.bankW, getSeat_modSeat_self]
    exact bankW_bankDataPut ..
  · rw [h.bankC, getSeat_modSeat_self, bankC_bankDataPut]
    split
    · next hc => exact (if_pos hc).symm ▸ capPutWord_reads _ hk _
    · next hc => exact if_neg hc
  · have hb : i ≠ (bankDataPut (getSeat s1 q.val) (wGet s1 q.val ra.toNat)).status.bank := by
      rw [hr.status, h8]
      omega
    rw [h.bank_pcc (by rwa [getSeat_modSeat_self]), getSeat_modSeat_self, pcc_bankDataPut]
    split
    · next hc =>
      rw [if_pos ⟨hc.1, hc.2.1, lt_of_eq_of_lt hc.2.1.symm h8', hc.2.2⟩]
      exact capPutWord_reads _ hk _
    · next hc => exact if_neg fun hn => hc ⟨hn.1, hn.2.1, hn.2.2.2⟩

end

end Sys2Proof.Machine
end

section

namespace Sys2Proof.Machine

/-! MEAS_CMD: a measurement register extended by SHA-256 (18 R507). -/

theorem length_sha256Round {v : List (BitVec 32)} (h : v.length = 8) (kw : BitVec 32 × BitVec 32) : (sha256Round v kw).length = 8 := by
  unfold sha256Round
  split
  · rfl
  · exact h

theorem length_sha256Compress {st : List (BitVec 32)} (h : st.length = 8) (block : List (BitVec 32)) :
    (sha256Compress st block).length = 8 := by
  have hf : ∀ (l : List (BitVec 32 × BitVec 32)) (v : List (BitVec 32)), v.length = 8 → (l.foldl sha256Round v).length = 8 := by
    intro l
    induction l with
    | nil => exact fun _ h => h
    | cons kw l ih => exact fun v hv => ih _ (length_sha256Round hv kw)
  unfold sha256Compress
  rw [List.length_zipWith, h, hf _ _ h, Nat.min_self]

theorem length_shaBlocks_sha256 (data : List Octet) : (shaBlocks .sha256 (shaInit .sha256) data).length = 8 := by
  have hf : ∀ (l : List (List Octet)) (st : List Nat), st.length = 8 → (l.foldl (shaBlockStep .sha256) st).length = 8 := by
    intro l
    induction l with
    | nil => exact fun _ h => h
    | cons b l ih =>
      refine fun st hst => ih _ ?_
      unfold shaBlockStep
      dsimp only
      rw [List.length_map, length_sha256Compress (by rw [List.length_map, hst])]
  exact hf _ _ rfl

/-- A SHA-256 digest is 32 octets. -/
theorem length_sha256 (data : List Octet) : (sha .sha256 data).length = 32 := by
  have ho : ∀ l : List Nat, (l.flatMap (beOctets 4)).length = 4 * l.length := by
    intro l
    induction l with
    | nil => rfl
    | cons n l ih =>
      rw [List.flatMap_cons, List.length_append, ih, List.length_cons]
      change 4 + _ = _
      omega
  unfold sha shaFinish
  dsimp only [shaWordLen, shaLen]
  rw [List.length_take, ho, length_shaBlocks_sha256]
  rfl

/-- A full packed-octet word, in numbers (00 R5). -/
theorem packWord_full (a b c d : Octet) : packWord [a, b, c, d] = BitVec.ofNat 36
    (2 ^ 27 * (256 + d.toNat) + (2 ^ 18 * (256 + c.toNat) + (2 ^ 9 * (256 + b.toNat) + (256 + a.toNat)))) := by
  have ha := a.isLt
  have hb := b.isLt
  have hc := c.isLt
  have e : packWord [a, b, c, d] = field 27 (256 + d.toNat) ||| (field 18 (256 + c.toNat) ||| (field 9 (256 + b.toNat) |||
      BitVec.ofNat 36 (256 + a.toNat))) := by
    rw [← field_zero, BitVec.or_comm (field 9 _), BitVec.or_comm (field 18 _), BitVec.or_comm (field 27 _)]
    exact congrArg (fun w => w ||| field 9 _ ||| field 18 _ ||| field 27 _) (BitVec.zero_or ..)
  rw [e, field_or (by omega), field_or (by omega), field_or (by omega)]

/-- A full packed-octet word reads back (00 R5). -/
theorem packWord_reads {os : List Octet} (h : os.length = 4) {k : Nat} (hk : k < 4) :
    slotPresent (packWord os) k = true ∧ slotOctet (packWord os) k = os.getD k 0 := by
  match os, h with
  | [a, b, c, d], _ =>
    have ha := a.isLt
    have hb := b.isLt
    have hc := c.isLt
    have hd := d.isLt
    have ho : ∀ (n : Nat) (o : Octet), n % 2 ^ 8 = o.toNat → BitVec.ofNat 8 n = o := fun n o h =>
      BitVec.eq_of_toNat_eq (by rw [BitVec.toNat_ofNat, h])
    have hw : (packWord [a, b, c, d]).toNat =
        2 ^ 27 * (256 + d.toNat) + (2 ^ 18 * (256 + c.toNat) + (2 ^ 9 * (256 + b.toNat) + (256 + a.toNat))) := by
      rw [packWord_full, BitVec.toNat_ofNat, Nat.mod_eq_of_lt (by omega)]
    rw [slotPresent, slotOctet, bit, bits, hw, beq_iff_eq]
    interval_cases k <;> simp only [Nat.reduceMul, Nat.reduceAdd, Nat.reduceSub, Nat.reducePow]
    · exact ⟨by omega, ho _ a (by omega)⟩
    · exact ⟨by omega, ho _ b (by omega)⟩
    · exact ⟨by omega, ho _ c (by omega)⟩
    · exact ⟨by omega, ho _ d (by omega)⟩

/-- Octets in full packed-octet words. -/
theorem packOctets_getElem? {os : List Octet} {n : Nat} (h : 4 * (n + 1) ≤ os.length) :
    (packOctets os)[n]? = some (packWord ((os.drop (4 * n)).take 4)) := by
  have hn : n < (os.length + 4 - 1) / 4 := by omega
  rw [packOctets, chunks, List.map_map, List.getElem?_map, List.getElem?_range hn]
  rfl

theorem length_packOctets (os : List Octet) : (packOctets os).length = (os.length + 3) / 4 := by
  rw [packOctets, chunks, List.length_map, List.length_map, List.length_range]
  rfl

theorem smGetList_eq_map {α : Type} (d : α) (m : SMap α) (k n : Nat) :
    smGetList d m k n = (List.range n).map fun i => smGet d m (k + i) := by
  refine List.ext_getElem (by simp [length_smGetList]) fun i h1 _ => ?_
  rw [getElem_smGetList d m k n i h1]
  simp

/-- The words of a measurement register after an extension (18 R507). -/
theorem extendMr_reads (s : State) (i : Nat) (v : List Octet) {n k : Nat} (hn : n < 8) (hk : k < 4) :
    let d := sha .sha256 (allOctets (mrWords s i) ++ v)
    slotPresent (smGet 0 (extendMr s i v).sys.mr (8 * i + n)) k = true ∧
      slotOctet (smGet 0 (extendMr s i v).sys.mr (8 * i + n)) k = d.getD (4 * n + k) 0 := by
  intro d
  have hd : d.length = 32 := length_sha256 _
  have hl : n < (packOctets d).length := by
    rw [length_packOctets, hd]
    omega
  have hw : smGet 0 (extendMr s i v).sys.mr (8 * i + n) = packWord ((d.drop (4 * n)).take 4) := by
    refine (smGet_smSetList_inside _ _ _ _ hl).trans ?_
    rw [← Option.some.injEq, ← List.getElem?_eq_getElem, packOctets_getElem? (by omega)]
  have h4 : ((d.drop (4 * n)).take 4).length = 4 := by
    rw [List.length_take, List.length_drop]
    omega
  rw [hw]
  obtain ⟨hp, ho⟩ := packWord_reads h4 hk
  refine ⟨hp, ho.trans ?_⟩
  simp [List.getD_eq_getElem?_getD, hk]

theorem extendMr_outside (s : State) (i : Nat) (v : List Octet) {n : Nat} (h : n < 8 * i ∨ 8 * i + 8 ≤ n) :
    smGet 0 (extendMr s i v).sys.mr n = smGet 0 s.sys.mr n := by
  refine smGet_smSetList_outside _ _ _ _ ?_
  rw [length_packOctets, length_sha256]
  omega

/-- MEAS_CMD's fields as a write leaves them (18 R507). -/
def measFields (s : State) (w : Word) : State :=
  { s with sys := { s.sys with measLock := s.sys.measLock || bit w 34, measWord := bits w 5 3, measReg := bits w 2 0 } }

/-- The message words of MEAS_IN. -/
def measWords (s : State) : List Word := (List.range 8).map (smGet 0 s.sys.measIn)

theorem measCmdPut_extend (s : State) {w : Word} (h : bit w 35 = true) : measCmdPut s w =
    if (s.sys.measLock && decide (bits w 2 0 ≤ 4)) = true then measFields s w
    else if (measWords s).all (fun x => (List.range 4).all (slotPresent x)) = true then
      extendMr (measFields s w) (bits w 2 0) (allOctets (measWords s))
    else { measFields s w with sys := { (measFields s w).sys with measIgnored := s.sys.measIgnored + 1 } } := by
  have hi : smGetList 0 s.sys.measIn 0 8 = measWords s := by
    rw [smGetList_eq_map, measWords]
    exact List.map_congr_left fun i _ => by rw [Nat.zero_add]
  unfold measCmdPut
  dsimp only
  rw [h, hi, Bool.not_true, Bool.false_or]
  rfl

theorem measExtend_extends {s s1 : State} {q : SeatNo} {ra : Reg}
    (hg : sysGranted s1 q 0o500 true (wGet s1 q.val ra.toNat) = true) (hi : Issues s q (.measExtend q ra) s1)
    (hb : bit (wGet s1 q.val ra.toNat) 35 = true) :
    let w := wGet s1 q.val ra.toNat
    let v := s1.sys
    let i := bits w 2 0
    let ins := (List.range 8).map (smGet 0 v.measIn)
    let full := ins.all fun x => (List.range 4).all (slotPresent x)
    let digest := sha .sha256 (allOctets ((List.range 8).map fun n => smGet 0 v.mr (8 * i + n)) ++ allOctets ins)
    let locked := v.measLock && decide (i ≤ 4)
    ∃ t, exec (.measExtend q ra) s = .next t ∧
      (t.mem = s1.mem ∧ (∀ r, wGet t q.val r = wGet s1 q.val r) ∧ ∀ r, cGet t q.val r = cGet s1 q.val r) ∧
      t.sys.measReg = i ∧ t.sys.measWord = bits w 5 3 ∧
      t.sys.measLock = (v.measLock || bit w 34) ∧ t.sys.measIn = v.measIn ∧
      t.sys.measIgnored = (if locked || full then v.measIgnored else v.measIgnored + 1) ∧
      (∀ n, (n < 8 * i ∨ 8 * i + 8 ≤ n ∨ locked = true ∨ full = false) → smGet 0 t.sys.mr n = smGet 0 v.mr n) ∧
      (locked = false → full = true → ∀ n k, n < 8 → k < 4 → slotPresent (smGet 0 t.sys.mr (8 * i + n)) k = true ∧
        slotOctet (smGet 0 t.sys.mr (8 * i + n)) k = digest.getD (4 * n + k) 0) := by
  intro w v i ins full digest locked
  have he : exec (.measExtend q ra) s = sysRow q (.measExtend q ra) ra 0o500 (fun _ w => bit w 35) s := rfl
  have hw : sysWrite s1 q.val 0o500 w = (none, measCmdPut s1 w) := rfl
  have hgo := sysRow_goesOn he hi hb hg hw
  rw [measCmdPut_extend s1 hb] at hgo
  by_cases hl : locked = true
  · rw [if_pos hl] at hgo
    obtain ⟨t, ht, h⟩ := hgo rfl
    refine ⟨t, ht, ⟨h.mem, h.wGet, h.cGet⟩, ?_⟩
    rw [h.sys, hl]
    exact ⟨rfl, rfl, rfl, rfl, rfl, fun _ _ => rfl, fun hn => Bool.noConfusion hn⟩
  · have hl' : locked = false := by simpa using hl
    rw [if_neg hl] at hgo
    have hfull : ((measWords s1).all fun x => (List.range 4).all (slotPresent x)) = full := rfl
    rw [hfull] at hgo
    by_cases hf : full = true
    · rw [if_pos hf] at hgo
      obtain ⟨t, ht, h⟩ := hgo rfl
      refine ⟨t, ht, ⟨h.mem, h.wGet, h.cGet⟩, ?_⟩
      rw [h.sys, hl', hf]
      refine ⟨rfl, rfl, rfl, rfl, rfl, fun n hn => ?_, fun _ _ n k hn hk => ?_⟩
      · exact extendMr_outside _ _ _ (by simpa using hn)
      · have := extendMr_reads (measFields s1 w) i (allOctets (measWords s1)) hn hk
        rw [mrWords, smGetList_eq_map] at this
        exact this
    · have hf' : full = false := by simpa using hf
      rw [if_neg hf] at hgo
      obtain ⟨t, ht, h⟩ := hgo rfl
      refine ⟨t, ht, ⟨h.mem, h.wGet, h.cGet⟩, ?_⟩
      rw [h.sys, hl', hf']
      exact ⟨rfl, rfl, rfl, rfl, rfl, fun _ _ => rfl, fun _ hn => Bool.noConfusion hn⟩

end Sys2Proof.Machine
end

section

namespace Sys2Proof.Machine

/-! CASE_SETASIDE and LANE_BASE: the spans of case that a write zeroes (09 R279, 10 R326). -/

/-- Memory m is memory n where f does not say that a word is zeroed, tag included. -/
def ZeroedWhere (f : Nat → Prop) [DecidablePred f] (n m : Mem) : Prop :=
  ∀ a, if f a then memWord m a = 0 ∧ memTag m a = false else memWord m a = memWord n a ∧ memTag m a = memTag n a

theorem ZeroedWhere.congr {f g : Nat → Prop} [DecidablePred f] [DecidablePred g] {n m : Mem} (h : ZeroedWhere f n m)
    (e : ∀ a, f a ↔ g a) : ZeroedWhere g n m := fun a => by
  have := h a
  rwa [if_congr (e a) rfl rfl] at this

theorem ZeroedWhere.trans {f g : Nat → Prop} [DecidablePred f] [DecidablePred g] {n m k : Mem} (h : ZeroedWhere f n m)
    (h' : ZeroedWhere g m k) : ZeroedWhere (fun a => f a ∨ g a) n k := fun a => by
  have ha := h a
  have hb := h' a
  by_cases hg : g a
  · rw [if_pos hg] at hb
    rw [if_pos (.inr hg)]
    exact hb
  · rw [if_neg hg] at hb
    by_cases hf : f a
    · rw [if_pos hf] at ha
      rw [if_pos (.inl hf), hb.1, hb.2]
      exact ha
    · rw [if_neg hf] at ha
      rw [if_neg (by tauto), hb.1, hb.2]
      exact ha

/-- Zeroing a span of whole granules. -/
theorem zeroSpan_zeroes (s : State) {a n : Nat} (ha : a % 4 = 0) (hn : n % 4 = 0) (h0 : 0 < n) :
    ZeroedWhere (fun b => a ≤ b ∧ b < a + n) s.mem (zeroSpan s a n).mem := by
  intro b
  rw [memWord, memTag, poisonedAt, zeroSpan]
  dsimp only
  rw [smGet_smClear, smGet_smClear, smGet_smClear, smGet_smClear]
  by_cases hb : a ≤ b ∧ b < a + n
  · have hw : ¬(b < a ∨ a + n - 1 < b) := by omega
    have hg : ¬(b / 4 < a / 4 ∨ (a + n - 1) / 4 < b / 4) := by omega
    rw [if_pos hb, if_neg hw, if_neg hg]
    exact ⟨rfl, rfl⟩
  · have hw : b < a ∨ a + n - 1 < b := by omega
    have hg : b / 4 < a / 4 ∨ (a + n - 1) / 4 < b / 4 := by omega
    rw [if_neg hb, if_pos hw, if_pos hg, if_pos hg, if_pos hg]
    exact ⟨rfl, rfl⟩

/-- The eighths whose bit changes, zeroed one after another (10 R326). -/
theorem setAside_zeroes (s : State) (new n : Nat) : ∃ m,
    (List.range n).foldl (fun s e => if new.testBit e != s.sys.setAside.testBit e then zeroSpan s (3145728 * e) 3145728 else s) s =
      { s with mem := m } ∧
    ZeroedWhere (fun a => a / 3145728 < n ∧ s.sys.setAside.testBit (a / 3145728) ≠ new.testBit (a / 3145728)) s.mem m := by
  induction n with
  | zero => exact ⟨s.mem, rfl, fun a => by rw [if_neg (by omega)]; exact ⟨rfl, rfl⟩⟩
  | succ n ih =>
    obtain ⟨m, hm, hz⟩ := ih
    rw [List.range_succ, List.foldl_append, hm, List.foldl_cons, List.foldl_nil]
    dsimp only
    by_cases hc : new.testBit n = s.sys.setAside.testBit n
    · refine ⟨m, by rw [hc, bne_self_eq_false, if_neg Bool.false_ne_true], hz.congr fun a => ?_⟩
      refine ⟨fun h => ⟨by omega, h.2⟩, fun h => ⟨?_, h.2⟩⟩
      have : a / 3145728 ≠ n := fun e => h.2 (by rw [e, hc])
      omega
    · refine ⟨_, by rw [if_pos (bne_iff_ne.2 hc)]; rfl, (hz.trans (zeroSpan_zeroes { s with mem := m } (a := 3145728 * n)
        (n := 3145728) (by omega) (by omega) (by omega))).congr fun a => ?_⟩
      by_cases ha : a / 3145728 = n
      · rw [ha]
        exact ⟨fun _ => ⟨by omega, Ne.symm hc⟩, fun _ => .inr (by omega)⟩
      · constructor
        · rintro (h | h)
          · exact ⟨by omega, h.2⟩
          · omega
        · exact fun h => .inl ⟨by omega, h.2⟩

theorem setAsidePut_zeroes (s : State) (w : Word) : ∃ m,
    setAsidePut s w = { s with mem := m, sys := { s.sys with setAside := bits w 7 0 } } ∧
    ZeroedWhere (fun a => a / 3145728 < 8 ∧ s.sys.setAside.testBit (a / 3145728) ≠ (bits w 7 0).testBit (a / 3145728)) s.mem m := by
  obtain ⟨m, hm, hz⟩ := setAside_zeroes s (bits w 7 0) 8
  refine ⟨m, ?_, hz⟩
  unfold setAsidePut
  dsimp only
  rw [hm]

/-- The test of a row of CASE_SETASIDE, before its fetch. -/
theorem setAside_some {s s1 : State} {q : SeatNo} {i : Instr} (hi : Issues s q i s1) {p : Bool → Bool → Bool} {new e : Nat} (h8 : e < 8)
    (h : p (new.testBit e) (s1.sys.setAside.testBit e) = true) :
    ((List.range 8).any fun e => p (new.testBit e) (s.sys.setAside.testBit e)) = true :=
  List.any_eq_true.2 ⟨e, List.mem_range.2 h8, hi.sys_eq ▸ h⟩

/-- A row that writes CASE_SETASIDE zeroes each eighth whose bit changes, and nothing else (10 R326). -/
theorem setAside_moves {s s1 : State} {q : SeatNo} {ra : Reg} {i : Instr} {test : State → Word → Bool}
    (he : exec i s = sysRow q i ra 0o440 test s) (ht : test s (wGet s1 q.val ra.toNat) = true)
    (hg : sysGranted s1 q 0o440 true (wGet s1 q.val ra.toNat) = true) (hi : Issues s q i s1) :
    let old := s1.sys.setAside
    let new := bits (wGet s1 q.val ra.toNat) 7 0
    ∃ t, exec i s = .next t ∧ t.sys.setAside = new ∧
      ZeroedWhere (fun a => a / 3145728 < 8 ∧ old.testBit (a / 3145728) ≠ new.testBit (a / 3145728)) s1.mem t.mem := by
  obtain ⟨m, hm, hz⟩ := setAsidePut_zeroes s1 (wGet s1 q.val ra.toNat)
  have hw : sysWrite s1 q.val 0o440 (wGet s1 q.val ra.toNat) = (none, setAsidePut s1 (wGet s1 q.val ra.toNat)) := rfl
  rw [hm] at hw
  obtain ⟨t, hx, h⟩ := sysRow_goesOn he hi ht hg hw rfl
  have hmem : t.mem = m := h.mem
  exact ⟨t, hx, by rw [h.sys], hmem ▸ hz⟩

/-! LANE_BASE (09 R279). -/

theorem laneReach_sound {s : State} {l g : Nat} (h : descReads s l g = true) (hu : noUpset s = true) :
    laneReach s l g = (true, s) := by
  rw [noUpset, Bool.and_eq_true, List.isEmpty_iff, List.isEmpty_iff] at hu
  unfold laneReach laneTouch
  unfold descReads at h
  cases hc : descCheck s l g 0 with
  | error u => rw [hc] at h; cases h
  | ok _ => simp [meetWords_sound hu.1 hu.2]

/-- Whether some lane is not CLOSED, where no read of a descriptor is refused or finds an error. -/
theorem someLaneOpen_sound {s : State} (hu : noUpset s = true) (h : ∀ e, e ∈ s.lanes.opened → descReads s e.1 1 = true) :
    someLaneOpen s =
      (!s.lanes.fault.isEmpty || s.lanes.opened.any fun e => (laneSt s e.1).state != lsClosed, s) := by
  unfold someLaneOpen
  generalize s.lanes.opened = es at h
  generalize (!s.lanes.fault.isEmpty) = b
  induction es generalizing b with
  | nil => rw [List.foldl_nil, List.any_nil, Bool.or_false]
  | cons e es ih =>
    rw [List.foldl_cons, laneReach_sound (h e List.mem_cons_self) hu]
    dsimp only
    rw [ih fun e he => h e (List.mem_cons_of_mem _ he), List.any_cons, Bool.not_true, Bool.or_false, Bool.or_assoc]

section
variable {s : State} {w : Word}

theorem laneBasePut_locked (h : s.sys.laneLock = true) : laneBasePut s w = s := by
  unfold laneBasePut
  dsimp only
  rw [if_pos h]

/-- The state with a write of LANE_BASE refused. -/
def laneRefused (s : State) : State := { s with lanes := { s.lanes with refused := s.lanes.refused + 1 } }

/-- The state with LANE_BASE written, before its array is zeroed. -/
def laneMoved (s : State) (w : Word) : State :=
  { s with sys := { s.sys with laneBase := bits w 35 20, laneLock := bit w 0 } }

/-- The state with LANE_BASE moved, no lane of the new array written. -/
def laneFresh (s : State) (w : Word) : State := { laneMoved s w with lanes := { s.lanes with opened := [] } }

theorem laneBasePut_high (h : s.sys.laneLock = false) (hb : 23 < bits w 35 20) : laneBasePut s w = laneRefused s := by
  have h23 : decide (bits w 35 20 ≤ 23) = false := decide_eq_false (by omega)
  unfold laneBasePut
  dsimp only
  rw [h, h23, Bool.and_false, decide_eq_true hb]
  rfl

theorem laneBasePut_same (h : s.sys.laneLock = false) (hb : bits w 35 20 = s.sys.laneBase) (h23 : bits w 35 20 ≤ 23) :
    laneBasePut s w = laneMoved s w := by
  have hm : decide (bits w 35 20 ≠ s.sys.laneBase) = false := decide_eq_false (by omega)
  have h23' : decide (23 < bits w 35 20) = false := decide_eq_false (by omega)
  unfold laneBasePut
  dsimp only
  rw [h, hm, Bool.false_and, h23']
  rfl

theorem laneBasePut_moves (h : s.sys.laneLock = false) (hb : bits w 35 20 ≠ s.sys.laneBase) (h23 : bits w 35 20 ≤ 23) {b : Bool}
    (hs : someLaneOpen s = (b, s)) : laneBasePut s w = if b = true then laneRefused s else
      zeroLanes (laneFresh s w) := by
  unfold laneBasePut
  dsimp only
  rw [h, decide_eq_true hb, decide_eq_true h23, Bool.true_and, if_neg Bool.false_ne_true, if_pos rfl, hs]
  rfl

end

/-- A new array whose zeroing the fence admits whole is zeroed whole (09 R279). -/
theorem zeroLanes_open {s : State} (h : (fenceCheck s { cls := 6, dir := 1, p := descAddr s 0, n := 2 ^ 20 }).isOk = true) :
    zeroLanes s = zeroSpan s (descAddr s 0) (2 ^ 20) := by
  unfold zeroLanes
  cases hc : fenceCheck s { cls := 6, dir := 1, p := descAddr s 0, n := 2 ^ 20 } with
  | error k => rw [hc] at h; cases h
  | ok g => rfl

theorem fenceCheck_laneFresh (s : State) (w : Word) (r : FenceReq) : fenceCheck (laneFresh s w) r = fenceCheck s r := rfl

theorem descAddr_laneFresh (s : State) (w : Word) : descAddr (laneFresh s w) 0 = 2 ^ 20 * bits w 35 20 := by
  rw [descAddr, Nat.mul_zero, Nat.add_zero]
  rfl

theorem zeroLanes_fresh {s : State} {w : Word}
    (h : (fenceCheck s { cls := 6, dir := 1, p := 2 ^ 20 * bits w 35 20, n := 2 ^ 20 }).isOk = true) :
    zeroLanes (laneFresh s w) = zeroSpan (laneFresh s w) (2 ^ 20 * bits w 35 20) (2 ^ 20) := by
  rw [← descAddr_laneFresh s w] at h ⊢
  exact zeroLanes_open h

theorem pairOver_laneFresh (s : State) (w : Word) (a n q : Nat) : pairOver (zeroSpan (laneFresh s w) a n) q = pairOver s q := rfl

/-- A lane that is neither written nor marked is CLOSED (09 R279). -/
theorem laneSt_fresh {s : State} (ho : s.lanes.opened = []) (hf : s.lanes.fault = []) (l : Nat) : (laneSt s l).state = lsClosed := by
  unfold laneSt
  rw [ho, hf]
  rfl

section
variable {s s1 : State} {q : SeatNo} {ra : Reg} (hg : sysGranted s1 q 0o430 true (wGet s1 q.val ra.toNat) = true)
  (hi : Issues s q (.laneBaseWrite q ra) s1)
include hg hi

theorem laneBase_goesOn {r : State} (hr : laneBasePut s1 (wGet s1 q.val ra.toNat) = r) (ho : pairOver r q.val = pairOver s1 q.val) :
    ∃ t, exec (.laneBaseWrite q ra) s = .next t ∧ GoesOn q.val r t := by
  have he : exec (.laneBaseWrite q ra) s = sysRow q (.laneBaseWrite q ra) ra 0o430 (fun _ _ => true) s := rfl
  refine sysRow_goesOn he hi rfl hg ?_ ho
  rw [← hr]
  rfl

theorem laneBase_refused (hr : laneBasePut s1 (wGet s1 q.val ra.toNat) = laneRefused s1) :
    ∃ t, exec (.laneBaseWrite q ra) s = .next t ∧
      (t.mem = s1.mem ∧ t.sys.laneBase = s1.sys.laneBase ∧ t.sys.laneLock = s1.sys.laneLock) ∧
      t.lanes.refused = s1.lanes.refused + 1 := by
  obtain ⟨t, ht, h⟩ := laneBase_goesOn hg hi hr rfl
  exact ⟨t, ht, ⟨h.mem, congrArg SysWords.laneBase h.sys, congrArg SysWords.laneLock h.sys⟩, congrArg LaneUnit.refused h.lanes⟩

theorem laneBase_moves (hl : s1.sys.laneLock = false) (hb : bits (wGet s1 q.val ra.toNat) 35 20 ≠ s1.sys.laneBase)
    (h23 : bits (wGet s1 q.val ra.toNat) 35 20 ≤ 23) (hs : someLaneOpen s1 = (false, s1)) (hf : s1.lanes.fault = [])
    (hc : (fenceCheck s1 { cls := 6, dir := 1, p := 2 ^ 20 * bits (wGet s1 q.val ra.toNat) 35 20, n := 2 ^ 20 }).isOk = true) :
    let w := wGet s1 q.val ra.toNat
    let b := bits w 35 20
    ∃ t, exec (.laneBaseWrite q ra) s = .next t ∧ t.sys.laneBase = b ∧ t.sys.laneLock = bit w 0 ∧
      t.lanes.refused = s1.lanes.refused ∧ (∀ l, (laneSt t l).state = lsClosed) ∧
      ZeroedWhere (fun a => 2 ^ 20 * b ≤ a ∧ a < 2 ^ 20 * (b + 1)) s1.mem t.mem := by
  intro w b
  have hr := (laneBasePut_moves hl hb h23 hs).trans (if_neg Bool.false_ne_true)
  rw [zeroLanes_fresh hc] at hr
  obtain ⟨t, ht, h⟩ := laneBase_goesOn hg hi hr (pairOver_laneFresh ..)
  have hlanes : t.lanes = { s1.lanes with opened := [] } := h.lanes
  refine ⟨t, ht, congrArg SysWords.laneBase h.sys, congrArg SysWords.laneLock h.sys, by rw [hlanes], fun l => ?_, ?_⟩
  · exact laneSt_fresh (by rw [hlanes]) (by rw [hlanes]; exact hf) l
  · rw [h.mem]
    exact (zeroSpan_zeroes (laneFresh s1 w) (a := 2 ^ 20 * b) (n := 2 ^ 20) (by omega) (by omega) (by omega)).congr
      fun a => by omega

end

/-- LANE_BASE written (09 R279). -/
theorem laneBase_writes {s s1 : State} {q : SeatNo} {ra : Reg} (hg : sysGranted s1 q 0o430 true (wGet s1 q.val ra.toNat) = true)
    (hi : Issues s q (.laneBaseWrite q ra) s1) :
    let w := wGet s1 q.val ra.toNat
    let v := s1.sys
    let b := bits w 35 20
    let kept := fun t : State => t.mem = s1.mem ∧ t.sys.laneBase = v.laneBase ∧ t.sys.laneLock = v.laneLock
    let opened := fun e => e ∈ s1.lanes.opened
    (v.laneLock = true → ∃ t, exec (.laneBaseWrite q ra) s = .next t ∧ kept t ∧ t.lanes.refused = s1.lanes.refused) ∧
    (v.laneLock = false → 23 < b →
      ∃ t, exec (.laneBaseWrite q ra) s = .next t ∧ kept t ∧ t.lanes.refused = s1.lanes.refused + 1) ∧
    (v.laneLock = false → b = v.laneBase → b ≤ 23 → ∃ t, exec (.laneBaseWrite q ra) s = .next t ∧ t.mem = s1.mem ∧
      t.sys.laneBase = b ∧ t.sys.laneLock = bit w 0 ∧ t.lanes.refused = s1.lanes.refused) ∧
    (v.laneLock = false → b ≠ v.laneBase → b ≤ 23 → noUpset s1 = true → (∀ e, opened e → descReads s1 e.1 1 = true) →
      ((s1.lanes.fault ≠ [] ∨ ∃ e, opened e ∧ (laneSt s1 e.1).state ≠ lsClosed) →
        ∃ t, exec (.laneBaseWrite q ra) s = .next t ∧ kept t ∧ t.lanes.refused = s1.lanes.refused + 1) ∧
      (s1.lanes.fault = [] → (∀ e, opened e → (laneSt s1 e.1).state = lsClosed) →
        (fenceCheck s1 { cls := 6, dir := 1, p := 2 ^ 20 * b, n := 2 ^ 20 }).isOk = true →
        ∃ t, exec (.laneBaseWrite q ra) s = .next t ∧ t.sys.laneBase = b ∧ t.sys.laneLock = bit w 0 ∧
          t.lanes.refused = s1.lanes.refused ∧ (∀ l, (laneSt t l).state = lsClosed) ∧
          ∀ a, if 2 ^ 20 * b ≤ a ∧ a < 2 ^ 20 * (b + 1) then memWord t.mem a = 0 ∧ memTag t.mem a = false
            else memWord t.mem a = memWord s1.mem a ∧ memTag t.mem a = memTag s1.mem a)) := by
  intro w v b kept opened
  refine ⟨fun hl => ?_, fun hl hb => laneBase_refused hg hi (laneBasePut_high hl hb), fun hl hb h23 => ?_,
    fun hl hb h23 hu hd => ⟨fun ho => ?_, fun hf ho hc => ?_⟩⟩
  · obtain ⟨t, ht, h⟩ := laneBase_goesOn hg hi (laneBasePut_locked hl) rfl
    exact ⟨t, ht, ⟨h.mem, congrArg SysWords.laneBase h.sys, congrArg SysWords.laneLock h.sys⟩, congrArg LaneUnit.refused h.lanes⟩
  · obtain ⟨t, ht, h⟩ := laneBase_goesOn hg hi (laneBasePut_same hl hb h23) rfl
    exact ⟨t, ht, h.mem, congrArg SysWords.laneBase h.sys, congrArg SysWords.laneLock h.sys, congrArg LaneUnit.refused h.lanes⟩
  · have hs : someLaneOpen s1 = (true, s1) := by
      rw [someLaneOpen_sound hu hd]
      refine congrArg (·, s1) ?_
      rw [Bool.or_eq_true, List.any_eq_true]
      refine ho.imp (fun hf => ?_) fun ⟨e, he, hc⟩ => ⟨e, he, bne_iff_ne.2 hc⟩
      simpa using hf
    exact laneBase_refused hg hi ((laneBasePut_moves hl hb h23 hs).trans (if_pos rfl))
  · have hs : someLaneOpen s1 = (false, s1) := by
      rw [someLaneOpen_sound hu hd, hf]
      refine congrArg (·, s1) ?_
      rw [Bool.or_eq_false_iff, List.any_eq_false]
      exact ⟨rfl, fun e he => by rw [ho e he]; decide⟩
    exact laneBase_moves hg hi hl hb h23 hs hf hc

end Sys2Proof.Machine
end

section

namespace Sys2Proof.Machine

/-! What lanes and activations leave of the block: its system words, its ports and its power state. -/

/-- The system words, the Ethernet side and the power state. -/
def units (s : State) : SysWords × Eth × Power := (s.sys, s.eth, s.power)

/-- A change of other parts of the state. -/
@[simp] theorem units_with (s : State) (p : List Instr) (t f : Nat) (se : SMap Seat) (m : Mem) (fe : Fence) (la : LaneUnit)
    (co : SMap Cox) (g : Galley) (cu : Custody) (en : Engines) (ct : SMap Nat) (i : Irrix) (b : Boot) (pn : Pins) :
    units { pending := p, time := t, free := f, seats := se, mem := m, fence := fe, sys := s.sys, lanes := la, coxes := co,
            eth := s.eth, galley := g, custody := cu, engines := en, counters := ct, power := s.power, irrix := i, boot := b,
            pins := pn } = units s := rfl

theorem foldl_units {α : Type} (f : State → α → State) (h : ∀ s x, units (f s x) = units s) (s : State) (xs : List α) :
    units (xs.foldl f s) = units s := by
  induction xs generalizing s with
  | nil => rfl
  | cons x xs ih => rw [List.foldl_cons, ih, h]

variable (s : State)

/-! Counters, coxes, seats. -/

@[simp] theorem units_counterAdd (off i n : Nat) : units (counterAdd s off i n) = units s := rfl
@[simp] theorem units_coxCount (x i : Nat) : units (coxCount s x i) = units s := rfl
@[simp] theorem units_unitCount (u i n : Nat) : units (unitCount s u i n) = units s := rfl
@[simp] theorem units_laneCount (l i : Nat) : units (laneCount s l i) = units s := rfl
@[simp] theorem units_gapCount (l : Nat) : units (gapCount s l) = units s := rfl
@[simp] theorem units_bucketCount (p b : Nat) : units (bucketCount s p b) = units s := rfl
@[simp] theorem units_classCount (k i : Nat) : units (classCount s k i) = units s := rfl
@[simp] theorem units_modSeat (q : Nat) (f : Seat → Seat) : units (modSeat s q f) = units s := rfl
@[simp] theorem units_modCur (q : Nat) (f : Bank → Bank) : units (modCur s q f) = units s := rfl
@[simp] theorem units_modCox (x : Nat) (f : Cox → Cox) : units (modCox s x f) = units s := rfl
@[simp] theorem units_setPair (c i : Nat) (b : PairBuf) : units (setPair s c i b) = units s := rfl
@[simp] theorem units_readySet (home pend : Nat) (xs : List (LaneNo × Bool)) : units (readySet s home pend xs) = units s := rfl
@[simp] theorem units_countAdmission (k : Nat) : units (countAdmission s k) = units s := rfl

@[simp] theorem units_seatCount (q i : Nat) : units (seatCount s q i) = units s := by
  obtain ⟨c, h⟩ := seatCount_eq s q i
  rw [h, units_with]

@[simp] theorem units_counterSettle (k : Nat) : units (counterSettle s k) = units s := by
  unfold counterSettle
  split <;> simp

@[simp] theorem units_settleSeat (q : Nat) : units (settleSeat s q) = units s := foldl_units _ units_counterSettle _ _

@[simp] theorem units_settleUnit (u : Nat) : units (settleUnit s u) = units s := foldl_units _ units_counterSettle _ _

@[simp] theorem units_coxWake (x : Nat) : units (coxWake s x) = units s := by
  unfold coxWake
  split <;> simp

@[simp] theorem units_postRise (x : Seat) (q : Nat) : units (postRise x s q) = units s := by
  unfold postRise
  split <;> simp

@[simp] theorem units_sideNote (x : Seat) (q : Nat) : units (sideNote x s q) = units s := by
  unfold sideNote
  split <;> simp

@[simp] theorem units_modSeatR (q : Nat) (f : Seat → Seat) : units (modSeatR s q f) = units s := by simp [modSeatR]

@[simp] theorem units_freeBank (q b : Nat) : units (freeBank s q b) = units s := units_modSeatR ..

@[simp] theorem units_selectBank (q : Nat) : units (selectBank s q) = units s := by
  unfold selectBank
  dsimp only
  split
  · split
    · split <;> simp
    · rfl
  · rfl

@[simp] theorem units_postAfterStow (q : Nat) (j : StowJob) : units (postAfterStow s q j) = units s := by
  unfold postAfterStow
  split <;> simp

/-! Memory and logs. -/

@[simp] theorem units_signalHost (v : Nat) : units (signalHost s v) = units s := by
  obtain ⟨p, h⟩ := signalHost_only s v
  rw [h, units_with]

@[simp] theorem units_logEvent (cls source : Nat) : units (logEvent cls source s) = units s := by
  obtain ⟨i, p, f, h⟩ := logEvent_only cls source s
  rw [h, units_with]

@[simp] theorem units_meetWords (as : List Nat) : units (meetWords s as) = units s := by
  obtain ⟨m, i, p, f, h⟩ := meetWords_only s as
  rw [h, units_with]

@[simp] theorem units_putGranule (a : Nat) (ws : List Word) (tag : Bool) : units (putGranule s a ws tag) = units s := by
  obtain ⟨m, i, p, f, h⟩ := putGranule_only s a ws tag
  rw [h, units_with]

@[simp] theorem units_viewPut (q a : Nat) (ws : List Word) (tag : Bool) : units (viewPut s q a ws tag) = units s := by
  unfold viewPut markStale stickPut
  dsimp only
  split <;> simp

@[simp] theorem units_viewPutRun (q a : Nat) (ws : List Word) : units (viewPutRun s q a ws) = units s :=
  foldl_units _ (fun s _ => units_viewPut s ..) _ _

@[simp] theorem units_fenceRecord (r : FenceReq) (unit kind : Nat) : units (fenceRecord s r unit kind) = units s := by
  obtain ⟨f, h⟩ := fenceRecord_only s r unit kind
  rw [h, units_with]

variable {s} in
theorem units_fenceUnit {t : State} {r : FenceReq} {u : Nat} (h : fenceUnit s r u = .error t) : units t = units s := by
  unfold fenceUnit at h
  split at h
  · cases h
  · cases h
    simp

variable {s} in
theorem units_descCheck {t : State} {l g dir : Nat} (h : descCheck s l g dir = .error t) : units t = units s := by
  unfold descCheck at h
  split at h
  · next h1 =>
    cases h
    exact units_fenceUnit h1
  · cases h

variable {s} in
theorem units_ringAdmits {t : State} {k l : Nat} (h : ringAdmits s k l = .error t) : units t = units s := by
  unfold ringAdmits at h
  split at h
  · next h1 =>
    cases h
    exact units_fenceUnit h1
  · split at h
    · next h1 =>
      cases h
      exact units_fenceUnit h1
    · cases h

/-! The lane unit. -/

@[simp] theorem units_setLane (l : Nat) (x : LaneSt) : units (setLane s l x) = units s := by simp [setLane]
@[simp] theorem units_setDeadline (l d : Nat) : units (setDeadline s l d) = units s := units_putGranule ..
@[simp] theorem units_unready (l : Nat) : units (unready s l) = units s := rfl

@[simp] theorem units_offQueue (l : Nat) : units (offQueue s l) = units s := by
  unfold offQueue
  split <;> simp

@[simp] theorem units_pushReady (home pend : Nat) (e : LaneNo × Bool) : units (pushReady s home pend e) = units s := by
  unfold pushReady
  dsimp only
  split <;> simp

@[simp] theorem units_pendRise (s0 : State) (l : Nat) : units (pendRise s0 s l) = units s := by
  unfold pendRise
  split
  · rfl
  · split <;> simp

@[simp] theorem units_readyLane (l : Nat) : units (readyLane s l) = units s := by
  unfold readyLane
  split
  · rfl
  · split <;> simp

@[simp] theorem units_wakeStowed (a : Nat) : units (wakeStowed s a) = units s := by
  unfold wakeStowed
  split
  · rfl
  · dsimp only
    split <;> simp

@[simp] theorem units_wakeBank (q b : Nat) (aborted : Bool) : units (wakeBank s q b aborted) = units s := by simp [wakeBank]

@[simp] theorem units_abortWaits (l : Nat) : units (abortWaits s l) = units s :=
  foldl_units _ (fun s _ => units_modSeat s _ _) s _

@[simp] theorem units_wakeAll (l : Nat) (aborted : Bool) : units (wakeAll s l aborted) = units s := by
  have hb := foldl_units (fun s (qb : Nat × Nat) => wakeBank s qb.1 qb.2 aborted) (fun s qb => units_wakeBank s _ _ _) s
  unfold wakeAll
  dsimp only
  rw [foldl_units _ fun s e => units_wakeStowed s _]
  split
  · rw [units_abortWaits, hb]
  · rw [hb]

@[simp] theorem units_laneEvent (l : Nat) (aborted : Bool) : units (laneEvent s l aborted) = units s := by
  unfold laneEvent
  split
  · simp
  · split
    · split <;> simp
    · simp

@[simp] theorem units_meetSkip (k l fuel : Nat) (x : LaneSt) : units (meetSkip k l fuel s x) = units s := by
  induction fuel generalizing s x with
  | zero => rfl
  | succ n ih =>
    unfold meetSkip
    dsimp only
    split
    · rfl
    · split
      · simp
      · rw [ih, units_meetWords]

@[simp] theorem units_settleLane (k l : Nat) (x : LaneSt) : units (settleLane s k l x) = units s := by simp [settleLane]

@[simp] theorem units_writeSlots (k l fuel p : Nat) (ws : List Word) (ts : List Bool) :
    units (writeSlots k l fuel s p ws ts) = units s := by
  induction fuel generalizing s p ws ts with
  | zero => rfl
  | succ n ih =>
    cases ws with
    | nil => rfl
    | cons w ws =>
      unfold writeSlots
      dsimp only
      rw [ih]
      refine foldl_units _ (fun s i => ?_) s _
      split <;> simp

@[simp] theorem units_writeRecords (k l p n slots sq chk : Nat) : units (writeRecords s k l p n slots sq chk) = units s :=
  foldl_units _ (fun s _ => units_putGranule s _ _ _) s _

@[simp] theorem units_clearRecords (k l p slots : Nat) : units (clearRecords s k l p slots) = units s :=
  foldl_units _ (fun s _ => units_putGranule s _ _ _) s _

@[simp] theorem units_faultLane (l : Nat) : units (faultLane s l) = units s := by simp [faultLane]

theorem units_noticeVia {put : State → Nat → List Word → Nat × State} (h : ∀ s l ws, units (put s l ws).2 = units s) (l : Nat)
    (x : Notice) : units (noticeVia put s l x) = units s := by
  unfold noticeVia
  split
  · rfl
  · dsimp only
    split
    · simp
    · split
      · simp
      · split
        · exact h ..
        · simp [h]

theorem units_deliver {faulted : State → State} (h : ∀ s, units (faulted s) = units s) (l : Nat) (x : LaneSt) :
    units (deliver faulted s l x) = units s := by
  unfold deliver
  dsimp only
  split
  · simp
  · split
    · next hd => simp [h, units_descCheck hd]
    · split
      · split
        · next hd => simp [h, units_descCheck hd]
        · simp
      · simp

@[simp] theorem units_putF (fuel : Nat) (mode : PutMode) (l : Nat) (ws : List Word) (ts : List Bool) :
    units (putF fuel mode s l ws ts).2 = units s := by
  induction fuel generalizing mode s l ws ts with
  | zero => rfl
  | succ n ih =>
    have hn : ∀ (s : State) (l : Nat) (x : Notice), units (noticeVia (fun s l ws => putF n .normal s l ws []) s l x) = units s :=
      fun s => units_noticeVia s fun s _ _ => ih s _ _ _ _
    have hq : ∀ {s t : State} {dir : Nat}, descCheck s l 1 dir = .error t →
        units (noticeVia (fun s l ws => putF n .normal s l ws []) (faultLane t l) l { status := stFence }) = units s :=
      fun h => (hn ..).trans ((units_faultLane ..).trans (units_descCheck h))
    unfold putF
    dsimp only
    cases classOf s l with
    | none => rfl
    | some k =>
    dsimp only
    cases hd : descCheck s l 1 0 with
    | error t => exact hq hd
    | ok _ =>
    dsimp only
    have hm := units_meetWords s [descAddr s l + 4]
    generalize meetWords s [descAddr s l + 4] = u at hm ⊢
    rw [← hm]
    split
    · rfl
    generalize (if mode = PutMode.force then _ else _) = st
    split
    · dsimp only
      split <;> simp
    cases hw : descCheck u l 1 1 with
    | error t => exact hq hw
    | ok _ =>
    dsimp only
    cases hr : ringAdmits u k l with
    | error t => exact (hn ..).trans ((units_setLane ..).trans (units_ringAdmits hr))
    | ok _ =>
    cases mode with
    | broken bst => simp [hn]
    | _ =>
      dsimp only
      split
      · simp [hn]
      · exact (units_deliver _ (fun t => (hn ..).trans (units_faultLane ..)) l _).trans (by simp)

@[simp] theorem units_putLane (l : Nat) (ws : List Word) : units (putLane s l ws).2 = units s := units_putF ..
@[simp] theorem units_putForce (l : Nat) (ws : List Word) : units (putForce s l ws).2 = units s := units_putF ..

@[simp] theorem units_notice (l : Nat) (x : Notice) : units (notice s l x) = units s := units_noticeVia s units_putLane l x

@[simp] theorem units_laneTouch (l g dir : Nat) : units (laneTouch s l g dir).2 = units s := by
  unfold laneTouch
  split
  · dsimp only
    split <;> simp
  · next hd => simp [units_descCheck hd]

@[simp] theorem units_laneReach (l g : Nat) : units (laneReach s l g).2 = units s := units_laneTouch ..

@[simp] theorem units_laneStore (l : Nat) (x : LaneSt) : units (laneStore s l x) = units s := by
  have ht := units_laneTouch s l 1 1
  unfold laneStore
  split <;> next he => rw [he] at ht; simpa using ht

@[simp] theorem units_meetMsg (k l p : Nat) : units (meetMsg s k l p) = units s := by simp [meetMsg]

@[simp] theorem units_divert (k l : Nat) (x : LaneSt) (m : Msg) (st : Nat) : units (divert s k l x m st) = units s := by
  simp [divert, divertNotice]

variable {s} in
theorem units_ringReach {t : State} {k l dir : Nat} {x : LaneSt} (h : ringReach s k l x dir = .error t) : units t = units s := by
  unfold ringReach at h
  split at h
  · next hu =>
    cases h
    simp [units_fenceUnit hu]
  · cases h

@[simp] theorem units_headMsg (k l fuel : Nat) : units (headMsg k l fuel s).2 = units s := by
  induction fuel generalizing s with
  | zero => rfl
  | succ n ih =>
    unfold headMsg
    dsimp only
    split
    · rfl
    · split
      · next hr => exact units_ringReach hr
      · have hs : units (if skipBroken (meetSkip k l 8192 s (laneSt s l)) k l 8192 (laneSt s l) = laneSt s l then
            meetSkip k l 8192 s (laneSt s l) else offQueue (laneStore (meetSkip k l 8192 s (laneSt s l)) l
              (skipBroken (meetSkip k l 8192 s (laneSt s l)) k l 8192 (laneSt s l))) l) = units s := by
          split <;> simp
        generalize (if skipBroken (meetSkip k l 8192 s (laneSt s l)) k l 8192 (laneSt s l) = laneSt s l then _ else _) = u at hs ⊢
        generalize skipBroken (meetSkip k l 8192 s (laneSt s l)) k l 8192 (laneSt s l) = x
        split
        · exact hs
        · have hm := (units_meetMsg u k l x.head).trans hs
          split
          · exact hm
          · rw [ih, units_divert, hm]

@[simp] theorem units_laneHead (l : Nat) : units (laneHead s l).2 = units s := by
  unfold laneHead
  split
  · rfl
  · next k _ =>
    have hm := units_headMsg s k l 8192
    split <;> rename_i he <;> rw [he] at hm
    · exact hm
    · next s' =>
      have ht := units_laneTouch s' l 1 1
      split <;> next hf => rw [hf] at ht; exact ht.trans hm

@[simp] theorem units_takeMsg (l : Nat) (m : Msg) (give : Bool) : units (takeMsg s l m give) = units s := by
  unfold takeMsg
  split
  · rfl
  · dsimp only
    split <;> simp

@[simp] theorem units_noteServed (u l k : Nat) : units (noteServed s u l k) = units s := rfl

@[simp] theorem units_unitHead (u l : Nat) : units (unitHead s u l).2 = units s := by
  unfold unitHead
  split
  · rfl
  · split
    · have hr := units_laneReach s l 1
      split <;> rename_i hh <;> rw [hh] at hr
      · exact hr
      · next s' =>
        split
        · have hl := units_laneHead s' l
          split <;> next he => rw [he] at hl; exact hl.trans hr
        · exact hr
    · rfl

@[simp] theorem units_hwTake (u l : Nat) : units (hwTake s u l).2 = units s := by
  have hu := units_unitHead s u l
  unfold hwTake
  split <;> rename_i hh <;> rw [hh] at hu
  · exact hu
  · dsimp only
    split <;> simpa using hu

/-! Activations that end. -/

@[simp] theorem units_rejoinLane (l : Nat) : units (rejoinLane s l) = units s := by
  unfold rejoinLane
  dsimp only
  split <;> simp

@[simp] theorem units_laneEnded (l : Nat) : units (laneEnded s l) = units s := by
  unfold laneEnded
  dsimp only
  split
  · simp
  · split <;> simp

@[simp] theorem units_clearWait (l : Nat) : units (clearWait s l) = units s := by
  unfold clearWait
  dsimp only
  split <;> simp

/-- A step that happens in some cases only. -/
theorem units_ite {c : Prop} [Decidable c] {t u : State} (ht : units t = units s) (hu : units u = units s) :
    units (if c then t else u) = units s := by
  split
  · exact ht
  · exact hu

@[simp] theorem units_endBank (q b st : Nat) : units (endBank s q b st) = units s := by
  unfold endBank
  dsimp only
  split
  · rfl
  · rw [units_selectBank, units_laneEnded]
    have hw := fun (c : Prop) [Decidable c] l => units_ite s (c := c) (units_clearWait s l) rfl
    have hn := fun (c : Prop) [Decidable c] (u : State) l x => units_ite u (c := c) rfl (units_notice u l x)
    split
    · split
      · rw [units_postAfterStow, units_freeBank, units_modSeatR, hn, hw]
      · split
        · rw [units_modSeatR, units_freeBank, units_modSeatR, hn, hw]
        · rw [units_freeBank, units_modSeatR, hn, hw]
    · rw [units_freeBank, units_modSeatR, hn, hw]

@[simp] theorem units_endStowed (e : Stowed) (st : Nat) : units (endStowed s e st) = units s := by
  have hw := fun (c : Prop) [Decidable c] (u : State) l => units_ite u (c := c) rfl (units_clearWait u l)
  have hn := fun (c : Prop) [Decidable c] (u : State) l x => units_ite u (c := c) rfl (units_notice u l x)
  unfold endStowed
  dsimp only
  rw [units_laneEnded, hn, hw, foldl_units _ fun s x => units_modCox s x _, units_with]

@[simp] theorem units_dropSide (l q : Nat) : units (dropSide s l q) = units s := by
  unfold dropSide
  dsimp only
  split <;> simp

@[simp] theorem units_endPair (c i st : Nat) : units (endPair s c i st) = units s := by
  unfold endPair
  dsimp only
  rw [units_laneEnded]
  split <;> simp

@[simp] theorem units_pairOverflow (q : Nat) : units (pairOverflow s q) = units s := by simp [pairOverflow]

@[simp] theorem units_endLive (q b st : Nat) : units (endLive s q b st) = units s := by
  unfold endLive
  dsimp only
  split
  · rfl
  · split
    · split <;> simp
    · split <;> simp

@[simp] theorem units_pushHead (l : Nat) (stowed : Bool) : units (pushHead s l stowed) = units s := by
  unfold pushHead returnHead
  split
  · rfl
  · rw [units_coxWake]
    split <;> simp

@[simp] theorem units_endPosted (q : Nat) (j : StowJob) (st : Nat) : units (endPosted s q j st) = units s := by simp [endPosted]

@[simp] theorem units_offPost (q : Nat) (j : StowJob) : units (offPost q s j) = units s := by
  unfold offPost
  split
  · simp
  · split <;> simp

@[simp] theorem units_lateEvent (q b : Nat) (v : Bank) (failed : Bool) : units (lateEvent s q b v failed) = units s := by
  unfold lateEvent
  dsimp only
  split
  · split <;> simp
  · split
    · rw [units_wakeAll]
      split <;> simp
    · simp

@[simp] theorem units_offAbort (q b : Nat) : units (offAbort q s b) = units s := by
  unfold offAbort
  dsimp only
  split <;> simp

variable {s} in
theorem units_stowBank {t : State} {q b : Nat} (h : stowBank s q b = .ok t) : units t = units s := by
  unfold stowBank at h
  dsimp only at h
  split at h
  · cases h
  · cases h
    split <;> simp [foldl_units]

@[simp] theorem units_offStow (q b : Nat) : units (offStow q s b) = units s := by
  unfold offStow
  dsimp only
  split
  · split
    · next t hs =>
      have ht : units t = units s := by
        split at hs
        · exact (units_stowBank hs).trans (units_laneReach ..)
        · cases hs
      simp [ht]
    · simp
  · rfl

theorem units_dropPosts (q : Nat) {one : State → StowJob → State} (h : ∀ s j, units (one s j) = units s) :
    units (dropPosts s q one) = units s := (foldl_units one h _ _).trans (units_modSeat ..)

@[simp] theorem units_paddleSeatOff (q : Nat) : units (paddleSeatOff s q) = units s := by
  have hp : ∀ s, units (allBanks.foldl (offStow q) (allBanks.foldl (offAbort q) s)) = units s := fun s =>
    (foldl_units _ (fun s b => units_offStow s q b) _ _).trans (foldl_units _ (fun s b => units_offAbort s q b) _ _)
  unfold paddleSeatOff
  dsimp only
  rw [units_modSeat, units_settleSeat, hp, hp, units_dropPosts s q fun s j => units_offPost s q j]

/-! The engines and the power domains. -/

@[simp] theorem units_completeCount (u st : Nat) : units (completeCount s u st) = units s := by
  unfold completeCount
  dsimp only
  split <;> simp

@[simp] theorem units_abortJob (j : Job) : units (abortJob s j) = units s := by simp [abortJob]

@[simp] theorem units_offHeld (h : Held) : units (offHeld s h) = units s := by
  unfold offHeld abortHeldResponse
  split <;> simp

@[simp] theorem units_enginesOff : units (enginesOff s) = units s := by
  unfold enginesOff
  dsimp only
  rw [foldl_units _ units_abortJob, foldl_units _ units_offHeld]

@[simp] theorem units_sampleKeep (q : Nat) (y : Sample) : units (sampleKeep s q y) = units s :=
  units_ite s (units_seatCount s q 162) (units_modSeat s q _)

@[simp] theorem units_sampleDone (q : Nat) (y : Sample) (d : Done) : units (sampleDone s q y d) = units s := by
  unfold sampleDone
  cases d.next with
  | stopped p => exact units_modSeat ..
  | blocked => rfl
  | _ => exact units_sampleKeep ..

theorem units_retire (q len b : Nat) {d : Done} (h : d.next = .advance) : units (retire q len b d) = units d.st := by
  unfold retire
  simp only [h]
  split <;> simp [dropProgress, pcSet, pccSet]

/-- A granted SYSWR whose write raises no trap leaves the words of the block, the ports and the power state as its write does,
whether the instruction retires or a pair-checked activation ends in its place (08 R268). -/
theorem sysRow_units {s s1 r : State} {q : SeatNo} {i : Instr} {ra : Reg} {n : Nat} {test : State → Word → Bool}
    (he : exec i s = sysRow q i ra n test s) (hi : Issues s q i s1) (ht : test s (wGet s1 q.val ra.toNat) = true)
    (hg : sysGranted s1 q n true (wGet s1 q.val ra.toNat) = true)
    (hw : sysWrite s1 q.val n (wGet s1 q.val ra.toNat) = (none, r)) :
    ∃ t, exec i s = .next t ∧ units t = units r := by
  obtain ⟨hx, hb⟩ := sysRow_runs he hi ht hg (by rw [hw])
  obtain ⟨hc, -, hl, p, ha, rfl⟩ := hi
  rw [hw] at hb
  refine ⟨_, hx, ?_⟩
  simp only [seatInstr, hc, ha, hl, hb, done, anyMode]
  simp only [Bool.not_true, Bool.false_or, Bool.false_eq_true, if_false]
  have hend : units (if pairOver r q.val = true then pairOverflow r q.val
      else retire q.val (seatLen i) (sampleOf s q.val (seatWord i)).bank { st := r }) = units r :=
    units_ite r (units_pairOverflow ..) (units_retire _ _ _ rfl)
  split
  · rw [units_sampleDone, hend]
  · exact hend

end Sys2Proof.Machine
end

section

namespace Sys2Proof.Machine

/-! PADDLE_REQ (16 R461) and ETH_MODE (19 R534, R535). -/

/-- Domains switched off leave the request of Keel and the state of paddle. -/
theorem domainsOff_power (s : State) (ds : List Nat) :
    (domainsOff s ds).power.keelT = s.power.keelT ∧ (domainsOff s ds).power.paddle = s.power.paddle := by
  have h := foldl_units settleUnit units_settleUnit s (unitCodes.filter fun u => ds.contains (unitDomain u))
  have hp : ((unitCodes.filter fun u => ds.contains (unitDomain u)).foldl settleUnit s).power = s.power :=
    congrArg (fun u => u.2.2) h
  unfold domainsOff
  dsimp only
  rw [hp]
  exact ⟨rfl, rfl⟩

theorem power_of_units {s t : State} (h : units t = units s) : t.power = s.power := congrArg (fun u => u.2.2) h

theorem paddleEntry_power (s : State) : (paddleEntry s).power.keelT = s.power.keelT ∧ (paddleEntry s).power.paddle = true := by
  have hs : (signalHost s 2).power = s.power := power_of_units (units_signalHost ..)
  have hq : ∀ (t : State) (qs : List Nat),
      (enginesOff (qs.foldl (fun s q => if paddleSeat s q then s else paddleSeatOff s q) t)).power = t.power := fun t qs =>
    power_of_units ((units_enginesOff _).trans (foldl_units _ (fun s q => units_ite s rfl (units_paddleSeatOff s q)) _ _))
  unfold paddleEntry
  dsimp only
  rw [(domainsOff_power _ _).1, (domainsOff_power _ _).2, hq]
  exact ⟨(congrArg Power.keelT hs :), rfl⟩

theorem triggerBits_of_keel {p : Power} (h : p.keelT = true) : triggerBits p ≠ 0 := by
  unfold triggerBits
  rw [if_pos h]
  omega

/-- Keel's request stands whatever the paddle state does with it, and a request leaves paddle on (16 R461). -/
theorem triggersChanged_power (s : State) : (triggersChanged s).power.keelT = s.power.keelT ∧
    (s.power.keelT = true → (triggersChanged s).power.paddle = true) := by
  unfold triggersChanged
  dsimp only
  split
  · split
    · next hp =>
      split
      · have hq : ∀ (t : State) (qs : List Nat),
            (qs.foldl (fun s q => modSeat (settleSeat s q) q fun x => { x with powered := false, idle := true }) (enginesOff t)).power =
              t.power := fun t qs =>
          power_of_units ((foldl_units _ (fun s q => (units_modSeat ..).trans (units_settleSeat ..)) _ _).trans (units_enginesOff _))
        rw [(domainsOff_power _ _).1, (domainsOff_power _ _).2, hq]
        exact ⟨rfl, fun _ => hp⟩
      · exact ⟨rfl, fun _ => hp⟩
    · exact ⟨(paddleEntry_power s).1, fun _ => (paddleEntry_power s).2⟩
  · next h0 =>
    have hk : s.power.keelT = true → False := fun h => h0 (triggerBits_of_keel h)
    split
    · exact ⟨rfl, fun h => (hk h).elim⟩
    · exact ⟨rfl, fun h => (hk h).elim⟩

theorem paddleReq_requests {s s1 : State} {q : SeatNo} {ra : Reg}
    (hg : sysGranted s1 q 0o461 true (wGet s1 q.val ra.toNat) = true) (hi : Issues s q (.paddleReq q ra) s1) :
    let w := wGet s1 q.val ra.toNat
    ∃ t, exec (.paddleReq q ra) s = .next t ∧ t.power.keelT = bit w 0 ∧ (bit w 0 = true → t.power.paddle = true) := by
  intro w
  have he : exec (.paddleReq q ra) s = sysRow q (.paddleReq q ra) ra 0o461 (fun _ _ => true) s := rfl
  have hw : sysWrite s1 q.val 0o461 w = (none, withPower s1 fun p => { p with keelT := bit w 0 }) := rfl
  obtain ⟨t, ht, h⟩ := sysRow_units he hi rfl hg hw
  obtain ⟨hk, hp⟩ := triggersChanged_power { s1 with power := { s1.power with keelT := bit w 0 } }
  refine ⟨t, ht, ?_⟩
  rw [power_of_units h]
  exact ⟨hk, hp⟩

/-! The links that drop. -/

@[simp] theorem units_dropReception (s : State) (p : Nat) : units (dropReception s p) = units s := by
  unfold dropReception drawFree
  dsimp only
  split
  · split <;> simp
  · simp

@[simp] theorem units_dropTransmission (s : State) (p : Nat) : units (dropTransmission s p) = units s := by
  unfold dropTransmission drawFree
  dsimp only
  split
  · split
    · next e _ =>
      have hh := units_hwTake { s with free := s.free + 1 } p e.1
      split <;> rename_i ht <;> rw [ht] at hh
      · simpa using hh
      · simpa using hh
    · simp
  · simp

theorem getPort_of_units {s t : State} (h : units t = units s) (k : Nat) : getPort t k = getPort s k := by
  have he : t.eth = s.eth := congrArg (fun u => u.2.1) h
  rw [getPort, he, ← getPort]

theorem getPort_modPort (s : State) (p k : Nat) (f : Port → Port) :
    getPort (modPort s p f) k = if k = p then f (getPort s p) else getPort s k := smGet_smSet ..

/-- A link that drops leaves the other ports and the words of the block (19 R535). -/
theorem cutLink_keeps (s : State) (p : Nat) : (cutLink s p).sys = s.sys ∧
    ∀ k, (getPort (cutLink s p) k).linkUp = (decide (k ≠ p) && (getPort s k).linkUp) := by
  have hu : units (if (getPort s p).linkUp = true then dropTransmission (dropReception s p) p else s) = units s :=
    units_ite s (by simp) rfl
  unfold cutLink
  dsimp only
  generalize (if (getPort s p).linkUp = true then dropTransmission (dropReception s p) p else s) = u at hu ⊢
  have hp := getPort_of_units hu
  refine ⟨congrArg Prod.fst hu, fun k => ?_⟩
  rw [getPort_modPort]
  split
  · next h => simp [h]
  · next h => simp [h, hp]

/-- The ports below n after a write of ETH_MODE: a link whose fields change is down (19 R535). -/
theorem cutLinks (s : State) (w : Word) (n : Nat) :
    let t := (List.range n).foldl (fun s p => if ethField w p ≠ ethField s.sys.ethMode p then cutLink s p else s) s
    t.sys = s.sys ∧ ∀ k, (getPort t k).linkUp =
      (decide (n ≤ k ∨ ethField w k = ethField s.sys.ethMode k) && (getPort s k).linkUp) := by
  induction n with
  | zero => exact ⟨rfl, fun k => by simp⟩
  | succ n ih =>
    obtain ⟨hs, hp⟩ := ih
    dsimp only
    rw [List.range_succ, List.foldl_append, List.foldl_cons, List.foldl_nil]
    generalize (List.range n).foldl _ s = u at hs hp ⊢
    rw [hs]
    by_cases hf : ethField w n = ethField s.sys.ethMode n
    · rw [if_neg (not_not_intro hf)]
      refine ⟨hs, fun k => (hp k).trans (congrArg (· && _) (decide_eq_decide.2 ?_))⟩
      by_cases hk : k = n
      · simp [hk, hf]
      · have : n ≤ k ↔ n + 1 ≤ k := by omega
        rw [this]
    · rw [if_pos hf]
      obtain ⟨hc, hl⟩ := cutLink_keeps u n
      refine ⟨hc.trans hs, fun k => ?_⟩
      rw [hl, hp, ← Bool.and_assoc, ← Bool.decide_and]
      refine congrArg (· && _) (decide_eq_decide.2 ?_)
      by_cases hk : k = n
      · simp [hk, hf]
      · have : n ≤ k ↔ n + 1 ≤ k := by omega
        simp [hk, this]

theorem ethMode_drops {s s1 : State} {q : SeatNo} {ra : Reg}
    (hg : sysGranted s1 q 0o510 true (wGet s1 q.val ra.toNat) = true) (hi : Issues s q (.ethModeWrite q ra) s1) :
    let w := wGet s1 q.val ra.toNat
    ∃ t, exec (.ethModeWrite q ra) s = .next t ∧ t.sys.ethMode = w &&& 0o177777 ∧
      ∀ p, p < 4 → (getPort t p).linkUp =
        (decide (bits w (4 * p + 3) (4 * p) = bits s1.sys.ethMode (4 * p + 3) (4 * p)) && (getPort s1 p).linkUp) := by
  intro w
  have he : exec (.ethModeWrite q ra) s = sysRow q (.ethModeWrite q ra) ra 0o510 (fun _ _ => true) s := rfl
  have hw : sysWrite s1 q.val 0o510 w = (none, ethModePut s1 w) := rfl
  obtain ⟨t, ht, h⟩ := sysRow_units he hi rfl hg hw
  obtain ⟨hs, hp⟩ := cutLinks s1 w 4
  refine ⟨t, ht, congrArg (fun u => u.1.ethMode) h, fun p h4 => ?_⟩
  rw [getPort_of_units h]
  refine (hp p).trans (congrArg (· && _) (decide_eq_decide.2 ?_))
  exact ⟨fun h => h.resolve_left (by omega), .inr⟩

/-- Settles O29: the reads and writes by the view of the system words, SV_XFER and BANK_SEL by the registers they reach, LANE_BASE
and CASE_SETASIDE by the spans they zero, MEAS_CMD by its digest, ETH_MODE and PADDLE by what lanes and activations leave. -/
theorem systemWordEffects : Obligations.SystemWordEffects := by
  intro s s1 q rd ra sw x n w writes steady
  refine ⟨fun v hi hg hv => sysrd_reads hi hg hv, ?_, fun b old hw hv hb => syswr_writes hw.1 hw.2 hv hb,
    fun hw hb => svXferLoad_moves hw.2 hw.1 hb, fun hw hb => svXferStore_moves hw.2 hw.1 hb,
    fun hw hc => bankSelFetch_moves hw.2 hw.1 hc, fun hw hc h8 => bankSelPlace_moves hw.2 hw.1 hc h8,
    fun hw h8 => bankDataWrite_moves hw.2 hw.1 h8, fun hw => laneBase_writes hw.2 hw.1, ?_,
    fun hw hb => measExtend_extends hw.2 hw.1 hb, fun hw => ethMode_drops hw.2 hw.1, fun hw => paddleReq_requests hw.2 hw.1⟩
  · rintro hg i (rfl | rfl) hi
    · have he : exec (.tbLoRead q rd) s = seatRun q (.tbLoRead q rd) anyMode (sysrdBody q.val rd 0o40) s := rfl
      exact tbLo_reads he hi hg
    · have he : exec (.sysrd q rd 0o40) s = seatRun q (.sysrd q rd 0o40) anyMode (sysrdBody q.val rd 0o40) s := rfl
      exact tbLo_reads he hi hg
  · rintro i (rfl | rfl) ⟨hi, hg⟩ old new ⟨e, h8, hnew, hold⟩
    · have he : exec (.setasideSet q ra) s = sysRow q (.setasideSet q ra) ra 0o440
        (fun s w => (List.range 8).any fun e => (bits w 7 0).testBit e && !s.sys.setAside.testBit e) s := rfl
      exact setAside_moves he (setAside_some hi (p := fun n o => n && !o) h8 (by simpa using And.intro hnew hold)) hg hi
    · have he : exec (.setasideClear q ra) s = sysRow q (.setasideClear q ra) ra 0o440
        (fun s w => (List.range 8).any fun e => !(bits w 7 0).testBit e && s.sys.setAside.testBit e) s := rfl
      exact setAside_moves he (setAside_some hi (p := fun n o => !n && o) h8 (by simpa using And.intro hnew hold)) hg hi

end Sys2Proof.Machine
end

section

namespace Sys2Proof.Machine

/-! The integer functions of the machine in the numbers of 05 R143 to R145. -/

section
variable (a b : Word)

theorem add_ofNat : a + b = BitVec.ofNat 36 (a.toNat + b.toNat) := BitVec.eq_of_toNat_eq (by simp)

theorem mul_ofNat : a * b = BitVec.ofNat 36 (a.toNat * b.toNat) := BitVec.eq_of_toNat_eq (by simp)

theorem sub_ofInt : a - b = BitVec.ofInt 36 (a.toInt - b.toInt) := BitVec.eq_of_toInt_eq (by simp)

theorem add_ofInt : a + b = BitVec.ofInt 36 (a.toInt + b.toInt) := BitVec.eq_of_toInt_eq (by simp)

theorem mul_ofInt : a * b = BitVec.ofInt 36 (a.toInt * b.toInt) := BitVec.eq_of_toInt_eq (by simp)

theorem udiv_ofNat : a / b = BitVec.ofNat 36 (a.toNat / b.toNat) :=
  BitVec.eq_of_toNat_eq (by
    rw [BitVec.toNat_udiv, BitVec.toNat_ofNat, Nat.mod_eq_of_lt ((Nat.div_le_self ..).trans_lt a.isLt)])

theorem umod_ofNat : a % b = BitVec.ofNat 36 (a.toNat % b.toNat) :=
  BitVec.eq_of_toNat_eq (by
    rw [BitVec.toNat_umod, BitVec.toNat_ofNat, Nat.mod_eq_of_lt ((Nat.mod_le ..).trans_lt a.isLt)])

theorem boolWord_slt : boolWord (a.slt b) = oneIf (a.toInt < b.toInt) := by
  simp [boolWord, oneIf, BitVec.slt]

theorem boolWord_ult : boolWord (a.ult b) = oneIf (a.toNat < b.toNat) := by
  simp [boolWord, oneIf, BitVec.ult]

theorem ite_slt (c d : Word) : (if b.slt a then c else d) = if a.toInt ≤ b.toInt then d else c := by
  simp only [BitVec.slt, decide_eq_true_eq, ← not_le, ite_not]

theorem ite_ult (c d : Word) : (if b.ult a then c else d) = if a.toNat ≤ b.toNat then d else c := by
  simp only [BitVec.ult, decide_eq_true_eq, ← not_le, ite_not]

theorem max_signed : (if a.slt b then b else a) = if a.toInt ≤ b.toInt then b else a := by
  simp only [BitVec.slt, decide_eq_true_eq]
  rcases Int.lt_trichotomy a.toInt b.toInt with h | h | h
  · rw [if_pos h, if_pos h.le]
  · simp [BitVec.eq_of_toInt_eq h]
  · rw [if_neg h.le.not_gt, if_neg h.not_ge]

theorem max_unsigned : (if a.ult b then b else a) = if a.toNat ≤ b.toNat then b else a := by
  simp only [BitVec.ult, decide_eq_true_eq]
  rcases Nat.lt_trichotomy a.toNat b.toNat with h | h | h
  · rw [if_pos h, if_pos h.le]
  · simp [BitVec.eq_of_toNat_eq h]
  · rw [if_neg h.le.not_gt, if_neg h.not_ge]

theorem size_eq_log2 {n : Nat} (h : n ≠ 0) : n.size = n.log2 + 1 :=
  le_antisymm (Nat.size_le.2 Nat.lt_log2_self) (Nat.lt_size.2 (Nat.log2_self_le h))

theorem leadZeros_size : leadZeros a = 36 - a.toNat.size := by
  unfold leadZeros
  split_ifs with h
  · simp [h]
  · rw [size_eq_log2 h]
    omega

theorem onesCount_countP : onesCount a = (List.range 36).countP fun k => a.getLsbD k := by
  have foldl_countP : ∀ (ks : List Nat) (n : Nat), ks.foldl (fun n k => if bit a k = true then n + 1 else n) n = n + ks.countP (a.getLsbD ·) := by
    intro ks
    induction ks with
    | nil => exact fun n => rfl
    | cons k ks ih =>
      intro n
      rw [List.foldl_cons, ih, List.countP_cons, bit_eq_getLsbD]
      split_ifs <;> omega
  rw [onesCount, foldl_countP, Nat.zero_add]

/-! Shifts (R144). -/

theorem shiftA_arithBy (n : Nat) : shiftA a n = arithBy a n := by
  rw [shiftA, arithBy, BitVec.sshiftRight, Int.shiftRight_eq_div_pow]
  norm_cast

theorem shiftL_leftBy (n : Nat) : shiftL a n = leftBy a n :=
  BitVec.eq_of_toNat_eq (by simp [shiftL, leftBy, Nat.shiftLeft_eq, Nat.mul_comm])

theorem shiftR_rightBy (n : Nat) : shiftR a n = rightBy a n := by
  refine BitVec.eq_of_toNat_eq ?_
  rw [shiftR, rightBy, BitVec.toNat_ushiftRight, BitVec.toNat_ofNat, Nat.shiftRight_eq_div_pow,
    Nat.mod_eq_of_lt ((Nat.div_le_self ..).trans_lt a.isLt)]

/-- The two parts of a rotated word hold no common bit. -/
theorem rotL_rotBy (n : Nat) : rotL a n = rotBy a n := by
  have hk : n % 36 < 36 := Nat.mod_lt _ (by decide)
  have hlow : a.toNat / 2 ^ (36 - n % 36) < 2 ^ (n % 36) := by
    rw [Nat.div_lt_iff_lt_mul (Nat.two_pow_pos _), ← Nat.pow_add, Nat.add_sub_cancel' hk.le]
    exact a.isLt
  rw [rotL, BitVec.rotateLeft_def, Nat.mod_eq_of_lt hk]
  change shiftL a _ ||| shiftR a _ = _
  rw [shiftL_leftBy, shiftR_rightBy, leftBy, rightBy, ← BitVec.ofNat_or, ← Nat.two_pow_add_eq_or_of_lt hlow,
    rotBy, Nat.mul_comm a.toNat]

theorem shiftCount_eq : shiftCount b = b.toNat % 64 := by simp [shiftCount, bits]

/-! Halves, immediates and bit fields (R143, R146, R148). -/

theorem half1_toNat : (half1 a).toNat = a.toNat / 2 ^ 18 := by
  rw [half1, BitVec.toNat_ofNat]
  omega

theorem half0_toNat : (half0 a).toNat = a.toNat % 2 ^ 18 := by
  rw [half0, BitVec.toNat_ofNat]

theorem joinHalves_swap : joinHalves (half0 a) (half1 a) =
    BitVec.ofNat 36 (a.toNat % 2 ^ 18 * 2 ^ 18 + a.toNat / 2 ^ 18) := by
  rw [joinHalves, half0_toNat, half1_toNat, Nat.mul_comm]

theorem joinHalves_add : joinHalves (half1 a + half1 b) (half0 a + half0 b) =
    BitVec.ofNat 36 ((a.toNat / 2 ^ 18 + b.toNat / 2 ^ 18) % 2 ^ 18 * 2 ^ 18 + (a.toNat + b.toNat) % 2 ^ 18) := by
  rw [joinHalves, BitVec.toNat_add, BitVec.toNat_add, half1_toNat, half1_toNat, half0_toNat, half0_toNat, Nat.mul_comm,
    ← Nat.add_mod]

theorem joinHalves_sub : joinHalves (half1 a - half1 b) (half0 a - half0 b) =
    BitVec.ofNat 36 ((a.toNat / 2 ^ 18 + 2 ^ 18 - b.toNat / 2 ^ 18) % 2 ^ 18 * 2 ^ 18
      + (a.toNat % 2 ^ 18 + 2 ^ 18 - b.toNat % 2 ^ 18) % 2 ^ 18) := by
  rw [joinHalves, BitVec.toNat_sub, BitVec.toNat_sub, half1_toNat, half1_toNat, half0_toNat, half0_toNat]
  congr 1
  omega

theorem joinHalves_low : joinHalves (half0 a) (half0 b) =
    BitVec.ofNat 36 (a.toNat % 2 ^ 18 * 2 ^ 18 + b.toNat % 2 ^ 18) := by
  rw [joinHalves, half0_toNat, half0_toNat, Nat.mul_comm]

theorem joinHalves_imm (imm : BitVec 19) : joinHalves (imm.truncate 18) (half0 a) =
    BitVec.ofNat 36 (imm.toNat % 2 ^ 18 * 2 ^ 18 + a.toNat % 2 ^ 18) := by
  rw [joinHalves, half0_toNat, Nat.mul_comm]
  rfl

theorem toInt_immI (imm : BitVec 19) : (immI imm).toInt = imm.toInt := BitVec.toInt_signExtend_of_le (by decide)

theorem addImm_number (imm : BitVec 19) : a + immI imm = BitVec.ofInt 36 (a.toInt + imm.toInt) := by
  rw [add_ofInt, toInt_immI]

theorem mulImm_number (imm : BitVec 19) : a * immI imm = BitVec.ofInt 36 (a.toInt * imm.toInt) := by
  rw [mul_ofInt, toInt_immI]

theorem ltImm_number (imm : BitVec 19) : boolWord (a.slt (immI imm)) = oneIf (a.toInt < imm.toInt) := by
  rw [boolWord_slt, toInt_immI]

theorem extractU_number (pos width : Nat) :
    extractU a pos width = BitVec.ofNat 36 (a.toNat / 2 ^ pos % 2 ^ width) := by
  change shiftR a pos &&& _ = _
  rw [shiftR_rightBy, rightBy, fieldMask, ← BitVec.ofNat_and, Nat.and_two_pow_sub_one_eq_mod]

theorem getLsbD_extractU (pos width i : Nat) (hw : width ≤ 36) :
    (extractU a pos width).getLsbD i = (decide (i < width) && (a.toNat / 2 ^ pos).testBit i) := by
  rw [extractU_number, BitVec.getLsbD_ofNat, Nat.testBit_mod_two_pow, ← Bool.and_assoc, ← Bool.decide_and]
  congr 2
  exact propext ⟨fun h => h.2, fun h => ⟨by omega, h⟩⟩

/-- The field's own top bit fills the word (R146). -/
theorem extractS_number (pos : Nat) {width : Nat} (h0 : 0 < width) (hw : width ≤ 36) :
    extractS a pos width = BitVec.ofInt 36 (BitVec.ofNat width (a.toNat / 2 ^ pos)).toInt := by
  change _ = (BitVec.ofNat width (a.toNat / 2 ^ pos)).signExtend 36
  refine BitVec.eq_of_getLsbD_eq fun i hi => ?_
  have hm : (extractU a pos width <<< (36 - width)).msb = (a.toNat / 2 ^ pos).testBit (width - 1) := by
    rw [BitVec.msb_eq_getLsbD_last, BitVec.getLsbD_shiftLeft, getLsbD_extractU a pos width _ hw]
    simp [show 35 - (36 - width) = width - 1 by omega, h0, show ¬35 < 36 - width by omega]
  have hf : (BitVec.ofNat width (a.toNat / 2 ^ pos)).msb = (a.toNat / 2 ^ pos).testBit (width - 1) := by
    rw [BitVec.msb_eq_getLsbD_last, BitVec.getLsbD_ofNat, decide_eq_true (by omega), Bool.true_and]
  rw [extractS, BitVec.getLsbD_sshiftRight, BitVec.getLsbD_signExtend, hm, hf, BitVec.getLsbD_shiftLeft,
    getLsbD_extractU a pos width _ hw, BitVec.getLsbD_ofNat, decide_eq_false (Nat.not_le.2 hi), decide_eq_true hi]
  by_cases hl : i < width
  · simp [hl, show 36 - width + i < 36 by omega]
  · simp [hl, show ¬36 - width + i < 36 by omega]

end

end Sys2Proof.Machine
end

section

namespace Sys2Proof.Machine

/-! Packed octets (R150): a word by its four 9-bit slots. -/

theorem slotBits_eq (a : Word) (k : Nat) : slotBits a k = slotAt a k := by
  rw [slotBits, slotAt, bits, show 9 * k + 8 + 1 - 9 * k = 9 by omega]
  rfl

theorem slotPresent_eq (a : Word) (k : Nat) : slotPresent a k = decide (256 ≤ slotAt a k) := by
  rw [slotPresent, bit, slotAt, Nat.pow_add, ← Nat.div_div_eq_div_mul, Bool.beq_eq_decide_eq, decide_eq_decide]
  omega

theorem slotOctet_toNat (a : Word) (k : Nat) : (slotOctet a k).toNat = slotAt a k % 256 := by
  rw [slotOctet, BitVec.toNat_ofNat, bits, slotAt, show 9 * k + 7 + 1 - 9 * k = 8 by omega]
  omega

theorem oget_number (a b : Word) (aux : Reg) :
    field 0 (slotBits a (slotNo b aux)) = BitVec.ofNat 36 (slotAt a ((b.toNat + aux.toNat) % 4)) := by
  rw [field_zero, slotBits_eq, slotNo]

theorem length_presentOctets (a : Word) : (presentOctets a).length = presentCount a := by
  rw [presentOctets, List.length_map, ← List.countP_eq_length_filter, funext (slotPresent_eq a), presentCount]

theorem presentCount_le (a : Word) : presentCount a ≤ 4 := List.countP_le_length

/-- The present octets in slot order as one number. -/
theorem beNat_presentOctets (a : Word) : beNat (presentOctets a) = (List.range 4).foldl
    (fun v k => if 256 ≤ slotAt a k then 256 * v + slotAt a k % 256 else v) 0 := by
  rw [beNat, presentOctets, List.foldl_map, List.foldl_filter]
  simp only [slotPresent_eq, slotOctet_toNat, decide_eq_true_eq, Nat.mul_comm]

/-- The number of n slots of nine bits. -/
def slotSum (f : Nat → Nat) (n : Nat) : Nat := ((List.range n).map fun k => f k * 2 ^ (9 * k)).sum

theorem slotSum_succ (f : Nat → Nat) (n : Nat) : slotSum f (n + 1) = slotSum f n + f n * 2 ^ (9 * n) := List.sum_range_succ ..

theorem slotSum_lt {f : Nat → Nat} {n : Nat} (h : ∀ k, k < n → f k < 512) : slotSum f n < 2 ^ (9 * n) := by
  induction n with
  | zero => simp [slotSum]
  | succ n ih =>
    have h1 := ih fun k hk => h k (by omega)
    have h2 : f n * 2 ^ (9 * n) ≤ 511 * 2 ^ (9 * n) := Nat.mul_le_mul_right _ (Nat.le_of_lt_succ (h n (by omega)))
    have h3 : 2 ^ (9 * (n + 1)) = 512 * 2 ^ (9 * n) := by rw [Nat.mul_succ, Nat.pow_add, Nat.mul_comm]
    rw [slotSum_succ]
    omega

/-- Each slot of such a number. -/
theorem slotSum_slot {f : Nat → Nat} {n k : Nat} (h : ∀ k, k < n → f k < 512) (hk : k < n) :
    slotSum f n / 2 ^ (9 * k) % 512 = f k := by
  induction n with
  | zero => omega
  | succ n ih =>
    have hlow := slotSum_lt fun k hk => h k (Nat.lt_succ_of_lt hk)
    rw [slotSum_succ]
    rcases Nat.lt_succ_iff_lt_or_eq.1 hk with hk | rfl
    · obtain ⟨d, rfl⟩ := Nat.exists_eq_add_of_lt hk
      have e : f (k + d + 1) * 2 ^ (9 * (k + d + 1)) = 2 ^ (9 * k) * (512 * (2 ^ (9 * d) * f (k + d + 1))) := by
        rw [show 9 * (k + d + 1) = 9 * k + (9 * d + 9) by omega, Nat.pow_add, Nat.pow_add]
        ring
      rw [e, Nat.add_mul_div_left _ _ (Nat.two_pow_pos _), Nat.add_mul_mod_self_left]
      exact ih (fun k hk => h k (by omega)) hk
    · rw [Nat.add_mul_div_right _ _ (Nat.two_pow_pos _), Nat.div_eq_of_lt hlow, Nat.zero_add, Nat.mod_eq_of_lt (h _ hk)]

/-- The number of a word's first slots. -/
theorem slotSum_slotAt (a : Word) (n : Nat) : slotSum (slotAt a) n = a.toNat % 2 ^ (9 * n) := by
  induction n with
  | zero => rw [Nat.mul_zero, Nat.pow_zero, Nat.mod_one]; rfl
  | succ n ih => rw [slotSum_succ, ih, slotAt, Nat.mul_succ, Nat.pow_add, Nat.mod_mul, Nat.mul_comm (2 ^ (9 * n))]

theorem slotAt_ofNat {n k : Nat} (hn : n < 2 ^ 36) : slotAt (BitVec.ofNat 36 n) k = n / 2 ^ (9 * k) % 512 := by
  rw [slotAt, BitVec.toNat_ofNat, Nat.mod_eq_of_lt hn]

theorem eq_of_slots {a b : Word} (h : ∀ k, k < 4 → slotAt a k = slotAt b k) : a = b := by
  have hs : slotSum (slotAt a) 4 = slotSum (slotAt b) 4 :=
    congrArg List.sum (List.map_congr_left fun k hk => by rw [h k (List.mem_range.1 hk)])
  rw [slotSum_slotAt, slotSum_slotAt, Nat.mod_eq_of_lt a.isLt, Nat.mod_eq_of_lt b.isLt] at hs
  exact BitVec.eq_of_toNat_eq hs

/-- Packing octets is making the number of their slots. -/
theorem packWord_slotSum {os : List Octet} (h : os.length ≤ 4) :
    packWord os = BitVec.ofNat 36 (slotSum (fun k => 256 + (os.getD k 0).toNat) os.length) := by
  have hf : ∀ n, (List.range n).foldl (fun w k => w ||| field (9 * k) (256 + (os.getD k 0).toNat)) 0 =
      BitVec.ofNat 36 (slotSum (fun k => 256 + (os.getD k 0).toNat) n) := by
    intro n
    induction n with
    | zero => rfl
    | succ n ih =>
      have hlow : slotSum (fun k => 256 + (os.getD k 0).toNat) n < 2 ^ (9 * n) :=
        slotSum_lt fun k _ => by have := (os.getD k 0).isLt; omega
      rw [List.range_succ, List.foldl_append, ih, List.foldl_cons, List.foldl_nil, BitVec.or_comm, field_or hlow, slotSum_succ,
        Nat.mul_comm, Nat.add_comm]
  rw [packWord, Nat.min_eq_left h, hf]

theorem slotAt_packWord {os : List Octet} (h : os.length ≤ 4) {k : Nat} :
    slotAt (packWord os) k = if k < os.length then 256 + (os.getD k 0).toNat else 0 := by
  have hb : ∀ k, k < os.length → 256 + (os.getD k 0).toNat < 512 := fun k _ => by have := (os.getD k 0).isLt; omega
  have hlt := slotSum_lt hb
  have h36 : 2 ^ (9 * os.length) ≤ 2 ^ 36 := Nat.pow_le_pow_right (by decide) (by omega)
  rw [packWord_slotSum h, slotAt_ofNat (hlt.trans_le h36)]
  split_ifs with hk
  · exact slotSum_slot hb hk
  · rw [Nat.div_eq_of_lt (hlt.trans_le (Nat.pow_le_pow_right (by decide) (by omega))), Nat.zero_mod]

theorem length_beOctets (n v : Nat) : (beOctets n v).length = n := by
  induction n generalizing v with
  | zero => rfl
  | succ n ih => rw [beOctets, List.length_append, ih]; rfl

theorem getD_beOctets {n k : Nat} (v : Nat) (h : k < n) : ((beOctets n v).getD k 0).toNat = v / 2 ^ (8 * (n - 1 - k)) % 256 := by
  induction n generalizing v with
  | zero => omega
  | succ n ih =>
    rw [beOctets]
    rcases Nat.lt_succ_iff_lt_or_eq.1 h with hk | rfl
    · have e : 2 ^ (8 * (n + 1 - 1 - k)) = 256 * 2 ^ (8 * (n - 1 - k)) := by
        rw [show 8 * (n + 1 - 1 - k) = 8 + 8 * (n - 1 - k) by omega, Nat.pow_add]
      rw [List.getD_append _ _ _ _ (by rwa [length_beOctets]), ih _ hk, Nat.div_div_eq_div_mul, e]
    · rw [List.getD_append_right _ _ _ _ (by rw [length_beOctets]), length_beOctets]
      simp

theorem packLow_number (a : Word) {n : Nat} (h : n ≤ 4) : packLow a n = BitVec.ofNat 36 ((List.range n).map fun k =>
    (256 + a.toNat / 2 ^ (8 * (n - 1 - k)) % 256) * 2 ^ (9 * k)).sum := by
  have hl := length_beOctets n (a.toNat % 2 ^ (8 * n))
  rw [packLow, packWord_slotSum (by rw [hl]; exact h), hl, slotSum]
  congr 2
  refine List.map_congr_left fun k hk => ?_
  have hk := List.mem_range.1 hk
  have e : 2 ^ (8 * n) = 2 ^ (8 * (n - 1 - k)) * (256 * 2 ^ (8 * k)) := by
    rw [show (256 : Nat) = 2 ^ 8 by rfl, ← Nat.pow_add, ← Nat.pow_add]
    congr 1
    omega
  rw [getD_beOctets _ hk, e, Nat.mod_mul_right_div_self, Nat.mod_mul_right_mod]

/-- Without gaps, the present slots are the first ones. -/
theorem filter_present_prefix {a : Word} (h : isPrefix a = true) :
    (List.range 4).filter (slotPresent a) = List.range (presentCount a) := by
  have hp : ∀ k ∈ List.range 4, slotPresent a k = decide (k < presentCount a) := by
    intro k hk
    have := List.all_eq_true.1 h k hk
    rw [slotPresent_eq, decide_eq_decide]
    split_ifs at this with hc
    · simpa [hc] using this
    · have : slotAt a k = 0 := by simpa using this
      omega
  have hr : ∀ m, m ≤ 4 → (List.range 4).filter (fun k => decide (k < m)) = List.range m := by decide
  rw [List.filter_congr hp, hr _ (presentCount_le a)]

theorem prefixForm_isPrefix (a : Word) : prefixForm a = isPrefix a := by
  have hs : ∀ k, slotAt (packWord (presentOctets a)) k =
      if k < presentCount a then 256 + ((presentOctets a).getD k 0).toNat else 0 := fun k => by
    rw [slotAt_packWord ((length_presentOctets a).trans_le (presentCount_le a)), length_presentOctets]
  rw [Bool.eq_iff_iff, prefixForm, beq_iff_eq]
  constructor
  · intro h
    refine List.all_eq_true.2 fun k _ => ?_
    have hk := hs k
    rw [h] at hk
    rw [hk]
    split_ifs
    · simp
    · rfl
  · intro h
    refine eq_of_slots fun k hk => ?_
    have hp := List.all_eq_true.1 h k (List.mem_range.2 hk)
    rw [hs]
    split_ifs at hp ⊢ with hc
    · have hlt : slotAt a k < 512 := Nat.mod_lt _ (by decide)
      have hge : 256 ≤ slotAt a k := by simpa using hp
      have hg : (presentOctets a).getD k 0 = slotOctet a k := by
        rw [presentOctets, filter_present_prefix h, List.getD_eq_getElem?_getD, List.getElem?_map, List.getElem?_range hc]
        rfl
      rw [hg, slotOctet_toNat]
      omega
    · exact (beq_iff_eq.1 hp).symm

theorem octetCount_number (a : Word) :
    field 0 ((List.range 4).filter (slotPresent a)).length ||| flag 3 (prefixForm a) =
      BitVec.ofNat 36 (presentCount a + if isPrefix a then 8 else 0) := by
  have hn : ((List.range 4).filter (slotPresent a)).length = presentCount a := by
    rw [← length_presentOctets, presentOctets, List.length_map]
  have hlt : presentCount a < 2 ^ 3 := (presentCount_le a).trans_lt (by decide)
  rw [hn, prefixForm_isPrefix, field_zero, flag_eq, BitVec.or_comm, field_or hlt, Nat.add_comm]
  split_ifs <;> rfl

/-- A field replaced in a word, as a number (R146, R150). -/
theorem insertField_number (d a : Word) {pos width : Nat} (h : pos + width ≤ 36) :
    insertField d a pos width = BitVec.ofNat 36
      (d.toNat - d.toNat / 2 ^ pos % 2 ^ width * 2 ^ pos + a.toNat % 2 ^ width * 2 ^ pos) := by
  have hlow : d.toNat % 2 ^ pos < 2 ^ pos := Nat.mod_lt _ (Nat.two_pow_pos _)
  have hv : a.toNat % 2 ^ width < 2 ^ width := Nat.mod_lt _ (Nat.two_pow_pos _)
  have hd : d.toNat - d.toNat / 2 ^ pos % 2 ^ width * 2 ^ pos + a.toNat % 2 ^ width * 2 ^ pos =
      2 ^ pos * (2 ^ width * (d.toNat / 2 ^ pos / 2 ^ width) + a.toNat % 2 ^ width) + d.toNat % 2 ^ pos := by
    have e : d.toNat = 2 ^ pos * (2 ^ width * (d.toNat / 2 ^ pos / 2 ^ width)) + d.toNat % 2 ^ pos
        + d.toNat / 2 ^ pos % 2 ^ width * 2 ^ pos := by
      conv_lhs => rw [← Nat.div_add_mod d.toNat (2 ^ pos), ← Nat.div_add_mod (d.toNat / 2 ^ pos) (2 ^ width)]
      ring
    rw [Nat.sub_eq_of_eq_add e]
    ring
  have hm : ∀ j, (fieldMask width).getLsbD j = (decide (j < 36) && decide (j < width)) := fun j => by
    rw [fieldMask, BitVec.getLsbD_ofNat, Nat.testBit_two_pow_sub_one]
  rw [hd]
  refine BitVec.eq_of_getLsbD_eq fun i hi => ?_
  rw [BitVec.getLsbD_ofNat, Nat.testBit_two_pow_mul_add _ hlow, Nat.testBit_two_pow_mul_add _ hv]
  simp only [insertField, BitVec.getLsbD_or, BitVec.getLsbD_and, BitVec.getLsbD_not, BitVec.getLsbD_shiftLeft, hm, hi,
    decide_true, Bool.true_and, Nat.testBit_mod_two_pow, Nat.testBit_div_two_pow]
  by_cases hp : i < pos
  · simp [hp, BitVec.getLsbD]
  · by_cases hw : i - pos < width
    · simp [hp, hw, BitVec.getLsbD, show i - pos < 36 by omega]
    · simp [hp, hw, BitVec.getLsbD, show i - pos - width + width + pos = i by omega]

theorem oput_number (d a : Word) {k : Nat} (h : k < 4) : insertField d a (9 * k) 9 =
    BitVec.ofNat 36 (d.toNat - slotAt d k * 2 ^ (9 * k) + slotAt a 0 * 2 ^ (9 * k)) := by
  rw [insertField_number d a (by omega), slotAt, slotAt, Nat.mul_zero, Nat.pow_zero, Nat.div_one]
  rfl

end Sys2Proof.Machine
end

section

namespace Sys2Proof.Machine

/-! Register instructions complete with the stated numbers (05 R143 to R150). -/

/-- An instruction that writes one word register completes when its value is the stated one. -/
theorem writesW_done {s s1 : State} {q : SeatNo} {i : Instr} {rd : Reg} {value : State → Word} {w : Word}
    (hi : Issues s q i s1) (hv : value s1 = w) (ho : pairOver (wSet s1 q.val rd.toNat w) q.val = false) :
    ∃ t, seatRun q i anyMode (fun s => done (wSet s q.val rd.toNat (value s))) s = .next t ∧
      quiet q.val t = quiet q.val (nextInstr q.val (seatLen i) (wSet s1 q.val rd.toNat w)) :=
  seatRun_done hi rfl (by rw [hv]) ho

theorem integer_completes : Completes integerResult := by
  intro i q f s s1 r ht hi hf ho
  unfold integerResult writesW at ht
  split at ht <;> cases ht <;> cases hf
  · exact writesW_done hi (add_ofNat ..) ho
  · exact writesW_done hi (sub_ofInt ..) ho
  · exact writesW_done hi rfl ho
  · exact writesW_done hi rfl ho
  · exact writesW_done hi rfl ho
  · exact writesW_done hi rfl ho
  · exact writesW_done hi (boolWord_slt ..) ho
  · exact writesW_done hi (boolWord_ult ..) ho
  · exact writesW_done hi (ite_slt ..) ho
  · exact writesW_done hi (max_signed ..) ho
  · exact writesW_done hi (ite_ult ..) ho
  · exact writesW_done hi (max_unsigned ..) ho
  · exact writesW_done hi (congrArg _ (leadZeros_size _)) ho
  · exact writesW_done hi (congrArg _ (onesCount_countP _)) ho
  · exact writesW_done hi rfl ho
  · exact writesW_done hi (mul_ofNat ..) ho
  · exact writesW_done hi rfl ho
  · exact writesW_done hi rfl ho
  · exact writesW_done hi (joinHalves_swap _) ho
  · exact writesW_done hi (joinHalves_add ..) ho
  · exact writesW_done hi (joinHalves_sub ..) ho
  · exact writesW_done hi (joinHalves_low ..) ho
  · exact writesW_done hi rfl ho
  · exact writesW_done hi rfl ho

theorem shift_completes : Completes shiftResult := by
  intro i q f s s1 r ht hi hf ho
  unfold shiftResult writesW at ht
  split at ht <;> cases ht <;> cases hf
  · exact writesW_done hi ((congrArg _ (shiftCount_eq _)).trans (shiftL_leftBy ..)) ho
  · exact writesW_done hi ((congrArg _ (shiftCount_eq _)).trans (shiftR_rightBy ..)) ho
  · exact writesW_done hi ((congrArg _ (shiftCount_eq _)).trans (shiftA_arithBy ..)) ho
  · exact writesW_done hi ((congrArg _ (shiftCount_eq _)).trans (rotL_rotBy ..)) ho
  · exact writesW_done hi (shiftL_leftBy ..) ho
  · exact writesW_done hi (shiftR_rightBy ..) ho
  · exact writesW_done hi (shiftA_arithBy ..) ho
  · exact writesW_done hi (rotL_rotBy ..) ho

/-- MULD writes its double; nothing in the sum modulo 2^36 is lost (R147). -/
theorem wideProduct_completes : Completes wideProductResult := by
  intro i q f s s1 r ht hi hf ho
  unfold wideProductResult at ht
  split at ht <;> cases ht
  cases hf
  exact seatRun_done hi rfl rfl ho

/-- A division by a divisor that is not zero completes when its value is the stated one. -/
theorem divides_done {s s1 r : State} {q : SeatNo} {i : Instr} {rd ra rb : Reg} (f : Word → Word → Word) {v : Word → Word → Word}
    (hv : ∀ a b, f a b = v a b) (hi : Issues s q i s1)
    (hr : (if wGet s1 q.val rb.toNat = 0 then none
      else some (wSet s1 q.val rd.toNat (v (wGet s1 q.val ra.toNat) (wGet s1 q.val rb.toNat)))) = some r)
    (ho : pairOver r q.val = false) :
    ∃ t, regDiv q i rd ra rb f s = .next t ∧ quiet q.val t = quiet q.val (nextInstr q.val (seatLen i) r) := by
  obtain ⟨h0, hr⟩ := Option.ite_none_left_eq_some.1 hr
  cases hr
  exact seatRun_done hi rfl (by rw [if_neg h0, hv]) ho

theorem division_completes : Completes divisionResult := by
  intro i q f s s1 r ht hi hf ho
  unfold divisionResult divides at ht
  split at ht <;> cases ht
  · exact divides_done (fun a b => BitVec.ofInt 36 (a.toInt.tdiv b.toInt)) (fun _ _ => rfl) hi hf ho
  · exact divides_done (fun a b => a / b) udiv_ofNat hi hf ho
  · exact divides_done (fun a b => BitVec.ofInt 36 (a.toInt.tmod b.toInt)) (fun _ _ => rfl) hi hf ho
  · exact divides_done (fun a b => a % b) umod_ofNat hi hf ho

theorem field_completes : Completes fieldResult := by
  intro i q f s s1 r ht hi hf ho
  unfold fieldResult writesW at ht
  split at ht <;> cases ht <;> cases hf
  · exact writesW_done hi (extractU_number ..) ho
  next pos aux => exact writesW_done hi (extractS_number _ _ (Nat.succ_pos _) (by have := aux.isLt; omega)) ho
  · exact writesW_done hi rfl ho

theorem immediate_completes : Completes immediateResult := by
  intro i q f s s1 r ht hi hf ho
  unfold immediateResult writesW at ht
  split at ht <;> cases ht <;> cases hf
  · exact writesW_done hi (addImm_number ..) ho
  · exact writesW_done hi rfl ho
  · exact writesW_done hi rfl ho
  · exact writesW_done hi rfl ho
  · exact writesW_done hi (ltImm_number ..) ho
  · exact writesW_done hi (boolWord_ult ..) ho
  · exact writesW_done hi (joinHalves_imm ..) ho
  · exact writesW_done hi (mulImm_number ..) ho
  · exact writesW_done hi rfl ho
  · exact writesW_done hi (add_ofNat ..) ho
  · exact writesW_done hi rfl ho
  · exact writesW_done hi rfl ho
  · exact writesW_done hi rfl ho

theorem octet_completes : Completes octetResult := by
  intro i q f s s1 r ht hi hf ho
  unfold octetResult writesW at ht
  split at ht <;> cases ht <;> cases hf
  next aux =>
    have hl : aux.toNat ≤ 4 := by
      obtain ⟨-, -, hl, -⟩ := hi
      exact of_decide_eq_true (Bool.and_eq_true_iff.1 hl).2
    exact writesW_done hi (packLow_number _ hl) ho
  · exact writesW_done hi (congrArg _ (beNat_presentOctets _)) ho
  · exact writesW_done hi (oget_number ..) ho
  · exact writesW_done hi (oput_number _ _ (Nat.mod_lt _ (by decide))) ho
  · exact writesW_done hi (octetCount_number _) ho

/-- Settles O8: each table's values by the number that its operation is. -/
theorem integerResults : Obligations.IntegerResults :=
  ⟨integer_completes, shift_completes, wideProduct_completes, division_completes, field_completes, immediate_completes,
    octet_completes⟩

end Sys2Proof.Machine
end

section

namespace Sys2Proof.Machine

/-! The frame of a register instruction: what a write of a word register, and going on, leave of the seat and of the block. -/

/-- Of t, only w registers of seat q's bank in use can differ from s, those that P names. -/
structure WordsOnly (q : Nat) (P : Nat → Prop) (s t : State) : Prop where
  words : ∀ k, ¬P k → wGet t q k = wGet s q k
  caps : ∀ k, cGet t q k = cGet s q k
  wide : ∀ k j, vGet t q k j = vGet s q k j
  status : statusOfSeat t q = statusOfSeat s q
  pcc : pccGet t q = pccGet s q
  alone : SeatAlone q s t
  outputs : pairOver t q = pairOver s q

theorem bankSetW_keeps (b : Bank) (r : Nat) (v : Word) : (bankSetW b r v).pcc = b.pcc ∧ (bankSetW b r v).role = b.role ∧
    (bankSetW b r v).pairBuf = b.pairBuf := by
  unfold bankSetW
  split <;> exact ⟨rfl, rfl, rfl⟩

theorem seatAlone_modSeat (s : State) (q : Nat) (f : Seat → Seat) : SeatAlone q s (modSeat s q f) :=
  ⟨rfl, fun p hp => by rw [getSeat_modSeat, if_neg hp]⟩

theorem SeatAlone.trans {q : Nat} {s t u : State} (h : SeatAlone q s t) (h' : SeatAlone q t u) : SeatAlone q s u :=
  ⟨h'.1.trans h.1, fun p hp => (h'.2 p hp).trans (h.2 p hp)⟩

theorem wordsOnly_wSet {P : Nat → Prop} (s : State) (q : Nat) {r : Nat} (v : Word) (h : P r) : WordsOnly q P s (wSet s q r v) where
  words k hk := by
    rw [wGet_wSet, if_neg]
    rintro ⟨rfl, -⟩
    exact hk h
  caps k := cGet_wSet ..
  wide k j := by simp [vGet, wSet, getSeat_modCur, modBank, setBank]
  status := status_modCur ..
  pcc := by simp [pccGet, wSet, bankSetW_keeps]
  alone := seatAlone_modSeat ..
  outputs := pairOver_congr rfl (by simp [wSet, bankSetW_keeps]) (by simp [wSet, bankSetW_keeps])

theorem WordsOnly.trans {q : Nat} {P : Nat → Prop} {s t u : State} (h : WordsOnly q P s t) (h' : WordsOnly q P t u) :
    WordsOnly q P s u where
  words k hk := (h'.words k hk).trans (h.words k hk)
  caps k := (h'.caps k).trans (h.caps k)
  wide k j := (h'.wide k j).trans (h.wide k j)
  status := h'.status.trans h.status
  pcc := h'.pcc.trans h.pcc
  alone := h.alone.trans h'.alone
  outputs := h'.outputs.trans h.outputs

/-- States that are alike apart from counters and samples hold the same beside them. -/
theorem quiet_seatAlone {q : Nat} {s t : State} (h : quiet q t = quiet q s) : SeatAlone q s t := by
  refine ⟨(congrArg (fun u : State => { u with seats := [], counters := [] }) h :), fun p hp => ?_⟩
  have hg : ∀ u : State, getSeat (quiet q u) p = getSeat u p := fun u => (getSeat_modSeat u q p unsampled).trans (if_neg hp)
  rw [← hg t, h, hg]

theorem quiet_wide {q : Nat} {s t : State} (h : quiet q t = quiet q s) (k j : Nat) : vGet t q k j = vGet s q k j := by
  have hx : unsampled (getSeat t q) = unsampled (getSeat s q) := by rw [← getSeat_quiet_self, ← getSeat_quiet_self, h]
  exact (congrArg (fun x : Seat => smGet 0 x.wide (8 * k + j)) hx :)

/-- The state that an instruction leaves when it writes word registers alone and goes on. -/
theorem nextInstr_frame {q : SeatNo} {n : Nat} {P : Nat → Prop} {s r t : State} (hw : WordsOnly q.val P s r)
    (ht : quiet q.val t = quiet q.val (nextInstr q.val n r)) :
    (∀ k, ¬P k → wGet t q.val k = wGet s q.val k) ∧ (∀ k, cGet t q.val k = cGet s q.val k) ∧
      (∀ k j, vGet t q.val k j = vGet s q.val k j) ∧ statusOfSeat t q.val = statusOfSeat s q.val ∧
      pccGet t q.val = capSetCursor (pccGet s q.val) ((pcOf s q.val + n) % 2 ^ 36) ∧ SeatAlone q.val s t := by
  obtain ⟨-, hst, hb⟩ := alike_of_quiet ht
  have hc : curBank (getSeat t q.val) = { curBank (getSeat r q.val) with
      pcc := capSetCursor (pccGet r q.val) ((pcOf r q.val + n) % 2 ^ 36), progress := 0 } := by
    rw [curBank, hst, hb, ← curBank, nextInstr, goOn, curBank_modCur]
    rfl
  have hs : SeatAlone q.val r t := (seatAlone_modSeat ..).trans (quiet_seatAlone ht)
  refine ⟨fun k hk => ?_, fun k => ?_, fun k j => ?_, ?_, ?_, hw.alone.trans hs⟩
  · rw [← hw.words k hk, wGet, hc]
    rfl
  · rw [← hw.caps k, cGet, hc]
    rfl
  · rw [quiet_wide ht, ← hw.wide k j, nextInstr, goOn, vGet, getSeat_modCur]
    rfl
  · rw [statusOfSeat, hst, nextInstr, goOn, status_modCur, ← hw.status]
    rfl
  · rw [pccGet, hc, ← hw.pcc, pcOf, pcOf, ← hw.pcc]

theorem rd_encA (op : BitVec 7) (rd ra rb : Reg) (fn : BitVec 9) (aux : Reg) : (encA op rd ra rb fn aux).extractLsb' 24 5 = rd :=
  extract_eq (by rw [encA_toNat]; omega)

theorem rd_encI (op : BitVec 7) (rd ra : Reg) (imm : BitVec 19) : (encI op rd ra imm).extractLsb' 24 5 = rd :=
  extract_eq (by rw [encI_toNat]; omega)

theorem rd_encL (op : BitVec 7) (rd ra : Reg) (fn : BitVec 9) : (encL op rd ra fn).extractLsb' 24 5 = rd :=
  extract_eq (by rw [encL_toNat]; omega)

/-- The registers that an instruction of the tables writes: that of its rd, and of MULD the next. -/
def written (i : Instr) (k : Nat) : Prop :=
  k = ((seatWord i).extractLsb' 24 5).toNat ∨ (wideProductResult i).isSome = true ∧ k = ((seatWord i).extractLsb' 24 5).toNat + 1

/-- A table whose instructions write word registers alone, those of written. -/
def WritesWords (table : EffectTable) : Prop :=
  ∀ i q f s r, table i = some (q, f) → f s = some r → WordsOnly q.val (written i) s r

theorem wordsOnly_rd {i : Instr} {rd : Reg} (s : State) (q : SeatNo) (v : Word) (h : (seatWord i).extractLsb' 24 5 = rd) :
    WordsOnly q.val (written i) s (wSet s q.val rd.toNat v) :=
  wordsOnly_wSet _ _ _ (.inl (congrArg BitVec.toNat h.symm))

theorem integer_writesWords : WritesWords integerResult := by
  intro i q f s r ht hf
  unfold integerResult writesW at ht
  split at ht <;> cases ht <;> cases hf <;> exact wordsOnly_rd _ _ _ (rd_encA ..)

theorem shift_writesWords : WritesWords shiftResult := by
  intro i q f s r ht hf
  unfold shiftResult writesW at ht
  split at ht <;> cases ht <;> cases hf <;> exact wordsOnly_rd _ _ _ (rd_encA ..)

theorem field_writesWords : WritesWords fieldResult := by
  intro i q f s r ht hf
  unfold fieldResult writesW at ht
  split at ht <;> cases ht <;> cases hf <;> exact wordsOnly_rd _ _ _ (rd_encA ..)

theorem octet_writesWords : WritesWords octetResult := by
  intro i q f s r ht hf
  unfold octetResult writesW at ht
  split at ht <;> cases ht <;> cases hf <;> exact wordsOnly_rd _ _ _ (rd_encA ..)

theorem immediate_writesWords : WritesWords immediateResult := by
  intro i q f s r ht hf
  unfold immediateResult writesW at ht
  split at ht <;> cases ht <;> cases hf
  iterate 8 exact wordsOnly_rd _ _ _ (rd_encI ..)
  all_goals exact wordsOnly_rd _ _ _ (rd_encL ..)

theorem divides_writes {q p : SeatNo} {i : Instr} {rd ra rb : Reg} {v : Word → Word → Word} {f : State → Option State}
    {s r : State} (ht : divides q rd ra rb v = some (p, f)) (hf : f s = some r) (h : (seatWord i).extractLsb' 24 5 = rd) :
    WordsOnly p.val (written i) s r := by
  cases ht
  obtain ⟨-, hr⟩ := Option.ite_none_left_eq_some.1 hf
  cases hr
  exact wordsOnly_rd _ _ _ h

theorem division_writesWords : WritesWords divisionResult := by
  intro i q f s r ht hf
  unfold divisionResult at ht
  split at ht
  iterate 4 exact divides_writes ht hf (rd_encA ..)
  cases ht

theorem wideProduct_writesWords : WritesWords wideProductResult := by
  intro i q f s r ht hf
  unfold wideProductResult at ht
  split at ht <;> cases ht
  cases hf
  next rd ra rb =>
    have hrd : (seatWord (.muld q rd ra rb)).extractLsb' 24 5 = rd := rd_encA ..
    have hnext : written (.muld q rd ra rb) (rd.toNat + 1) := .inr ⟨rfl, by rw [hrd]⟩
    exact (wordsOnly_rd s q _ hrd).trans (wordsOnly_wSet _ _ _ hnext)

/-- A register instruction that completes with a table's effect leaves all but its words and its cursor. -/
theorem register_frame {table : EffectTable} (hc : Completes table) (hw : WritesWords table) {i : Instr} {q : SeatNo}
    {f : State → Option State} {s s1 r : State} (ht : table i = some (q, f)) (hi : Issues s q i s1) (hf : f s1 = some r) :
    ∃ t, exec i s = .next t ∧ (∀ k, ¬written i k → wGet t q.val k = wGet s1 q.val k) ∧
      (∀ k, cGet t q.val k = cGet s1 q.val k) ∧ (∀ k j, vGet t q.val k j = vGet s1 q.val k j) ∧
      statusOfSeat t q.val = statusOfSeat s1 q.val ∧
      pccGet t q.val = capSetCursor (pccGet s1 q.val) ((pcOf s1 q.val + seatLen i) % 2 ^ 36) ∧ SeatAlone q.val s1 t := by
  have ho := hw i q f s1 r ht hf
  obtain ⟨t, he, hq⟩ := hc i q f s s1 r ht hi hf (ho.outputs.trans hi.pairOver)
  exact ⟨t, he, nextInstr_frame ho hq⟩

/-- Settles O10: each table completes and writes words alone; going on moves the cursor. -/
theorem registerInstructionsFrame : Obligations.RegisterInstructionsFrame := by
  intro table ht i q f s s1 r rd he hi hf hrd
  have hall : ∀ t ∈ [integerResult, shiftResult, fieldResult, immediateResult, octetResult, wideProductResult, divisionResult],
      Completes t ∧ WritesWords t := by
    simp only [List.forall_mem_cons, List.not_mem_nil, false_implies, implies_true, and_true]
    exact ⟨⟨integer_completes, integer_writesWords⟩, ⟨shift_completes, shift_writesWords⟩, ⟨field_completes, field_writesWords⟩,
      ⟨immediate_completes, immediate_writesWords⟩, ⟨octet_completes, octet_writesWords⟩,
      ⟨wideProduct_completes, wideProduct_writesWords⟩, ⟨division_completes, division_writesWords⟩⟩
  obtain ⟨hc, hw⟩ := hall table ht
  obtain ⟨t, hx, hk, hrest⟩ := register_frame hc hw he hi hf
  refine ⟨t, hx, fun k h1 h2 => hk k ?_, hrest⟩
  subst hrd
  rintro (h | ⟨hs, h⟩)
  · exact h1 h
  · rcases h2 with hn | hn
    · exact absurd hs (by simp [Option.isNone_iff_eq_none.1 hn])
    · exact hn h

end Sys2Proof.Machine
end

section

namespace Sys2Proof.Machine

/-! A division by zero, whose trap to M corrects a latent error as the reload of a stale code word reads it (see above O13). -/

theorem div_correctsInTrap : correctsInTrap (.div 0 3 1 0) (fun s => wGet s 0 0 == 0) = true := by decide +kernel

/-- Refutes O18: a DIV by w0 traps DIVZERO to M, and the entry's reload of a stale code word corrects and counts a latent error,
though no save set was occupied: memory differs. -/
theorem not_refusedInstructionsTrap : ¬ Obligations.RefusedInstructionsTrap := by
  rintro ⟨-, -, -, h⟩
  obtain ⟨s1, hi, -, ho, hw⟩ := writes_of_correctsInTrap div_correctsInTrap
  obtain ⟨t, ht, -, hn⟩ := h (.div 0 3 1 0) 0 3 1 0 staleUpset s1 (.inl rfl) hi rfl
  exact hw t ht (hn ho)

end Sys2Proof.Machine
end

section

namespace Sys2Proof.Machine

/-! An END at M of a bank whose way-enough waits, while the M set of another seat names a bank of the same lane's activation: the
way-enough goes on waiting for that seat, and the bank stays as it is (07 R237). -/

/-- C0.0 at M, its M set naming bank 0, which is running and whose way-enough waits. -/
def awaitedSeat : Seat :=
  { setBank rootSeat 0 { st := .running, abortHeld := true } with svM := { bank := flag 35 true } }

/-- So, with C0.1 at M over a bank of the same lane. The fence admits the lane unit to the lane's descriptor. -/
def awaited : State :=
  { State.reset with
    seats := [(0, awaitedSeat), (1, { banks := [(0, { st := .running })], svM := { bank := flag 35 true } })],
    fence := { d := [(1, 4095), (2, 6), (3, flag 10 true)] } }

theorem endAct_awaited_issues :
    issuesTo awaited 0 (.endAct 0) (fun s =>
      let x := getSeat s 0
      x.status.lvl == .M && occupied x.svM && saveBank x.svM == 0 && (classOf s 0).isNone && (getBank x 0).st == .running &&
        (getBank x 0).lane == 0 && ((List.range 8).all fun c => (getBank x c).role == .none) && s.mem.flips.isEmpty &&
        s.mem.rot.isEmpty && descReads s 0 1 && (laneSt s 0).state != lsClosing) = true := by decide +kernel

theorem endAct_awaited :
    (match exec (.endAct 0) awaited with
      | .next t => (getBank (getSeat t 0) 0).st == .running
      | _ => false) = true := by decide +kernel

/-- Refutes O14: the END at M leaves the bank running. -/
theorem not_controlResults : ¬ Obligations.ControlResults := by
  rintro ⟨-, -, h, -⟩
  obtain ⟨s1, hi, hs⟩ := issues_of_issuesTo endAct_awaited_issues
  simp only [Bool.and_eq_true, beq_iff_eq, bne_iff_ne, List.all_eq_true, List.mem_range, List.isEmpty_iff,
    Option.isNone_iff_eq_none] at hs
  obtain ⟨⟨⟨⟨⟨⟨⟨⟨⟨⟨hl, ho⟩, hb⟩, hc⟩, hst⟩, hlane⟩, hr⟩, hf⟩, hrot⟩, hd⟩, hcl⟩ := hs
  have hend := h awaited s1 0 hi
  have h0 : ((0 : SeatNo) : Nat) = 0 := rfl
  simp only [h0, hl, if_true, hb, hlane] at hend
  obtain ⟨t, ht, hfree, -⟩ := hend (by decide) (fun _ => ⟨ho, fun k hk => by simp_all⟩) hst hr hf hrot hd hcl
  have hrun := endAct_awaited
  rw [ht, beq_iff_eq] at hrun
  rw [hrun] at hfree
  cases hfree

end Sys2Proof.Machine
end

section

namespace Sys2Proof.Machine

/-! An instruction that raises a trap. -/

/-- What an instruction that traps from its body leaves: the progress of the trap in its bank, and the trap taken. -/
theorem seatInstr_traps {q : Nat} {word : Word} {len : Nat} {permitted : Status → Bool}
    {body : State → Except (Trap × State) Done} {s u : State} {p : Passed} {t : Trap} (hc : canIssue s q = true)
    (ha : accessAll q [fetchAccess s q len] s = .ok p)
    (hp : permitted (statusOfSeat (modSeat p.st q decoded) q) = true) (hb : body (modSeat p.st q decoded) = .error (t, u))
    (ho : pairOver u q = false) :
    quiet q (seatInstr q word len true permitted body s) =
      quiet q (takeTrap (modCur u q fun k => { k with progress := t.prog }) q t) := by
  simp only [seatInstr, hc, ha, hp, hb]
  simp only [ho, Bool.not_true, Bool.false_or, Bool.false_eq_true, if_false]
  split
  · exact quiet_sampleKeep ..
  · rfl

theorem seatRun_traps {q : SeatNo} {i : Instr} {permitted : Status → Bool} {body : State → Except (Trap × State) Done}
    {s s1 u : State} {t : Trap} (hi : Issues s q i s1) (hp : permitted (statusOfSeat s1 q.val) = true)
    (hb : body s1 = .error (t, u)) (ho : pairOver u q.val = false) :
    ∃ v, seatRun q i permitted body s = .next v ∧
      quiet q.val v = quiet q.val (takeTrap (modCur u q.val fun k => { k with progress := t.prog }) q.val t) := by
  obtain ⟨hc, -, hl, p, ha, rfl⟩ := hi
  refine ⟨_, rfl, ?_⟩
  rw [hl]
  exact seatInstr_traps hc ha hp hb ho

/-- The save set that a trap of the seat's side takes: M's, or the S set of its side (07 R217). -/
def trapSet (x : Seat) (t : Trap) (y : Seat) : SaveSet :=
  if trapToM x t then y.svM else if x.status.side then y.svBow else y.svStroke

theorem saveSet_sideSet (x : Seat) (side : Bool) : saveSet x (sideSet side) = if side then x.svBow else x.svStroke := by
  cases side <;> rfl

/-- What a trap leaves in the save set that it takes (07 R217). -/
def TrapSaved (x : Seat) (t : Trap) (v : SaveSet) : Prop :=
  v.pcc = (curBank x).pcc ∧ v.addr = t.addr ∧ v.cause = causeWord t false t.cause 0

/-- A change of a seat with what follows it keeps the save sets that the change leaves. -/
theorem saveSet_residUpdate (now : Nat) (x : Seat) (i : Nat) : saveSet (residUpdate now x) i = saveSet x i := by
  obtain ⟨r, f, d, h⟩ := residUpdate_only now x
  rw [h]
  rfl

/-- The reload of stale code words leaves the save sets. -/
theorem saveSet_reloadCode (s : State) (q i : Nat) : saveSet (getSeat (reloadCode s q) q) i = saveSet (getSeat s q) i := by
  unfold reloadCode
  dsimp only
  rw [getSeat_modSeat_self]
  obtain ⟨m, x, p, f, h⟩ := meetWords_only s
    ((((getSeat s q).stale.map fun e => 16384 * (getSeat s q).codeBase + e.1).filter (copyReads s)).filter
      fun a => !viewIn s (some q) a)
  rw [viewMeets, h]
  rfl

theorem saveSet_setSaveSet (x : Seat) (i : Nat) (v : SaveSet) : saveSet (setSaveSet x i v) i = v := by
  unfold saveSet setSaveSet
  split
  · rfl
  · split <;> rfl

/-- An entry to S saves what the trap says (07 R217, R220). -/
theorem enterS_saves (s : State) (q : Nat) (t : Trap) :
    TrapSaved (getSeat s q) t (saveSet (getSeat (enterS s q t) q) (sideSet (getSeat s q).status.side)) := by
  unfold enterS
  dsimp only
  rw [saveSet_reloadCode, getSeat_modSeatR, if_pos rfl, saveSet_residUpdate]
  have : ∀ (v : SaveSet) (f : Bank → Bank) (st : Status),
      saveSet { modBank (setSaveSet (getSeat s q) (sideSet (getSeat s q).status.side) v)
        (setSaveSet (getSeat s q) (sideSet (getSeat s q).status.side) v).status.bank f with status := st }
        (sideSet (getSeat s q).status.side) = v := fun v f st => saveSet_setSaveSet ..
  rw [this]
  exact ⟨rfl, rfl, rfl⟩

/-- So does an entry to M. -/
theorem enterM_saves (s : State) (q : Nat) (t : Trap) (b : Nat) :
    TrapSaved (getSeat s q) t (saveSet (getSeat (enterM s q t false t.cause 0 (curBank (getSeat s q)).pcc b) q) 2) := by
  unfold enterM
  dsimp only
  rw [saveSet_reloadCode, getSeat_modSeatR, if_pos rfl, saveSet_residUpdate]
  exact ⟨rfl, rfl, rfl⟩

/-- A trap into a save set that is not OCCUPIED, where the M hold does not stand, saves what it says. -/
theorem takeTrap_saves {s : State} {q : Nat} {t : Trap} (hm : mHeld s = false)
    (ho : occupied (trapSet (getSeat s q) t (getSeat s q)) = false) :
    TrapSaved (getSeat s q) t (trapSet (getSeat s q) t (getSeat (takeTrap s q t) q)) := by
  unfold trapSet at ho ⊢
  by_cases hx : trapToM (getSeat s q) t
  · rw [if_pos hx] at ho ⊢
    unfold takeTrap
    simp only [hx, if_true, ho, hm, Bool.false_eq_true, if_false, getSeat_seatCount]
    exact enterM_saves ..
  · rw [if_neg hx, ← saveSet_sideSet] at ho ⊢
    unfold takeTrap
    simp only [hx, ho, Bool.false_eq_true, if_false, getSeat_seatCount]
    exact enterS_saves ..

/-! The cause in SV_CAUSE. -/

theorem bits_causeWord_call (imm : Word) : bits (causeWord { cause := cCALL, addr := imm } false cCALL 0) 5 0 = 0o30 :=
  have : bits (causeWord { cause := cCALL } false cCALL 0) 5 0 = 0o30 := by decide
  this

theorem trapSet_unsampled (x : Seat) (t : Trap) (y z : Seat) (h : unsampled y = unsampled z) : trapSet x t y = trapSet x t z := by
  have h' := congrArg (trapSet x t) h
  exact h'

end Sys2Proof.Machine
end

section

namespace Sys2Proof.Machine

/-- TRAP raises CALL with its immediate (05 R163). -/
theorem trap_traps (q : SeatNo) (imm : BitVec 19) {s s1 : State} (hi : Issues s q (.trap q imm) s1) :
    ∃ t, exec (.trap q imm) s = .next t ∧
      quiet q.val t = quiet q.val (takeTrap (modCur s1 q.val fun b => { b with progress := 0 }) q.val
        { cause := cCALL, addr := imm.signExtend 36 }) := by
  obtain ⟨t, ht, hq⟩ := seatRun_traps (permitted := anyMode)
    (body := fun s => .error ({ cause := cCALL, addr := immI imm }, s)) hi rfl rfl hi.pairOver
  refine ⟨t, ht, ?_⟩
  exact hq

/-- The fetch of a word on its own is that of any instruction of one word: of RET, say. -/
theorem issues_ret_of_fetch {q : SeatNo} {s : State} {p : Passed} (hc : canIssue s q.val = true) (ho : pairOver s q.val = false)
    (ha : accessAll q.val [fetchAccess s q.val 1] s = .ok p) : Issues s q (.ret q) (modSeat p.st q.val decoded) :=
  have hlen : seatLen (.ret q) = 1 := Laws.Length.ret q
  ⟨hc, ho, rfl, p, by rw [hlen]; exact ha, rfl⟩

/-- A word with no instruction, of one word's length, raises the cause of its decode, or ILLEGAL in ring mode (04 R130, R138). -/
theorem unassigned_traps (q : SeatNo) (w imm : Word) (k : Nat) {s : State} {p : Passed} (hc : canIssue s q.val = true)
    (ho : pairOver s q.val = false) (hd : decodeSeat q w imm = .error k) (hw : w.toNat / 2 ^ 29 ≠ 0o030)
    (ha : accessAll q.val [fetchAccess s q.val 1] s = .ok p) :
    ∃ t, exec (.unassignedOpcode q w imm) s = .next t ∧
      quiet q.val t = quiet q.val (takeTrap
        (modCur (modSeat p.st q.val decoded) q.val fun b => { b with progress := 0 }) q.val
        { cause := if inRing s q.val then 0o17 else k, addr := (pccGet s q.val).w0, aux := w }) := by
  have hi := issues_ret_of_fetch hc ho ha
  have hlen : w.extractLsb' 29 7 ≠ 0o030 := fun h => hw <| by
    have hn := congrArg BitVec.toNat h
    have := w.isLt
    simp only [BitVec.extractLsb'_toNat, BitVec.ofNat_eq_ofNat, BitVec.toNat_ofNat, Nat.shiftRight_eq_div_pow] at hn
    omega
  have hpc : pccGet (modSeat p.st q.val decoded) q.val = pccGet s q.val := congrArg Bank.pcc hi.translated.curBank_eq
  refine ⟨_, ?_, (seatInstr_traps hc ha (word := w) (permitted := anyMode)
    (body := fun u => .error (trapHere u q.val (if inRing s q.val then cILLEGAL else k) w, u)) rfl rfl hi.pairOver).trans ?_⟩
  · show execUnassignedOpcode q w imm s = _
    simp only [execUnassignedOpcode, hd, hlen, if_false]
  · rw [trapHere, hpc]
    rfl

/-- Settles O19: TRAP by the trap it raises and the save set it leaves; an unassigned word by the trap of its decode. -/
theorem trapAndUnassignedWordsTrap : Obligations.TrapAndUnassignedWordsTrap := by
  refine ⟨fun q imm s s1 hi => ?_, fun q w imm k s p hc ho hd hw ha => unassigned_traps q w imm k hc ho hd hw ha⟩
  obtain ⟨t, ht, hq⟩ := trap_traps q imm hi
  refine ⟨t, ht, hq, fun _ hm ho => ?_⟩
  have hu : unsampled (getSeat t q.val) = _ := (getSeat_quiet_self q.val t).symm.trans
    ((congrArg (getSeat · q.val) hq).trans (getSeat_quiet_self ..))
  have hx : getSeat (modCur s1 q.val fun b => { b with progress := 0 }) q.val = _ := getSeat_modCur ..
  have hs := takeTrap_saves (s := modCur s1 q.val fun b => { b with progress := 0 }) (q := q.val)
    (t := { cause := cCALL, addr := imm.signExtend 36 }) hm (by rw [hx]; exact ho)
  rw [← trapSet_unsampled _ _ _ _ hu, hx] at hs
  obtain ⟨hpcc, haddr, hcause⟩ := hs
  refine ⟨hpcc.trans ?_, haddr, ?_⟩
  · rw [curBank_modBank]
    rfl
  · exact (congrArg (bits · 5 0) hcause).trans (bits_causeWord_call _)

end Sys2Proof.Machine
end

section

namespace Sys2Proof.Machine

/-! An instruction that counts an event of its own beside its effect (15 R444). -/

theorem pairOver_seatCount (s : State) (p i q : Nat) : pairOver (seatCount s p i) q = pairOver s q := by
  obtain ⟨c, h⟩ := seatCount_eq s p i
  rw [h]
  rfl

theorem quiet_nextInstr_seatCount (q n : Nat) (s : State) (p i : Nat) :
    quiet q (nextInstr q n (seatCount s p i)) = quiet q (nextInstr q n s) := by
  obtain ⟨c, h⟩ := seatCount_eq s p i
  rw [h]
  rfl

theorem seatRun_doneCounted {s s1 r : State} {q : SeatNo} {i : Instr} {permitted : Status → Bool} {k : Nat}
    {body : State → Except (Trap × State) Done} (hi : Issues s q i s1)
    (hp : permitted (statusOfSeat s1 q.val) = true) (hb : body s1 = done (seatCount r q.val k))
    (ho : pairOver r q.val = false) :
    ∃ t, seatRun q i permitted body s = .next t ∧ quiet q.val t = quiet q.val (nextInstr q.val (seatLen i) r) := by
  obtain ⟨t, ht, hq⟩ := seatRun_done hi hp hb ((pairOver_seatCount ..).trans ho)
  exact ⟨t, ht, hq.trans (quiet_nextInstr_seatCount ..)⟩

/-- An instruction that waits at itself changes nothing behind its fetch. -/
theorem seatRun_blocked {s s1 : State} {q : SeatNo} {i : Instr} {permitted : Status → Bool}
    {body : State → Except (Trap × State) Done} (hi : Issues s q i s1)
    (hp : permitted (statusOfSeat s1 q.val) = true) (hb : body s1 = .ok { st := s1, next := .blocked }) :
    ∃ t, seatRun q i permitted body s = .next t ∧ quiet q.val t = quiet q.val s1 := by
  obtain ⟨t, b, ht, hq⟩ := seatRun_retires hi hp hb (by intro p h; cases h) hi.pairOver
  exact ⟨t, ht, hq.trans (congrArg _ (retire_blocked _ _ _ _ rfl))⟩

/-! SYNCI, the FENCE forms, FENCEW, SEALSYNC and MAPSYNC (05 R166 to R168, 02 R67). -/

theorem atSM_iff (s : State) (q : Nat) : atSM (statusOfSeat s q) = true ↔ levelOf s q ≠ .U := by
  simp [atSM, levelOf]

theorem atM_iff (s : State) (q : Nat) : atM (statusOfSeat s q) = true ↔ levelOf s q = .M := by
  simp [atM, levelOf]

/-- The map that a MAPSYNC names, as a number. -/
theorem syncMap_eq (s : State) (q : Nat) (ra : Reg) : syncMap s q ra = (wGet s q ra.toNat).toNat % 256 := by
  simp [syncMap, bits]

/-- A MAPSYNC drops the entries that its tests name. -/
theorem mapsyncRun_done {s s1 r : State} {q : SeatNo} {i : Instr} {t : State → TlbEntry → Bool} {w : State → WalkEntry → Bool}
    (hi : Issues s q i s1) (hl : levelOf s1 q.val ≠ .U) (hr : mapsynced s1 q (t s1) (w s1) = r) (ho : pairOver r q.val = false) :
    ∃ u, mapsyncRun q i t w s = .next u ∧ quiet q.val u = quiet q.val (nextInstr q.val (seatLen i) r) :=
  seatRun_done hi ((atSM_iff ..).2 hl) (congrArg done hr) ho

theorem sync_completes : Completes syncEffect := by
  intro i p f s s1 r ht hi hf ho
  unfold syncEffect onlyIf at ht
  split at ht <;> cases ht <;> simp only [Option.ite_none_right_eq_some, Option.some.injEq] at hf
  · cases hf
    exact seatRun_doneCounted hi rfl rfl ho
  · cases hf
    exact seatRun_done hi rfl rfl ho
  · cases hf
    exact seatRun_done hi rfl rfl ho
  · cases hf
    exact seatRun_done hi rfl rfl ho
  · obtain ⟨hc, rfl⟩ := hf
    simp only [Bool.and_eq_true, bne_iff_ne, Bool.not_eq_true'] at hc
    obtain ⟨hl, hw⟩ := hc
    exact seatRun_doneCounted hi ((atSM_iff ..).2 hl) (by simp only [hw]; rfl) ho
  · obtain ⟨hc, rfl⟩ := hf
    simp only [Bool.and_eq_true, beq_iff_eq, Bool.not_eq_true'] at hc
    obtain ⟨hl, hw⟩ := hc
    exact seatRun_done hi ((atM_iff ..).2 hl) (by simp only [hw]; rfl) ho
  · obtain ⟨hl, hr⟩ := hf
    exact mapsyncRun_done hi (bne_iff_ne.1 hl) hr ho
  · obtain ⟨hl, hr⟩ := hf
    exact mapsyncRun_done hi (bne_iff_ne.1 hl) (by simp only [syncMap_eq]; exact hr) ho
  · obtain ⟨hl, hr⟩ := hf
    exact mapsyncRun_done hi (bne_iff_ne.1 hl) (by simp only [syncMap_eq]; exact hr) ho

/-! SYNCI's reload, word by word (06 R209). -/

/-- Entries set one after another, each to a value of its key: a key among them has its value, and another what it had. -/
theorem smGet_foldl_smSet_keys (g : Nat → Word) (es : List (Nat × Bool)) (m : SMap Word) (k : Nat) :
    smGet 0 (es.foldl (fun m e => smSet 0 m e.1 (g e.1)) m) k = if k ∈ es.map Prod.fst then g k else smGet 0 m k := by
  induction es generalizing m with
  | nil => simp
  | cons e es ih =>
    rw [List.foldl_cons, ih, smGet_smSet, List.map_cons]
    by_cases hk : k ∈ es.map Prod.fst
    · simp [hk]
    · by_cases he : k = e.1
      · simp [he]
      · simp [hk, he]

/-- The seat with its stale code words reloaded from what state s holds. -/
def codeFresh (s : State) (q : Nat) (x : Seat) : Seat :=
  { x with
    code := x.stale.foldl (fun m e => smSet 0 m e.1 (reloadWord s q (16384 * x.codeBase + e.1))) x.code
    stale := [] }

/-- A reload over memory without unmet errors changes the code store alone. -/
theorem reloadCode_sound {s : State} (q : Nat) (hf : s.mem.flips = []) (hr : s.mem.rot = []) :
    reloadCode s q = modSeat s q (codeFresh s q) := by
  unfold reloadCode
  dsimp only
  rw [viewMeets, meetWords_sound hf hr]
  rfl

theorem curBank_codeFresh (s : State) (q : Nat) (x : Seat) : curBank (codeFresh s q x) = curBank x := rfl

theorem code_codeFresh (s : State) (q : Nat) (x : Seat) (i : Nat) : smGet 0 (codeFresh s q x).code i =
    if i ∈ x.stale.map Prod.fst then reloadWord s q (16384 * x.codeBase + i) else smGet 0 x.code i :=
  smGet_foldl_smSet_keys (fun i => reloadWord s q (16384 * x.codeBase + i)) ..

/-- A reloaded word, by what the fence and the word's poison say. -/
theorem reloadWord_eq (s : State) (q a : Nat) : reloadWord s q a =
    if (fenceCheck s (atMReq 0 a 1 false)).isOk = true ∧ (inStick (getSeat s q) a = true ∨ poisonedAt s.mem a = false) then
      seatWordAt s q a else 0 := by
  have hv : viewPoisoned s (some q) a = (!inStick (getSeat s q) a && poisonedAt s.mem a) := by simp [viewPoisoned, viewIn]
  unfold reloadWord copyReads
  rw [hv]
  cases inStick (getSeat s q) a <;> cases poisonedAt s.mem a <;> simp

theorem synci_reloads {s s1 : State} {q : SeatNo} (hi : Issues s q (.synci q) s1) (hf : s1.mem.flips = []) (hr : s1.mem.rot = []) :
    ∃ t, exec (.synci q) s = .next t ∧ t.mem = s1.mem ∧ (getSeat t q.val).stale = [] ∧
      (getSeat t q.val).stick = (getSeat s1 q.val).stick ∧
      ∀ i, smGet 0 (getSeat t q.val).code i = if i ∈ (getSeat s1 q.val).stale.map Prod.fst then
        reloadWord s1 q.val (16384 * (getSeat s1 q.val).codeBase + i) else smGet 0 (getSeat s1 q.val).code i := by
  have he := reloadCode_sound q.val hf hr
  have ho : pairOver (reloadCode s1 q.val) q.val = false := by
    rw [he]
    exact (pairOver_modSeat _ _ (curBank_codeFresh s1 q.val)).trans hi.pairOver
  obtain ⟨t, ht, hq⟩ := sync_completes (.synci q) q _ s s1 _ rfl hi rfl ho
  have hg := goesOn_of_quiet hq
  have hx : getSeat (reloadCode s1 q.val) q.val = _ := (congrArg (getSeat · q.val) he).trans (getSeat_modSeat_self ..)
  refine ⟨t, ht, hg.mem.trans (by rw [he]; rfl), ?_, ?_, fun i => ?_⟩
  · rw [hg.field Seat.stale fun _ _ => rfl, hx]
    rfl
  · rw [hg.field Seat.stick fun _ _ => rfl, hx]
    rfl
  · rw [hg.field Seat.code fun _ _ => rfl, hx]
    exact code_codeFresh ..

/-- Settles O17: the table, SYNCI's reload, and the two instructions that wait at themselves. -/
theorem synchronisingResults : Obligations.SynchronisingResults := by
  refine ⟨sync_completes, fun s s1 q hi hf hr => ?_, fun s s1 q hi hl hj => ?_, fun s s1 q hi hl hw => ?_⟩
  · obtain ⟨t, ht, hm, hst, hstick, hcode⟩ := synci_reloads hi hf hr
    exact ⟨t, ht, hm, hst, hstick, fun i => (hcode i).trans (by rw [reloadWord_eq])⟩
  · have hj' : (s1.engines.jobs.any fun j => j.sealWaits.contains q.val) = true := by simpa using hj
    exact seatRun_blocked hi ((atM_iff ..).2 hl) (by simp only [hj', if_true])
  · exact seatRun_blocked hi ((atSM_iff ..).2 hl) (by simp only [hw, if_true])

end Sys2Proof.Machine
end

section

namespace Sys2Proof.Machine

/-- An instruction that retires at the next one, whatever its completion records. -/
theorem seatRun_advances {s s1 : State} {q : SeatNo} {i : Instr} {permitted : Status → Bool}
    {body : State → Except (Trap × State) Done} {d : Done} (hi : Issues s q i s1)
    (hp : permitted (statusOfSeat s1 q.val) = true) (hb : body s1 = .ok d) (hn : d.next = .advance)
    (ho : pairOver d.st q.val = false) :
    ∃ t, seatRun q i permitted body s = .next t ∧ quiet q.val t = quiet q.val (nextInstr q.val (seatLen i) d.st) := by
  obtain ⟨t, b, ht, hq⟩ := seatRun_retires hi hp hb (by simp [hn]) ho
  exact ⟨t, ht, hq.trans (retire_advance _ _ _ _ hn)⟩

/-! The wide instructions (05 R181 to R185). -/

/-- The wide file is ready outside ring mode, when WIDE_ON is set or the bank in use owns the file (04 R122). -/
theorem wideReady_some {s u : State} {q : SeatNo} (h : wideReady s q = some u) : inRing s q.val = false ∧
    ∀ body : State → Except (Trap × State) Done,
      (if (getSeat s q.val).status.wideOn then body s
        else if (getSeat s q.val).wideOwned && (getSeat s q.val).wideOwner == (getSeat s q.val).status.bank then
          body (modSeat s q.val fun x => { x with status := { x.status with wideOn := true } })
        else .error (trapHere s q.val cWIDEOFF 0, s)) = body u := by
  unfold wideReady at h
  dsimp only at h
  split at h
  · cases h
  · next hr =>
    refine ⟨by simpa [inRing, statusOfSeat] using hr, fun body => ?_⟩
    split at h
    · next ho =>
      cases h
      exact if_pos ho
    · next ho =>
      split at h
      · next hw =>
        cases h
        rw [if_neg ho, if_pos (by simpa using hw)]
      · cases h

/-- A wide instruction whose body completes where the file is ready. -/
theorem wideRun_advances {s s1 u : State} {q : SeatNo} {i : Instr} {body : State → Except (Trap × State) Done} {d : Done}
    (hi : Issues s q i s1) (hw : wideReady s1 q = some u) (hb : body u = .ok d) (hn : d.next = .advance)
    (ho : pairOver d.st q.val = false) :
    ∃ t, wideRun q i body s = .next t ∧ quiet q.val t = quiet q.val (nextInstr q.val (seatLen i) d.st) := by
  obtain ⟨hr, hbody⟩ := wideReady_some hw
  exact seatRun_advances hi ((noRing_iff ..).2 hr) ((hbody body).trans hb) hn ho

/-- One of a bank that does not own the wide file raises WIDE_OFF (04 R122). -/
theorem wideRun_off {s s1 : State} {q : SeatNo} {i : Instr} {body : State → Except (Trap × State) Done} (hi : Issues s q i s1)
    (hr : inRing s1 q.val = false) (hon : (statusOfSeat s1 q.val).wideOn = false)
    (hown : (getSeat s1 q.val).wideOwned = false ∨ (getSeat s1 q.val).wideOwner ≠ (statusOfSeat s1 q.val).bank) :
    ∃ t, wideRun q i body s = .next t ∧
      quiet q.val t = quiet q.val (takeTrap (modCur s1 q.val fun b => { b with progress := 0 }) q.val
        { cause := 0o21, addr := (pccGet s1 q.val).w0 }) := by
  have hnot : ((getSeat s1 q.val).wideOwned && (getSeat s1 q.val).wideOwner == (getSeat s1 q.val).status.bank) = false := by
    rcases hown with h | h
    · simp [h]
    · simp only [Bool.and_eq_false_iff, beq_eq_false_iff_ne]
      exact .inr h
  obtain ⟨t, ht, hq⟩ := seatRun_traps (body := fun s => if (getSeat s q.val).status.wideOn then body s
    else if (getSeat s q.val).wideOwned && (getSeat s q.val).wideOwner == (getSeat s q.val).status.bank then
      body (modSeat s q.val fun x => { x with status := { x.status with wideOn := true } })
    else .error (trapHere s q.val cWIDEOFF 0, s)) (u := s1) (t := trapHere s1 q.val cWIDEOFF 0) hi ((noRing_iff ..).2 hr)
    (by dsimp only; rw [show (getSeat s1 q.val).status.wideOn = false from hon, hnot]; rfl) hi.pairOver
  exact ⟨t, ht, hq⟩

/-! The wide functions of the machine in numbers. -/

theorem wideNat_eq (ws : List Word) : wideNat ws = wideValue ws := by
  unfold wideNat wideValue
  induction ws with
  | nil => rfl
  | cons w ws ih => rw [bigNat, ih, List.foldr_cons, space36]

theorem bigWords_eq (l n : Nat) : bigWords l n = (List.range l).map fun j => BitVec.ofNat 36 (n / 2 ^ (36 * j)) := by
  induction l generalizing n with
  | zero => rfl
  | succ l ih =>
    rw [bigWords, ih, List.range_succ_eq_map, List.map_cons, List.map_map]
    refine congrArg₂ _ (by simp) (List.map_congr_left fun j _ => ?_)
    rw [Function.comp_apply, space36, Nat.div_div_eq_div_mul, ← pow_add, show 36 + 36 * j = 36 * j.succ by omega]

theorem wideWords_eq (n : Nat) : wideWords n = wideOf n := bigWords_eq 8 n

theorem limbProduct_eq (a b : Word) : limbProduct a b = BitVec.ofNat 36 (a.toNat % 2 ^ 18 * (b.toNat % 2 ^ 18)) := by
  rw [limbProduct, half0_toNat, half0_toNat]

/-- Flags set one by one below n are their sum as powers of two. -/
theorem foldl_flag (p : Nat → Bool) {n : Nat} (hn : n ≤ 36) :
    ((List.range n).foldl (fun w j => w ||| flag j (p j)) (0 : Word)).toNat =
        ((List.range n).map fun j => if p j then 2 ^ j else 0).sum ∧
      ((List.range n).map fun j => if p j then 2 ^ j else 0).sum < 2 ^ n := by
  induction n with
  | zero => simp
  | succ n ih =>
    obtain ⟨he, hl⟩ := ih (by omega)
    have hf : (flag n (p n)).toNat = if p n then 2 ^ n else 0 := by
      have : (2 : Nat) ^ n < 2 ^ 36 := Nat.pow_lt_pow_right (by omega) (by omega)
      cases p n
      · rfl
      · simpa [flag, field] using this
    rw [List.range_succ, List.foldl_append, List.map_append, List.sum_append, List.foldl_cons, List.foldl_nil, List.map_cons,
      List.map_nil, List.sum_singleton, BitVec.toNat_or, he, hf]
    have hp : 2 ^ (n + 1) = 2 ^ n + 2 ^ n := by rw [pow_succ]; omega
    cases p n
    · simp only [Bool.false_eq_true, if_false, Nat.or_zero]
      omega
    · have hor := Nat.two_pow_add_eq_or_of_lt hl 1
      rw [mul_one] at hor
      simp only [if_true]
      rw [Nat.or_comm, ← hor]
      omega

theorem getD_vWords (s : State) (q k : Nat) {j : Nat} (hj : j < 8) : (vWords s q k).getD j 0 = vGet s q k j := by
  simp [vWords, smGetList_eq_map, vGet, hj]

theorem equalMask_eq (s : State) (q a b : Nat) : equalMask (vWords s q a) (vWords s q b) = BitVec.ofNat 36
    ((List.range 8).map fun j => if vGet s q a j = vGet s q b j then 2 ^ j else 0).sum := by
  have h := (foldl_flag (fun j => (vWords s q a).getD j 0 == (vWords s q b).getD j 0) (n := 8) (by omega)).1
  refine BitVec.eq_of_toNat_eq (h.trans ?_)
  have hm : ((List.range 8).map fun j => if ((vWords s q a).getD j 0 == (vWords s q b).getD j 0) = true then 2 ^ j else 0) =
      (List.range 8).map fun j => if vGet s q a j = vGet s q b j then 2 ^ j else 0 :=
    List.map_congr_left fun j hj => by
      rw [getD_vWords _ _ _ (List.mem_range.1 hj), getD_vWords _ _ _ (List.mem_range.1 hj)]
      simp only [beq_iff_eq]
  have hl := (foldl_flag (fun j => (vWords s q a).getD j 0 == (vWords s q b).getD j 0) (n := 8) (by omega)).2
  rw [hm] at hl ⊢
  rw [BitVec.toNat_ofNat, Nat.mod_eq_of_lt (hl.trans (by omega))]

/-- A wide instruction on registers: vd takes the eight words of a function. -/
theorem writesV_done {s s1 r : State} {q : SeatNo} {i : Instr} {vd : Reg} (f : State → List Word) {g : State → List Word}
    (hi : Issues s q i s1) (hr : ((wideReady s1 q).map fun s => vSet s q.val vd.toNat (g s)) = some r)
    (hv : ∀ s, f s = g s) (ho : pairOver r q.val = false) :
    ∃ t, wideRun q i (fun s => done (vSet s q.val vd.toNat (f s))) s = .next t ∧
      quiet q.val t = quiet q.val (nextInstr q.val (seatLen i) r) := by
  obtain ⟨u, hu, rfl⟩ := Option.map_eq_some_iff.1 hr
  exact wideRun_advances hi hu (d := { st := vSet u q.val vd.toNat (g u) }) (by rw [hv]; rfl) rfl ho

/-- One that writes a word register. -/
theorem wideWord_done {s s1 r : State} {q : SeatNo} {i : Instr} {rd : Reg} (f : State → Word) {g : State → Word}
    (hi : Issues s q i s1) (hr : ((wideReady s1 q).map fun s => wSet s q.val rd.toNat (g s)) = some r)
    (hv : ∀ s, f s = g s) (ho : pairOver r q.val = false) :
    ∃ t, wideRun q i (fun s => done (wSet s q.val rd.toNat (f s))) s = .next t ∧
      quiet q.val t = quiet q.val (nextInstr q.val (seatLen i) r) := by
  obtain ⟨u, hu, rfl⟩ := Option.map_eq_some_iff.1 hr
  exact wideRun_advances hi hu (d := { st := wSet u q.val rd.toNat (g u) }) (by rw [hv]; rfl) rfl ho

theorem wide_completes : Completes wideEffect := by
  intro i p f s s1 r ht hi hf ho
  unfold wideEffect writesV at ht
  split at ht <;> cases ht
  next vd va vb => exact writesV_done (fun s => List.zipWith (· + ·) (vWords s p va.toNat) (vWords s p vb.toNat)) hi hf (fun _ => rfl) ho
  next vd va vb => exact writesV_done (fun s => List.zipWith (· - ·) (vWords s p va.toNat) (vWords s p vb.toNat)) hi hf (fun _ => rfl) ho
  next vd va vb => exact writesV_done (fun s => List.zipWith (· &&& ·) (vWords s p va.toNat) (vWords s p vb.toNat)) hi hf (fun _ => rfl) ho
  next vd va vb => exact writesV_done (fun s => List.zipWith (· ||| ·) (vWords s p va.toNat) (vWords s p vb.toNat)) hi hf (fun _ => rfl) ho
  next vd va vb => exact writesV_done (fun s => List.zipWith (· ^^^ ·) (vWords s p va.toNat) (vWords s p vb.toNat)) hi hf (fun _ => rfl) ho
  next vd va vb =>
    exact writesV_done (fun s => List.zipWith (fun a b => a &&& ~~~b) (vWords s p va.toNat) (vWords s p vb.toNat)) hi hf (fun _ => rfl) ho
  next rd va vb =>
    exact wideWord_done (fun s => equalMask (vWords s p va.toNat) (vWords s p vb.toNat)) hi hf (fun _ => equalMask_eq ..) ho
  next vd va vb =>
    exact writesV_done (fun s => wideWords (wideNat (vWords s p va.toNat) + wideNat (vWords s p vb.toNat))) hi hf
      (fun _ => by simp only [wideWords_eq, wideNat_eq]) ho
  next vd va vb =>
    exact writesV_done (fun s => wideWords (2 ^ 288 + wideNat (vWords s p va.toNat) - wideNat (vWords s p vb.toNat))) hi hf
      (fun _ => by simp only [wideWords_eq, wideNat_eq]) ho
  next vd va rb =>
    exact writesV_done (fun s => wideWords (if 288 ≤ (wGet s p rb.toNat).toNat then 0
      else 2 ^ (wGet s p rb.toNat).toNat * wideNat (vWords s p va.toNat))) hi hf
      (fun _ => by simp only [wideWords_eq, wideNat_eq, ← not_lt, ite_not]) ho
  next vd va rb =>
    exact writesV_done (fun s => wideWords (if 288 ≤ (wGet s p rb.toNat).toNat then 0
      else wideNat (vWords s p va.toNat) / 2 ^ (wGet s p rb.toNat).toNat)) hi hf
      (fun _ => by simp only [wideWords_eq, wideNat_eq, ← not_lt, ite_not]) ho
  next vd ra aux => exact writesV_done (fun s => (vWords s p vd.toNat).set aux.toNat (wGet s p ra.toNat)) hi hf (fun _ => rfl) ho
  next rd va aux => exact wideWord_done (fun s => vGet s p va.toNat aux.toNat) hi hf (fun _ => rfl) ho
  next vd ra => exact writesV_done (fun s => List.replicate 8 (wGet s p ra.toNat)) hi hf (fun _ => rfl) ho
  next vd va =>
    exact writesV_done (fun s => digestWords (vWords s p vd.toNat) (vWords s p va.toNat) (vWords s p (va.toNat + 1))) hi hf
      (fun _ => rfl) ho
  next vd va vb =>
    exact writesV_done (fun s => List.zipWith limbProduct (vWords s p va.toNat) (vWords s p vb.toNat)) hi hf
      (fun _ => by simp only [← limbProduct_eq]) ho
  next vd va vb =>
    exact writesV_done (fun s => List.zipWith (fun d p => d + p) (vWords s p vd.toNat)
      (List.zipWith limbProduct (vWords s p va.toNat) (vWords s p vb.toNat))) hi hf
      (fun _ => by simp only [← limbProduct_eq]) ho

/-- An AES instruction under a key handle that passes the checks of R183. -/
theorem wideAes_done {s s1 r : State} {q : SeatNo} {i : Instr} {vd va cb : Reg} {usage : Nat}
    {f : List Octet → List Octet → List Octet} (hi : Issues s q i s1)
    (hr : ((wideReady s1 q).bind fun s =>
      if (handleCause s (cGet s q.val cb.toNat) usage (curSeal (curBank (getSeat s q.val)))).isSome then none
      else some (vSet s q.val vd.toNat
        (wideBlocks (f (slotKey s (capCursor (cGet s q.val cb.toNat)))) (vWords s q.val va.toNat)))) = some r)
    (ho : pairOver r q.val = false) :
    ∃ t, wideAes q i vd va cb usage f s = .next t ∧ quiet q.val t = quiet q.val (nextInstr q.val (seatLen i) r) := by
  obtain ⟨u, hu, hr⟩ := Option.bind_eq_some_iff.1 hr
  obtain ⟨hk, rfl⟩ : _ ∧ _ = r := by simpa only [Option.ite_none_left_eq_some, Option.some.injEq] using hr
  rw [Option.not_isSome_iff_eq_none] at hk
  exact wideRun_advances hi hu (d := { st := _ }) (by simp only [hk]; rfl) rfl ho

theorem wideKey_completes : Completes wideKeyEffect := by
  intro i p f s s1 r ht hi hf ho
  unfold wideKeyEffect at ht
  split at ht <;> cases ht
  · exact wideAes_done hi hf ho
  · exact wideAes_done hi hf ho
  next rd m =>
    obtain ⟨u, hu, hr⟩ := Option.bind_eq_some_iff.1 hf
    split at hr
    · next g hg =>
      cases hr
      exact wideRun_advances hi hu (d := { st := _, acc := true, ea := _, pa := _ }) (by simp only [hg]; rfl) rfl ho
    · cases hr
  next rd m =>
    obtain ⟨u, hu, hr⟩ := Option.bind_eq_some_iff.1 hf
    split at hr
    · next g hg =>
      cases hr
      exact wideRun_advances hi hu (d := { st := _, acc := true, ea := _, pa := _ }) (by simp only [hg]; rfl) rfl ho
    · cases hr

/-- Every instruction of the two tables runs through the test of the wide file. -/
theorem exec_wide {i : Instr} {q : SeatNo} {f : State → Option State}
    (h : wideEffect i = some (q, f) ∨ wideKeyEffect i = some (q, f)) : ∃ body, ∀ s, exec i s = wideRun q i body s := by
  rcases h with h | h
  · unfold wideEffect writesV at h
    split at h <;> cases h <;> exact ⟨_, fun _ => rfl⟩
  · unfold wideKeyEffect at h
    split at h <;> cases h <;> exact ⟨_, fun _ => rfl⟩

/-- Settles O22: both tables, and WIDE_OFF where the bank in use does not own the file. -/
theorem wideResults : Obligations.WideResults := by
  refine ⟨wide_completes, wideKey_completes, fun i q f s s1 ht hi hr hon hown => ?_⟩
  obtain ⟨body, he⟩ := exec_wide ht
  rw [he]
  exact wideRun_off hi hr hon hown

end Sys2Proof.Machine
end

section

namespace Sys2Proof.Machine

/-! The loads and stores (05 R151). -/

/-- The authority of an access depends on the banks and the STATUS, which the fetch leaves. -/
theorem Translated.memAuth_eq {q : Nat} {s t : State} (h : Translated q s t) (m : MemOp) : memAuth t q m = memAuth s q m := by
  have hr : inRing t q = inRing s q := congrArg Status.ringMode h.status
  simp only [memAuth, hr, cGet, h.curBank_eq]

theorem sweepHit_memUpdate (s : State) (q : Nat) (m : MemOp) (n : Nat) (c : Cap) : sweepHit (memUpdate s q m n) c = sweepHit s c := by
  unfold memUpdate
  dsimp only
  split
  · rfl
  · split <;> rfl

theorem ringClash_nil (s : State) (q : Nat) (m : MemOp) : ringClash s q m [] = s := by simp [ringClash]

/-- A load whose access passes its checks. -/
theorem loadInstr_done {s s1 : State} {q : SeatNo} {i : Instr} {m : MemOp} {n align : Nat} {regs : List Nat}
    {permitted : Status → Bool} {put : State → Passed → State} {g : Passed} (hi : Issues s q i s1)
    (hp : permitted (statusOfSeat s1 q.val) = true)
    (hg : accessAll q.val [memAccess s1 q.val m n align rRD false] s1 = .ok g)
    (ho : pairOver (ringClash (put (memUpdate g.st q.val m n) g) q.val m regs) q.val = false) :
    ∃ t, loadInstr q i m n align regs permitted put s = .next t ∧ quiet q.val t =
      quiet q.val (nextInstr q.val (seatLen i) (ringClash (put (memUpdate g.st q.val m n) g) q.val m regs)) :=
  seatRun_advances hi hp
    (d := ⟨ringClash (put (memUpdate g.st q.val m n) g) q.val m regs, .advance, true, (memAccess s1 q.val m n align rRD false).word,
      g.pa 0, false⟩) (by simp only [hg]) rfl ho

/-- A store of words whose access passes its checks. -/
theorem storeInstr_done {s s1 : State} {q : SeatNo} {i : Instr} {m : MemOp} {n align : Nat} {permitted : Status → Bool}
    {words : State → List Word} {g : Passed} (hi : Issues s q i s1) (hp : permitted (statusOfSeat s1 q.val) = true)
    (hg : accessAll q.val [memAccess s1 q.val m n align rWR true] s1 = .ok g)
    (ho : pairOver (memUpdate (storeRuns g q.val 0 (words s1)) q.val m n) q.val = false) :
    ∃ t, storeInstr q i m n align permitted words s = .next t ∧ quiet q.val t =
      quiet q.val (nextInstr q.val (seatLen i) (memUpdate (storeRuns g q.val 0 (words s1)) q.val m n)) :=
  seatRun_advances hi hp
    (d := ⟨memUpdate (storeRuns g q.val 0 (words s1)) q.val m n, .advance, true, (memAccess s1 q.val m n align rWR true).word,
      g.pa 0, false⟩) (by simp only [hg]) rfl ho

theorem load_completes : Completes loadEffect := by
  intro i p f s s1 r ht hi hf ho
  unfold loadEffect at ht
  split at ht <;> cases ht <;> dsimp only at hf
  next rd m =>
    split at hf
    · next g hg =>
      cases hf
      exact loadInstr_done (put := fun s g => wSet s p.val rd.toNat (g.word 0)) hi rfl hg ho
    · cases hf
  next rd m =>
    split at hf
    · next g hg =>
      cases hf
      exact loadInstr_done (put := fun s g => pairSet s p.val rd.toNat (g.word 0) (g.word 1)) hi rfl hg ho
    · cases hf
  next rd m =>
    obtain ⟨hr, hf⟩ := Option.ite_none_left_eq_some.1 hf
    split at hf
    · next g hg =>
      have hc : cSet (memUpdate g.st p.val m 4) p.val rd.toNat
          (loadedCap (memUpdate g.st p.val m 4) (memAuth s p.val m) g) = r := by
        simp only [loadedCap, sweepHit_memUpdate, ← hi.translated.memAuth_eq]
        simpa using hf
      rw [← hc] at ho ⊢
      rw [← ringClash_nil (cSet ..) p.val m] at ho ⊢
      exact loadInstr_done (put := fun s' g => cSet s' p.val rd.toNat (loadedCap s' (memAuth s p.val m) g)) hi
        ((noRing_iff ..).2 (by simpa using hr)) hg ho
    · cases hf

theorem store_completes : Completes storeEffect := by
  intro i p f s s1 r ht hi hf ho
  unfold storeEffect at ht
  split at ht <;> cases ht <;> dsimp only at hf
  next rd m =>
    split at hf
    · next g hg =>
      cases hf
      exact storeInstr_done (words := fun s => [wGet s p.val rd.toNat]) hi rfl hg ho
    · cases hf
  next rd m =>
    split at hf
    · next g hg =>
      cases hf
      exact seatRun_advances hi rfl (d := { st := _, acc := true, ea := _, pa := _ }) (by simp only [hg]; rfl) rfl ho
    · cases hf
  all_goals
    obtain ⟨hr, hf⟩ := Option.ite_none_left_eq_some.1 hf
    split at hf
    · next g hg =>
      cases hf
      exact seatRun_advances hi ((noRing_iff ..).2 (by simpa using hr)) (d := { st := _, acc := true, ea := _, pa := _ })
        (by simp only [stcBody, stcAccess, hg]; rfl) rfl ho
    · cases hf

/-- Settles O23: each access that passes completes as its table says. -/
theorem loadAndStoreResults : Obligations.LoadAndStoreResults := ⟨load_completes, store_completes⟩

end Sys2Proof.Machine
end

section

namespace Sys2Proof.Machine

/-! LOPEN zeroes STOW_ST as an access of its seat (08 R259), and so in the seat's stick where its window holds the stow area (06
R208): the word of memory behind the window stays. -/

/-- The registers of C0.0 at M for an LOPEN of lane 0: lane number, gate under seal 5, and a stow area at word 512. -/
def openingRegs : SMap Cap :=
  [(8, rootCap 0o777777777777 rLN false), (9, capSetSeal (rootCap 0o777777777777 (rGT + rEX) false) 5),
   (10, { rootCap 0o777777777777 (rRD + rWR) false with w0 := 512 })]

/-- C0.0 after reset, its stick bound over window 0, with a class of one lane of kind 2 whose ring stands at word 2^21, its
descriptor at 2^20; the fence opens case to every class. -/
def opening : State :=
  let s := modSeat (modCur State.reset 0 fun b => { b with c := openingRegs }) 0 fun x => { x with stickUse := true }
  { s with
    mem := { s.mem with words := [(0o1143, 7)] }, sys := { s.sys with laneBase := 1 },
    fence := { s.fence with d := [(1, 0o137777777), (2, 0o000007777777), (3, 0b11100000001)] },
    lanes := { s.lanes with cls := [(0, field 32 2), (1, field 0 (2 ^ 21)), (2, field 12 3 ||| field 0 7)] } }

theorem opening_issues :
    issuesTo opening 0 (.lopen 0 3 8 9 10) (fun s =>
      capCursor (cGet s 0 8) == 0 && capCursor (cGet s 0 10) == 512 && !inRing s 0 && levelOf s 0 == .M &&
        (openFail s 0 (cGet s 0 8) (cGet s 0 9) (cGet s 0 10)).isNone && classOf s 0 == some 0 && noUpset s &&
        descAddr s 0 == 2 ^ 20 && ((List.range 4).all fun g => (List.range 2).all fun w => (descCheck s 0 g w).isOk) &&
        !smGet false s.lanes.fault 0 && (laneSt s 0).state == lsClosed && (ringAdmits s 0 0).isOk &&
        (fenceCheck s (atMReq 1 0o1143 1 false)).isOk) = true := by decide +kernel

theorem lopen_opening :
    (match exec (.lopen 0 3 8 9 10) opening with
      | .next t => memWord t.mem 0o1143 == 7
      | _ => false) = true := by decide +kernel

/-- Refutes O30: the word of STOW_ST in memory is not zero after the LOPEN. -/
theorem not_laneInstructionResults : ¬ Obligations.LaneInstructionResults := by
  rintro ⟨-, h, -⟩
  obtain ⟨s1, hi, hs⟩ := issues_of_issuesTo opening_issues
  simp only [Bool.and_eq_true, beq_iff_eq, List.all_eq_true, List.mem_range, Bool.not_eq_true',
    Option.isNone_iff_eq_none] at hs
  obtain ⟨⟨⟨⟨⟨⟨⟨⟨⟨⟨⟨⟨hl, hp⟩, hring⟩, hm⟩, hf⟩, hk⟩, hu⟩, hd⟩, hg⟩, hfault⟩, hst⟩, hra⟩, hw⟩ := hs
  have hopen := h opening s1 0 3 8 9 10 0
  have h0 : ((0 : SeatNo) : Nat) = 0 := rfl
  have h8 : (8 : Reg).toNat = 8 := rfl
  have h9 : (9 : Reg).toNat = 9 := rfl
  have h10 : (10 : Reg).toNat = 10 := rfl
  simp only [h0, h8, h9, h10, hl, hp, hd] at hopen
  obtain ⟨t, ht, -, -, -, -, -, -, -, -, hz⟩ := hopen hi hring hm hf hk (by decide) hu (by decide) (fun g w hg' hw' => hg g hg' w hw')
    hfault hst hra (by decide) (.inl (by decide))
  have hkept := lopen_opening
  rw [ht, beq_iff_eq] at hkept
  exact absurd (hkept.symm.trans (hz hw)) (by decide)

end Sys2Proof.Machine
end

section

namespace Sys2Proof.Machine

/-! An LTAKE that blocks hands its seat to the next READY bank. Where that bank runs one side of a pair whose outputs have passed 256
words, the pair ends with the instruction (08 R268): its notice may go to the lane that the LTAKE waits on, and wake it. -/

/-- C0.0 at U in bank 0; in bank 1, READY, a side of the pair in buffer 0, about lane 1. -/
def yieldingSeat : Seat :=
  { status := { bank := 0, lvl := .U }
    banks := [(0, { c := [(8, rootCap 0o777777777777 rWR false)], pcc := rootCap 0o777777777777 rEX false, st := .running, lane := 5 }),
      (1, { st := .ready, role := .seatA, lane := 1 })]
    idle := false }

/-- The block with lanes 0 and 1 of one class, whose reject lane is lane 0, which is open with a credit of 8 and empty; the pair's
outputs have passed 256 words. Map 0 translates the first block to itself, and the fence opens everything. -/
def yielding : State :=
  { State.reset with
    seats := [(0, yieldingSeat)]
    coxes := [(3, { pairs := [(0, { full := true, lane := 1 })] })]
    sys := { mapBase := [(0, 0o14000)], laneBase := 1 }
    mem := { words := [(4096, 0o5000), (2 ^ 20 + 5, 8), (2 ^ 20 + 6, field 33 1)] }
    fence := { d := [(1, 0o777777777777), (2, 0o000007777777), (3, 0b11100000001)] }
    lanes := { cls := [(0, field 32 2 ||| field 16 1), (1, field 0 (2 ^ 21)), (2, field 12 3 ||| field 0 7)], opened := [(0, true)] } }

theorem yielding_issues :
    issuesTo yielding 0 (.ltake 0 3 8 0 1) (fun s =>
      let c := blockCap s 0 8
      (wGet s 0 0).toNat % 2 ^ 16 == 0 && (classOf s 0 == some 0 && noUpset s && decide (descAddr s 0 + 16 ≤ caseEnd) &&
        ((List.range 4).all fun g => (List.range 2).all fun w => (descCheck s 0 g w).isOk) && (ringAdmits s 0 0).isOk &&
        !smGet false s.lanes.fault 0 && (laneSt s 0).state == lsOpen) &&
        (stepsFail (levelOf s 0) (sideOf s 0)
          [{ cap := c, ea := (capCursor c : Int), n := 1, need := rWR, write := true }] [1, 2, 3, 4, 5]).isNone &&
        !(curBank (getSeat s 0)).abortTake && !takeRefused s 0 0 && (curBank (getSeat s 0)).role == .none &&
        (laneSt s 0).head == (laneSt s 0).tail && !(laneSt s 0).tof && levelOf s 0 != .M && !anyOccupied (getSeat s 0) &&
        (getSeat s 0).status.bank == 0) = true := by decide +kernel

theorem ltake_yielding :
    (match exec (.ltake 0 3 8 0 1) yielding with
      | .next t => (getBank (getSeat t 0) 0).st != .blocked
      | _ => false) = true := by decide +kernel

/-- Refutes O31: the bank that blocked is no longer blocked when the LTAKE ends. -/
theorem not_takeAndDoorbellResults : ¬ Obligations.TakeAndDoorbellResults := by
  intro h
  obtain ⟨s1, hi, hs⟩ := issues_of_issuesTo yielding_issues
  simp only [Bool.and_eq_true, beq_iff_eq, bne_iff_ne, List.all_eq_true, List.mem_range, Bool.not_eq_true',
    Option.isNone_iff_eq_none, decide_eq_true_eq] at hs
  obtain ⟨⟨⟨⟨⟨⟨⟨⟨⟨⟨hl, ⟨⟨⟨⟨⟨⟨hk, hu⟩, hd⟩, hg⟩, hra⟩, hfault⟩, hst⟩⟩, hc⟩, ha⟩, hr⟩, hrole⟩, hht⟩, htof⟩, hlvl⟩, hocc⟩, hb⟩ := hs
  have hserved : TakeServed s1 0 8 0 0 0 := ⟨hl.symm, ⟨hk, hu, hd, fun g w hg' hw' => hg g hg' w hw', hra, hfault, hst⟩, hc, ha, hr, hrole⟩
  obtain ⟨hblocks, -, -⟩ := h yielding s1 0 3 8 0 1 0 0
  obtain ⟨-, -, hwait⟩ := hblocks hi hserved
  obtain ⟨-, hwait⟩ := hwait hht htof
  obtain ⟨t, ht, -, -, hblocked, -⟩ := hwait ⟨rfl, hlvl, hocc⟩
  have h0 : ((0 : SeatNo) : Nat) = 0 := rfl
  rw [h0, hb] at hblocked
  have hwoken := ltake_yielding
  rw [ht, bne_iff_ne] at hwoken
  exact hwoken hblocked

end Sys2Proof.Machine
end

section

namespace Sys2Proof.Machine

/-! An access at M to words that the default map of the fence gives to case: it passes steps 7 and 8, meets nothing, and gives what
the seat sees there (02 R48, 03 R84, 11 R359). -/

/-- Words a to a+n-1 lie in case, and neither a descriptor of the fence nor a set-aside eighth covers them. -/
structure FreeSpan (s : State) (a n : Nat) : Prop where
  inCase : a + n ≤ caseEnd
  descs : descsOver s.fence a n = []
  aside : touchesSetAside s a n = false

/-- A data access a at M whose capability, rights, alignment and bounds are sound, over a free span; what it loads is sound. -/
structure PlainAccess (s : State) (q : Nat) (a : Access) : Prop where
  level : levelOf s q = .M
  role : (curBank (getSeat s q)).role = .none
  fetch : a.fetch = false
  each : a.each = false
  last : a.last = none
  pos : 0 < a.n
  span : FreeSpan s a.ea.toNat a.n
  steps : ∀ k, stepFail .M (sideOf s q) a k = none
  sound : a.write = false → ∀ b, a.ea.toNat ≤ b → b < a.ea.toNat + a.n →
    inStick (getSeat s q) b = true ∨ poisonedAt s.mem b = false
  meets : a.write = false → (s.mem.flips = [] ∧ s.mem.rot = []) ∨
    ∀ b, a.ea.toNat ≤ b → b < a.ea.toNat + a.n → inStick (getSeat s q) b = true

/-- The one run of such an access. -/
def plainRun (a : Access) : Run := ⟨a.ea.toNat, a.ea.toNat, a.n, none⟩

/-- What such an access loads. -/
def plainWords (s : State) (q : Nat) (a : Access) : List Word :=
  if a.write then [] else (List.range a.n).map fun i => viewWord s (some q) (a.ea.toNat + i)

section
variable {s : State} {q : Nat} {a : Access} {as : List Access}

theorem isCase_of_lt {b : Nat} (h : b < caseEnd) : isCase b = true ∧ isSystem b = false ∧ isBulk b = false ∧ isHost b = false := by
  simp only [caseEnd] at h
  refine ⟨decide_eq_true h, ?_, ?_, ?_⟩ <;> simp only [isSystem, isBulk, isHost, Bool.and_eq_false_iff, decide_eq_false_iff_not] <;> omega

/-- The fence gives case by its default map to class 0 (11 R359). -/
theorem fenceCheck_free {r : FenceReq} (h : FreeSpan s r.p r.n) (hc : r.cls = 0) (hn : 0 < r.n) :
    fenceCheck s r = .ok (defaultRegion 0) := by
  obtain ⟨hcase, hd, ha⟩ := h
  have hreg : regionOf r.p r.n = some 0 := by
    unfold regionOf
    rw [(isCase_of_lt (show r.p < caseEnd by omega)).1, (isCase_of_lt (show r.p + r.n - 1 < caseEnd by omega)).1]
    rfl
  have hfb : decide (0o200000000 < r.p + r.n) = false := by
    simp only [caseEnd] at hcase
    simp only [decide_eq_false_iff_not]
    omega
  unfold fenceCheck fenceClosed
  simp [hreg, ha, hfb, hd, anyClash, hc, defaultRegion]

theorem transAll_plain (fresh : Bool) (hl : levelOf s q = .M) (h : ∀ a ∈ as, 0 < a.n) :
    transAll q fresh as s = .ok (as.map fun a => [plainRun a], s) := by
  induction as with
  | nil => rfl
  | cons a as ih =>
    have hn := h a List.mem_cons_self
    have ht : translateSpan q (accKind a) fresh (a.n / 4096 + 2) s a.ea.toNat a.n = .ok ([plainRun a], s) := by
      unfold translateSpan
      rw [if_neg (by omega)]
      exact if_pos hl
    unfold transAll
    simp only [ht, ih fun a ha => h a (List.mem_cons_of_mem _ ha), List.map_cons]

theorem seatClass_atM {t : Status} (h : t.lvl = .M) : seatClass t = 0 := by
  rw [seatClass, h]

theorem fenceAll_plain {t : Status} (ht : t.lvl = .M) (h : ∀ a ∈ as, PlainAccess s q a) :
    fenceAll s t (as.zip (as.map fun a => [plainRun a])) = .ok (as.map fun _ => true) := by
  induction as with
  | nil => rfl
  | cons a as ih =>
    have ha := h a List.mem_cons_self
    have hf : fenceCheck s (seatReq t (accDir a) a.ea.toNat a.n a.tagged) = .ok (defaultRegion 0) :=
      fenceCheck_free ha.span (seatClass_atM ht) ha.pos
    have hs : fenceSpans s t a [plainRun a] (fenceSpansOf a [plainRun a]) = .ok true := by
      simp only [fenceSpansOf, ha.each, Bool.false_eq_true, if_false, joinRuns, plainRun, fenceSpans, hf]
      rfl
    have hr := ih fun a ha => h a (List.mem_cons_of_mem _ ha)
    simp only [List.map_cons, List.zip_cons_cons, fenceAll, hs, hr]

theorem watched_atM {x : Seat} (h : x.status.lvl = .M) (a : Access) : watched x a = false := by
  simp [watched, h]

/-- Such an access meets nothing (10 R321, R334). -/
theorem accessMeets_plain (h : PlainAccess s q a) : accessMeets q s (a, [plainRun a]) = s := by
  unfold accessMeets
  dsimp only
  split
  · rfl
  · next hw =>
    rcases h.meets (by simpa using hw) with ⟨hf, hr⟩ | hin
    · exact meetWords_sound hf hr _
    · have hnone : ([plainRun a].flatMap fun r => ((List.range r.n).map (r.pa + ·)).filter fun b =>
          !(inStick (getSeat s q) b || (a.fetch && detOn (getSeat s q) && inCode (getSeat s q) b))) = [] := by
        simp only [List.filter_eq_nil_iff, List.flatMap_cons, List.flatMap_nil, List.append_nil, plainRun, List.mem_map, List.mem_range]
        rintro b ⟨i, hi, rfl⟩
        simp [hin (a.ea.toNat + i) (by omega) (by omega)]
      rw [hnone, meetWords]
      split <;> rfl

theorem foldl_accessMeets_plain (h : ∀ a ∈ as, PlainAccess s q a) :
    (as.zip (as.map fun a => [plainRun a])).foldl (accessMeets q) s = s := by
  induction as with
  | nil => rfl
  | cons a as ih =>
    rw [List.map_cons, List.zip_cons_cons, List.foldl_cons, accessMeets_plain (h a List.mem_cons_self)]
    exact ih fun a ha => h a (List.mem_cons_of_mem _ ha)

theorem poisonTrap_plain (h : PlainAccess s q a) : poisonTrap s q a [plainRun a] = none := by
  unfold poisonTrap
  split
  · rfl
  · next hw =>
    have hin := isCase_of_lt (show a.ea.toNat < caseEnd by have := h.span.inCase; have := h.pos; omega)
    have hp : seatPoison s q a.ea.toNat a.n a.fetch = none := by
      unfold seatPoison
      simp only [hin, Bool.false_eq_true, if_false, List.find?_eq_none, List.mem_map, List.mem_range]
      rintro b ⟨i, hi, rfl⟩
      rcases h.sound (by simpa using hw) (a.ea.toNat + i) (by omega) (by omega) with hb | hb <;> simp [hb]
    simp [plainRun, hp]

theorem noTrap_plain (h : ∀ a ∈ as, PlainAccess s q a) :
    ((as.zip (as.map fun a => [plainRun a])).findSome? fun p => poisonTrap s q p.1 p.2) = none ∧ as.findSome? Access.last = none := by
  refine ⟨?_, List.findSome?_eq_none_iff.2 fun a ha => (h a ha).last⟩
  rw [List.findSome?_eq_none_iff]
  intro p hp
  induction as with
  | nil => cases hp
  | cons a as ih =>
    rcases List.mem_cons.1 hp with rfl | hp
    · exact poisonTrap_plain (h a List.mem_cons_self)
    · exact ih (fun a ha => h a (List.mem_cons_of_mem _ ha)) hp

theorem touchAll_plain (s : State) (rs : List (Run × Bool)) (h : ∀ r ∈ rs, r.1.e = none) : touchAll q rs s = .ok s := by
  induction rs with
  | nil => rfl
  | cons r rs ih =>
    unfold touchAll
    rw [h r List.mem_cons_self]
    exact ih fun r hr => h r (List.mem_cons_of_mem _ hr)

theorem seatOuts_unpaired (h : (curBank (getSeat s q)).role = .none) : seatOuts s q = [] := by
  simp [seatOuts, h]

theorem seatWordAt_unpaired (h : (curBank (getSeat s q)).role = .none) (b : Nat) : seatWordAt s q b = viewWord s (some q) b := by
  simp [seatWordAt, seatOuts_unpaired h, ownWord]

theorem seatTag_unpaired (h : (curBank (getSeat s q)).role = .none) {b : Nat} (hb : b < caseEnd) :
    seatTag s q b = viewTag s (some q) b := by
  simp [seatTag, seatOuts_unpaired h, ownTag, isCase_of_lt hb]

theorem seatRead_case (h : (curBank (getSeat s q)).role = .none) {b : Nat} (hb : b < caseEnd) (n : Nat) :
    seatRead s q b n = ((List.range n).map fun i => viewWord s (some q) (b + i), s) := by
  unfold seatRead
  simp only [isCase_of_lt hb, Bool.or_self, Bool.false_and, Bool.false_eq_true, if_false, seatWordAt_unpaired h]

theorem readAll_plain (h : ∀ a ∈ as, PlainAccess s q a) :
    readAll q (as.zip (as.map fun a => [plainRun a])) s = (as.map (plainWords s q), s) := by
  induction as with
  | nil => rfl
  | cons a as ih =>
    have ha := h a List.mem_cons_self
    have hlt : a.ea.toNat < caseEnd := by have := ha.span.inCase; have := ha.pos; omega
    rw [List.map_cons, List.zip_cons_cons, readAll]
    simp only [ha.fetch, Bool.or_false, plainRun, List.foldl_cons, List.foldl_nil, seatRead_case ha.role hlt, List.nil_append]
    have hr := ih fun a ha => h a (List.mem_cons_of_mem _ ha)
    unfold plainRun at hr
    split
    · next hw => simp [hr, plainWords, hw]
    · next hw => simp [hr, plainWords, hw]

/-- The note of an access to case counts and no more (06 R211, 15 R444). -/
theorem recount_note {r : Nat × Bool} (h : r.1 < caseEnd) {t : State} (ht : Recount s t) :
    Recount s (spaceNote q (timedNote q t r) r) := by
  have hc := (isCase_of_lt h).1
  have h1 : Recount s (timedNote q t r) := by
    unfold timedNote
    simp only [hc, if_true]
    split
    · exact ht.trans (recount_seatCount ..)
    · exact ht
  refine h1.trans ?_
  unfold spaceNote
  split
  · exact ⟨_, rfl⟩
  · exact recount_seatCount ..

theorem recount_notes {rs : List (Nat × Bool)} (h : ∀ r ∈ rs, r.1 < caseEnd) {t : State} (ht : Recount s t) :
    Recount s (rs.foldl (fun s r => spaceNote q (timedNote q s r) r) t) := by
  induction rs generalizing t with
  | nil => exact ht
  | cons r rs ih => exact ih (fun r hr => h r (List.mem_cons_of_mem _ hr)) (recount_note (h r List.mem_cons_self) ht)

theorem mem_plainPairs {p : Access × List Run} (h : p ∈ as.zip (as.map fun a => [plainRun a])) : p.1 ∈ as ∧ p.2 = [plainRun p.1] := by
  induction as with
  | nil => cases h
  | cons a as ih =>
    rcases List.mem_cons.1 h with rfl | h
    · exact ⟨List.mem_cons_self, rfl⟩
    · exact ⟨List.mem_cons_of_mem _ (ih h).1, (ih h).2⟩

/-- Accesses that are plain pass, in a state that their notes alone have changed. -/
theorem accessAll_plain (hl : levelOf s q = .M) (h : ∀ a ∈ as, PlainAccess s q a) :
    ∃ u, Recount s u ∧ accessAll q as s = .ok
      { runs := as.map fun a => [plainRun a], tagOk := as.map fun _ => true, data := as.map (plainWords s q),
        tags := as.map fun a => seatTag s q a.ea.toNat, st := u } := by
  have hcase : ∀ a ∈ as, a.ea.toNat < caseEnd := fun a ha => by
    have := (h a ha).span.inCase
    have := (h a ha).pos
    omega
  have hsteps : stepsFail (levelOf s q) (sideOf s q) as [1, 2, 3, 4, 5, 6] = none := by
    rw [hl]
    exact List.findSome?_eq_none_iff.2 fun k _ => List.findSome?_eq_none_iff.2 fun a ha => (h a ha).steps k
  have hwatch : as.find? (watched (getSeat s q)) = none := List.find?_eq_none.2 fun a _ => by simp [watched_atM hl]
  obtain ⟨hpoison, hlast⟩ := noTrap_plain h
  have htouch : touchAll q ((as.zip (as.map fun a => [plainRun a])).flatMap fun p => p.2.map fun r => (r, p.1.write)) s = .ok s := by
    refine touchAll_plain s _ fun r hr => ?_
    obtain ⟨p, hp, hr⟩ := List.mem_flatMap.1 hr
    rw [(mem_plainPairs hp).2] at hr
    rw [List.mem_singleton.1 hr]
    rfl
  have hnotes : Recount s (((as.zip (as.map fun a => [plainRun a])).flatMap fun p => p.2.map fun r => (r.pa, p.1.fetch)).foldl
      (fun s r => spaceNote q (timedNote q s r) r) s) := by
    refine recount_notes (fun r hr => ?_) ⟨s.counters, rfl⟩
    obtain ⟨p, hp, hr⟩ := List.mem_flatMap.1 hr
    obtain ⟨hm, he⟩ := mem_plainPairs hp
    rw [he] at hr
    rw [List.mem_singleton.1 hr]
    exact hcase _ hm
  have hfence := fenceAll_plain (t := (getSeat s q).status) hl h
  unfold accessAll
  rw [hsteps]
  dsimp only
  unfold accessFrom
  simp only [transAll_plain _ hl fun a ha => (h a ha).pos, hfence, hwatch, foldl_accessMeets_plain h, hpoison, hlast, htouch]
  have hread : readAll q (as.zip (as.map fun a => [plainRun a])) { s with mem := s.mem, seats := s.seats } = (as.map (plainWords s q), s) :=
    readAll_plain h
  have htags : ((as.zip (as.map fun a => [plainRun a])).map fun p => match p.2 with | r :: _ => seatTag s q r.pa | [] => false) =
      as.map fun a => seatTag s q a.ea.toNat := by
    rw [← List.map_prod_left_eq_zip, List.map_map]
    rfl
  have hok : (((as.map fun a => [plainRun a]).zip (as.map fun _ => true)).map fun p => p.2 && p.1.all Run.capOk) = as.map fun _ => true := by
    rw [List.zip_map', List.map_map]
    rfl
  refine ⟨_, hnotes, ?_⟩
  rw [hread, hok]
  exact congrArg Except.ok (congrFun (congrArg (Passed.mk _ _ _) htags) _)

end

end Sys2Proof.Machine
end

section

namespace Sys2Proof.Machine

/-! The accesses of loads and stores over plain words of case, or over words of the stick (05 R151, 02 R48). -/

/-- A sound capability over its span passes steps 1 to 6 at M (02 R48). -/
theorem stepFail_reaches {side : Bool} {a : Access} (h : Reaches a.cap a.ea.toNat a.n a.need) (he : 0 ≤ a.ea)
    (hal : a.ea % (a.align : Int) = 0) (hix : a.badIx = false)
    (htag : a.tagged = true → holds (capRights a.cap) rWC = true ∧ (a.local_ = true → holds (capRights a.cap) rWL = true)) (k : Nat) :
    stepFail .M side a k = none := by
  obtain ⟨ht, hs, hn, hr, hb, hl, hlt⟩ := h
  unfold stepFail
  split
  · simp [ht]
  · simp [hs]
  · simp [sideUsable]
  · simp only [hn, Bool.false_and, Bool.false_eq_true, if_false, hr, Bool.not_true]
    by_cases h : a.tagged = true
    · obtain ⟨h1, h2⟩ := htag h
      by_cases hl : a.local_ = true
      · simp [h1, h2 hl]
      · simp [h1, hl]
    · simp [h]
  · simp [hal]
  · have h1 : ¬ a.ea < 0 := by omega
    have h2 : ¬ a.ea > (space36 : Int) - 1 := by
      simp only [space36]
      omega
    rw [boundsFail, if_neg h1, if_neg h2, if_neg (by simp [hix]), if_pos ⟨hb, hl⟩]
  · rfl

section
variable {s : State} {q : SeatNo} {a n : Nat}

theorem descsOver_mono {f : Fence} {a n b m : Nat} (h : descsOver f a n = []) (hb : a ≤ b) (hm : b + m ≤ a + n) : descsOver f b m = [] := by
  unfold descsOver at h ⊢
  rw [List.filter_eq_nil_iff] at h ⊢
  intro d hd hx
  refine h d hd ?_
  simp only [Bool.and_eq_true, decide_eq_true_eq] at hx ⊢
  obtain ⟨⟨⟨h1, h2⟩, h3⟩, h4⟩ := hx
  exact ⟨⟨⟨h1, by omega⟩, by omega⟩, h4⟩

theorem FreeSpan.mono (h : FreeSpan s a n) {b m : Nat} (hb : a ≤ b) (hm : b + m ≤ a + n) : FreeSpan s b m where
  inCase := hm.trans h.inCase
  descs := descsOver_mono h.descs hb hm
  aside := by
    have ha := h.aside
    unfold touchesSetAside at ha ⊢
    rw [List.any_eq_false] at ha ⊢
    intro e he hx
    refine ha e he ?_
    simp only [Bool.and_eq_true, decide_eq_true_eq] at hx ⊢
    obtain ⟨⟨h1, h2⟩, h3⟩ := hx
    exact ⟨⟨h1, by omega⟩, by omega⟩

theorem PlainSpan.free (h : PlainSpan s q a n) : FreeSpan s a n := by
  obtain ⟨-, -, hcase, hdescs, haside, -⟩ := h
  exact ⟨hcase, hdescs, haside⟩

theorem PlainSpan.noRing (h : PlainSpan s q a n) : inRing s q = false := h.2.1

theorem PlainSpan.role (h : PlainSpan s q a n) : (curBank (getSeat s q)).role = .none := by
  obtain ⟨-, -, -, -, -, hrole, -⟩ := h
  exact hrole

theorem PlainSpan.faultless (h : PlainSpan s q a n) : s.mem.flips = [] ∧ s.mem.rot = [] := by
  obtain ⟨-, -, -, -, -, -, hf, hr, -⟩ := h
  exact ⟨hf, hr⟩

theorem StickSpan.noRing (h : StickSpan s q a n) : inRing s q = false := h.2.1

theorem StickSpan.free (h : StickSpan s q a n) : FreeSpan s a n := by
  obtain ⟨-, -, hcase, hdescs, haside, -⟩ := h
  exact ⟨hcase, hdescs, haside⟩

theorem PlainSpan.mono (h : PlainSpan s q a n) {b m : Nat} (hb : a ≤ b) (hm : b + m ≤ a + n) : PlainSpan s q b m := by
  obtain ⟨hc, hd, hs⟩ := h.free.mono hb hm
  obtain ⟨hl, hr, -, -, -, hrole, hf, hro, hw⟩ := h
  exact ⟨hl, hr, hc, hd, hs, hrole, hf, hro, fun x h1 h2 => hw x (by omega) (by omega)⟩

/-- A plain span's access that is no fetch passes. -/
theorem PlainSpan.access {x : Access} (h : PlainSpan s q x.ea.toNat x.n) (hn : 0 < x.n) (hf : x.fetch = false) (he : x.each = false)
    (hl : x.last = none) (hs : ∀ k, stepFail .M (sideOf s q) x k = none) : PlainAccess s q x := by
  have hfree := h.free
  obtain ⟨hlvl, -, -, -, -, hrole, hfl, hro, hw⟩ := h
  exact ⟨hlvl, hrole, hf, he, hl, hn, hfree, hs, fun _ b h1 h2 => .inr (hw b h1 h2).2.2, fun _ => .inl ⟨hfl, hro⟩⟩

theorem StickSpan.access {x : Access} (h : StickSpan s q x.ea.toNat x.n) (hn : 0 < x.n) (hf : x.fetch = false) (he : x.each = false)
    (hl : x.last = none) (hs : ∀ k, stepFail .M (sideOf s q) x k = none) : PlainAccess s q x := by
  have hfree := h.free
  obtain ⟨hlvl, -, -, -, -, hrole, hw⟩ := h
  exact ⟨hlvl, hrole, hf, he, hl, hn, hfree, hs, fun _ b h1 h2 => .inl (hw b h1 h2), fun _ => .inr hw⟩

/-- An M-format access of n words at a whose capability reaches them passes steps 1 to 6 at M. -/
theorem stepFail_memAccess {m : MemOp} {align need : Nat} {write : Bool} (hr : inRing s q = false) (ha : memEa s q m n = a)
    (hix : memBadIndex s q m = false) (hc : Reaches (cGet s q m.ca.toNat) a n need) (hal : a % align = 0) (side : Bool) (k : Nat) :
    stepFail .M side (memAccess s q m n align need write) k = none := by
  refine stepFail_reaches (a := memAccess s q m n align need write) ?_ ?_ ?_ hix (fun h => by cases h) k
  · simpa [memAccess, memAuth, hr, ha] using hc
  · simp [memAccess, ha]
  · simp only [memAccess, ha]
    exact_mod_cast hal

theorem plainAccess_mem {m : MemOp} {align need : Nat} {write : Bool} (h : PlainSpan s q a n) (hn : 0 < n) (ha : memEa s q m n = a)
    (hix : memBadIndex s q m = false) (hc : Reaches (cGet s q m.ca.toNat) a n need) (hal : a % align = 0) :
    PlainAccess s q (memAccess s q m n align need write) := by
  refine PlainSpan.access ?_ hn rfl rfl rfl (stepFail_memAccess h.noRing ha hix hc hal _)
  simpa [memAccess, ha] using h

theorem stickAccess_mem {m : MemOp} {align need : Nat} {write : Bool} (h : StickSpan s q a n) (hn : 0 < n) (ha : memEa s q m n = a)
    (hix : memBadIndex s q m = false) (hc : Reaches (cGet s q m.ca.toNat) a n need) (hal : a % align = 0) :
    PlainAccess s q (memAccess s q m n align need write) := by
  refine StickSpan.access ?_ hn rfl rfl rfl (stepFail_memAccess h.noRing ha hix hc hal _)
  simpa [memAccess, ha] using h

/-- What a load of n words at a gives. -/
theorem load_plain {m : MemOp} {align : Nat} (h : PlainAccess s q (memAccess s q m n align rRD false)) (ha : memEa s q m n = a) :
    ∃ u g, Recount s u ∧ accessAll q [memAccess s q m n align rRD false] s = .ok g ∧ g.st = u ∧ g.tagOk = [true] ∧
      g.tags = [seatTag s q a] ∧ ∀ i, i < n → g.word i = viewWord s (some q) (a + i) := by
  obtain ⟨u, hu, hg⟩ := accessAll_plain h.level (as := [memAccess s q m n align rRD false]) (by simpa using h)
  refine ⟨u, _, hu, hg, rfl, rfl, by simp [memAccess, ha], fun i hi => ?_⟩
  simp [Passed.word, Passed.words, plainWords, memAccess, ha, hi]

/-- Outside the stick a seat sees memory (06 R208). -/
theorem viewWord_plain (h : PlainSpan s q a n) {b : Nat} (h1 : a ≤ b) (h2 : b < a + n) : viewWord s (some q.val) b = memWord s.mem b := by
  obtain ⟨-, -, -, -, -, -, -, -, hw⟩ := h
  simp [viewWord, Option.filter, (hw b h1 h2).1]

theorem viewTag_plain (h : PlainSpan s q a n) {b : Nat} (h1 : a ≤ b) (h2 : b < a + n) : viewTag s (some q.val) b = memTag s.mem b := by
  obtain ⟨-, -, -, -, -, -, -, -, hw⟩ := h
  simp [viewTag, Option.filter, (hw b h1 h2).1]

end

/-! The base's update (04 R135). -/

section
variable {s : State} {q : Nat} {m : MemOp} {n : Nat}

/-- Outside ring mode the base is a capability register, which modes 1 and 2 move. -/
theorem memUpdate_cap (hr : inRing s q = false) :
    memUpdate s q m n = s ∨ m.updates = true ∧ ∃ c, memUpdate s q m n = cSet s q m.ca.toNat c := by
  unfold memUpdate
  dsimp only
  split
  · exact .inl rfl
  · next h => exact .inr ⟨by simpa using h, _, if_neg (by simp [hr])⟩

theorem memUpdate_mem (hr : inRing s q = false) : (memUpdate s q m n).mem = s.mem := by
  rcases memUpdate_cap hr (m := m) (n := n) with h | ⟨-, c, h⟩ <;> rw [h]
  rfl

theorem wGet_memUpdate (hr : inRing s q = false) (k : Nat) : wGet (memUpdate s q m n) q k = wGet s q k := by
  rcases memUpdate_cap hr (m := m) (n := n) with h | ⟨-, c, h⟩ <;> rw [h]
  exact wGet_cSet ..

theorem cGet_memUpdate (hr : inRing s q = false) {k : Nat} (hk : k ≠ m.ca.toNat ∨ m.updates = false) :
    cGet (memUpdate s q m n) q k = cGet s q k := by
  rcases memUpdate_cap hr (m := m) (n := n) with h | ⟨hu, c, h⟩ <;> rw [h]
  rw [cGet_cSet, if_neg fun h => hk.elim (· h.1) (by simp [hu])]

theorem pairOver_memUpdate (hr : inRing s q = false) : pairOver (memUpdate s q m n) q = pairOver s q := by
  rcases memUpdate_cap hr (m := m) (n := n) with h | ⟨-, c, h⟩ <;> rw [h]
  exact pairOver_cSet ..

theorem inRing_memUpdate (hr : inRing s q = false) : inRing (memUpdate s q m n) q = false := by
  rcases memUpdate_cap hr (m := m) (n := n) with h | ⟨-, c, h⟩ <;> rw [h]
  · exact hr
  · simpa [inRing, statusOfSeat, cSet] using hr

/-- A field of a seat beside its banks stays. -/
theorem memUpdate_field (hr : inRing s q = false) {α : Type} (f : Seat → α) (hf : ∀ x b, f { x with banks := b } = f x) (p : Nat) :
    f (getSeat (memUpdate s q m n) p) = f (getSeat s p) := by
  rcases memUpdate_cap hr (m := m) (n := n) with h | ⟨-, c, h⟩ <;> rw [h]
  rw [cSet, modCur, getSeat_modSeat]
  split
  · next h =>
    rw [h]
    exact hf ..
  · rfl

theorem ringClash_noRing (hr : inRing s q = false) (regs : List Nat) : ringClash s q m regs = s := by
  simp [ringClash, hr]

theorem inRing_wSet (r : Nat) (v : Word) : inRing (wSet s q r v) q = inRing s q := by
  simp [inRing, statusOfSeat, wSet]

end

theorem Recount.inRing_eq {s t : State} (h : Recount s t) (q : Nat) : inRing t q = inRing s q := by
  rw [inRing, statusOfSeat, h.getSeat_eq]
  rfl

theorem Recount.wGet_eq {s t : State} (h : Recount s t) (q k : Nat) : wGet t q k = wGet s q k := by
  rw [wGet, h.getSeat_eq]
  rfl

theorem Recount.cGet_eq {s t : State} (h : Recount s t) (q k : Nat) : cGet t q k = cGet s q k := by
  rw [cGet, h.getSeat_eq]
  rfl

theorem Recount.mem_eq {s t : State} (h : Recount s t) : t.mem = s.mem := by
  obtain ⟨c, rfl⟩ := h
  rfl

theorem Recount.pairOver_eq {s t : State} (h : Recount s t) (q : Nat) : pairOver t q = pairOver s q := by
  obtain ⟨c, rfl⟩ := h
  rfl

theorem Recount.sweepHit_eq {s t : State} (h : Recount s t) (c : Cap) : sweepHit t c = sweepHit s c := by
  obtain ⟨c, rfl⟩ := h
  rfl

/-! The loads over plain words (05 R151). -/

section
variable {s s1 : State} {q : SeatNo} {rd : Reg} {m : MemOp} {a : Nat}

/-- LDW over a plain word, or a word of the stick. -/
theorem ldw_plain (hi : Issues s q (.ldw q rd m) s1) (hacc : PlainAccess s1 q (memAccess s1 q m 1 1 rRD false))
    (hr : inRing s1 q = false) (ha : memEa s1 q m 1 = a) :
    ∃ t, exec (.ldw q rd m) s = .next t ∧ t.mem = s1.mem ∧ (getSeat t q).stick = (getSeat s1 q).stick ∧
      (∀ r, wGet t q r = if r = rd.toNat ∧ rd.toNat ≠ 0 then viewWord s1 (some q) a else wGet s1 q r) ∧
      ∀ r, (r ≠ m.ca.toNat ∨ m.updates = false) → cGet t q r = cGet s1 q r := by
  obtain ⟨u, g, hu, hg, rfl, -, -, hw⟩ := load_plain hacc ha
  have hru : inRing g.st q = false := (hu.inRing_eq q).trans hr
  have hclash : inRing (wSet (memUpdate g.st q m 1) q rd.toNat (g.word 0)) q = false :=
    (inRing_wSet ..).trans (inRing_memUpdate hru)
  have ho : pairOver (wSet (memUpdate g.st q m 1) q rd.toNat (g.word 0)) q = false := by
    rw [pairOver_wSet, pairOver_memUpdate hru, hu.pairOver_eq, hi.pairOver]
  obtain ⟨t, ht, hq⟩ := load_completes (.ldw q rd m) q _ s s1 _ rfl hi (by simp only [hg, ringClash_noRing hclash]) ho
  have hg := goesOn_of_quiet hq
  refine ⟨t, ht, ?_, ?_, fun r => ?_, fun r h => ?_⟩
  · exact (hg.mem.trans (memUpdate_mem hru)).trans hu.mem_eq
  · rw [hg.field Seat.stick fun _ _ => rfl, wSet, getSeat_modCur, ← hu.getSeat_eq]
    exact memUpdate_field hru Seat.stick (fun _ _ => rfl) q
  · rw [hg.wGet, wGet_wSet, wGet_memUpdate hru, hu.wGet_eq, hw 0 (by omega)]
    rfl
  · rw [hg.cGet, cGet_wSet, cGet_memUpdate hru h, hu.cGet_eq]

/-- LDD over plain words: the pair, low word first. -/
theorem ldd_plain (hi : Issues s q (.ldd q rd m) s1) (hacc : PlainAccess s1 q (memAccess s1 q m 2 2 rRD false))
    (hr : inRing s1 q = false) (ha : memEa s1 q m 2 = a) :
    ∃ t, exec (.ldd q rd m) s = .next t ∧ t.mem = s1.mem ∧
      ∀ r, wGet t q r = if r = rd.toNat + 1 then viewWord s1 (some q) (a + 1)
        else if r = rd.toNat ∧ rd.toNat ≠ 0 then viewWord s1 (some q) a else wGet s1 q r := by
  obtain ⟨u, g, hu, hg, rfl, -, -, hw⟩ := load_plain hacc ha
  have hru : inRing g.st q = false := (hu.inRing_eq q).trans hr
  have hclash : inRing (wSet (wSet (memUpdate g.st q m 2) q rd.toNat (g.word 0)) q (rd.toNat + 1) (g.word 1)) q = false :=
    (inRing_wSet ..).trans ((inRing_wSet ..).trans (inRing_memUpdate hru))
  have ho : pairOver (wSet (wSet (memUpdate g.st q m 2) q rd.toNat (g.word 0)) q (rd.toNat + 1) (g.word 1)) q = false := by
    rw [pairOver_wSet, pairOver_wSet, pairOver_memUpdate hru, hu.pairOver_eq, hi.pairOver]
  obtain ⟨t, ht, hq⟩ := load_completes (.ldd q rd m) q _ s s1 _ rfl hi (by simp only [hg, ringClash_noRing hclash]) ho
  have hg := goesOn_of_quiet hq
  refine ⟨t, ht, (hg.mem.trans (memUpdate_mem hru)).trans hu.mem_eq, fun r => ?_⟩
  rw [hg.wGet, wGet_wSet, wGet_wSet, wGet_memUpdate hru, hu.wGet_eq, hw 0 (by omega), hw 1 (by omega)]
  simp

/-- LDC over plain words: the granule, its tag where RC and the sweep filter let it pass. -/
theorem ldc_plain (hi : Issues s q (.ldc q rd m) s1) (hacc : PlainAccess s1 q (memAccess s1 q m 4 4 rRD false))
    (hr : inRing s1 q = false) (ha : memEa s1 q m 4 = a) (hd : rd.toNat ≠ 0) :
    ∃ t, exec (.ldc q rd m) s = .next t ∧ t.mem = s1.mem ∧ (∀ r, wGet t q r = wGet s1 q r) ∧
      let c := viewCap s1 (some q) a
      cGet t q rd.toNat = { c with tag := c.tag && holds (capRights (cGet s1 q m.ca.toNat)) rRC && !sweepHit s1 { c with tag := true } } := by
  obtain ⟨u, g, hu, hg, rfl, hok, htags, hw⟩ := load_plain hacc ha
  have hlt : a < caseEnd := by
    have := hacc.span.inCase
    simp only [memAccess, ha, Int.toNat_natCast] at this
    omega
  have hru : inRing g.st q = false := (hu.inRing_eq q).trans hr
  have ho : ∀ c, pairOver (cSet (memUpdate g.st q m 4) q rd.toNat c) q = false := fun c => by
    rw [pairOver_cSet, pairOver_memUpdate hru, hu.pairOver_eq, hi.pairOver]
  obtain ⟨t, ht, hq⟩ := load_completes (.ldc q rd m) q _ s s1 _ rfl hi
    (by simp only [hg, hr, Bool.false_eq_true, if_false]; rfl) (ho _)
  have hg := goesOn_of_quiet hq
  refine ⟨t, ht, (hg.mem.trans (memUpdate_mem hru)).trans hu.mem_eq, fun r => ?_, ?_⟩
  · rw [hg.wGet, wGet_cSet, wGet_memUpdate hru, hu.wGet_eq]
  · rw [hg.cGet, cGet_cSet, if_pos ⟨rfl, hd⟩]
    simp only [hw 0 (by omega), hw 1 (by omega), hw 2 (by omega), hw 3 (by omega), htags, hok, seatTag_unpaired hacc.role hlt,
      hu.sweepHit_eq, memAuth, hr, viewCap]
    simp

end

/-- A destination that w0 discards (05 R141). -/
theorem ite_destination (s : State) (q : Nat) (rd : Reg) (v : Word) :
    (if rd.toNat = rd.toNat ∧ rd.toNat ≠ 0 then v else wGet s q rd.toNat) = if rd = 0 then 0 else v := by
  by_cases h : rd = 0
  · rw [if_pos h, h]
    rfl
  · rw [if_neg h, if_pos ⟨rfl, mt (BitVec.eq_of_toNat_eq (y := 0)) h⟩]

/-- Settles O24: the three loads over plain words, and LDW over the stick. -/
theorem plainLoadsReadMemory : Obligations.PlainLoadsReadMemory := by
  intro s s1 q rd m a
  refine ⟨fun hi ha hix hp hc => ?_, fun hi ha hix hal hp hc => ?_, fun hi ha hix hal hp hc hd => ?_, fun hi ha hix hp hc => ?_⟩
  · obtain ⟨t, ht, hm, -, hw, hcap⟩ := ldw_plain hi (plainAccess_mem hp (by omega) ha hix hc (Nat.mod_one a)) hp.noRing ha
    refine ⟨t, ht, hm, ?_, fun r hr => by rw [hw, if_neg fun h => hr h.1], hcap⟩
    rw [hw, viewWord_plain hp le_rfl (by omega)]
    exact ite_destination ..
  · obtain ⟨t, ht, hm, hw⟩ := ldd_plain hi (plainAccess_mem hp (by omega) ha hix hc hal) hp.noRing ha
    refine ⟨t, ht, hm, ?_, ?_, fun r hr hr' => by rw [hw, if_neg hr', if_neg fun h => hr h.1]⟩
    · rw [hw, viewWord_plain hp le_rfl (by omega), if_neg (by omega)]
      exact ite_destination ..
    · rw [hw, if_pos rfl, viewWord_plain hp (by omega) (by omega)]
  · obtain ⟨t, ht, hm, hw, hcap⟩ := ldc_plain hi (plainAccess_mem hp (by omega) ha hix hc hal) hp.noRing ha (mt (BitVec.eq_of_toNat_eq (y := 0)) hd)
    have hv : ∀ i, i < 4 → viewWord s1 (some q.val) (a + i) = memWord s1.mem (a + i) := fun i h => viewWord_plain hp (by omega) (by omega)
    refine ⟨t, ht, hm, ?_⟩
    simp only [hcap, viewCap]
    refine ⟨hv 0 (by omega), hv 1 (by omega), hv 2 (by omega), hv 3 (by omega), ?_, hw⟩
    rw [viewTag_plain hp le_rfl (by omega)]
    simp [and_assoc]
  · obtain ⟨t, ht, hm, hst, hw, -⟩ := ldw_plain hi (stickAccess_mem hp (by omega) ha hix hc (Nat.mod_one a)) hp.noRing ha
    refine ⟨t, ht, hm, hst, ?_, fun r hr => by rw [hw, if_neg fun h => hr h.1]⟩
    obtain ⟨-, -, -, -, -, -, hin⟩ := hp
    have hv : viewWord s1 (some q.val) a = smGet 0 (getSeat s1 q.val).stick (a % 16384) := by
      simp [viewWord, Option.filter, hin a le_rfl (by omega)]
    rw [hw, hv]
    exact ite_destination ..

end Sys2Proof.Machine
end

section

namespace Sys2Proof.Machine

/-! A store of words into one granule of case that seat q reaches plainly (06 R208, R209; 10 R321, R322). -/

/-- Word b of case lies outside the seat's stick and code store, and is not poisoned. -/
structure PlainWord (s : State) (q : Nat) (b : Nat) : Prop where
  inCase : b < caseEnd
  stick : inStick (getSeat s q) b = false
  code : inCode (getSeat s q) b = false
  sound : poisonedAt s.mem b = false

theorem PlainSpan.word {s : State} {q : SeatNo} {a n b : Nat} (h : PlainSpan s q a n) (h1 : a ≤ b) (h2 : b < a + n) : PlainWord s q b := by
  have hc := h.free.inCase
  obtain ⟨-, -, -, -, -, -, -, -, hw⟩ := h
  obtain ⟨hs, hcode, hp⟩ := hw b h1 h2
  exact ⟨by omega, hs, hcode, hp⟩

/-- Memory after the words ws are put at a, into one granule whose tag is then tag: no other word, tag or poison differs. -/
structure GranulePut (m m' : Mem) (a : Nat) (ws : List Word) (tag : Bool) : Prop where
  words : ∀ b, memWord m' b = if a ≤ b ∧ b < a + ws.length then ws.getD (b - a) 0 else memWord m b
  tags : ∀ b, memTag m' b = if b / 4 = a / 4 then tag else memTag m b
  poison : ∀ b, poisonedAt m' b = poisonedAt m b
  flips : m'.flips = []
  rot : m'.rot = []

theorem poisonedAt_granule {m : Mem} {a b : Nat} (ha : a < caseEnd) (h : b / 4 = a / 4) : poisonedAt m b = poisonedAt m a := by
  have hb : b < caseEnd := by
    simp only [caseEnd] at ha ⊢
    omega
  simp [poisonedAt, (isCase_of_lt ha).2.2.1, (isCase_of_lt hb).2.2.1, h]

theorem putGranule_plain {s : State} {a : Nat} {ws : List Word} {tag : Bool} (hf : s.mem.flips = []) (hr : s.mem.rot = [])
    (ha : a < caseEnd) (hp : poisonedAt s.mem a = false) : GranulePut s.mem (putGranule s a ws tag).mem a ws tag := by
  have hb := (isCase_of_lt ha).2.2.1
  have he : putGranule s a ws tag = { s with mem := { s.mem with
      words := smSetList 0 s.mem.words a ws, tags := smSet false s.mem.tags (a / 4) tag,
      poison := smSet false s.mem.poison (a / 4) false, flips := smSet 0 s.mem.flips (a / 4) 0 } } := by
    rw [putGranule, meetWords_sound hf hr, ite_self, storeWords_case hb hp]
  have hpoison : ∀ b, poisonedAt (putGranule s a ws tag).mem b = poisonedAt s.mem b := by
    intro b
    by_cases h : b / 4 = a / 4
    · rw [poisonedAt_granule ha h, poisonedAt_granule ha h, hp, he]
      simp [poisonedAt, hb]
    · rw [he]
      simp [poisonedAt, smGet_smSet, h]
  refine ⟨fun b => ?_, fun b => ?_, hpoison, by rw [he, hf]; rfl, by rw [he, hr]⟩
  · split
    · next h =>
      obtain ⟨i, rfl⟩ := Nat.exists_eq_add_of_le h.1
      have hi : i < ws.length := by omega
      rw [memWord_putGranule_inside hb hp hi, Nat.add_sub_cancel_left, List.getD_eq_getElem _ _ hi]
    · exact memWord_putGranule_outside (by omega)
  · have hs : smGet false (putGranule s a ws tag).mem.tags (b / 4) = if b / 4 = a / 4 then tag else smGet false s.mem.tags (b / 4) := by
      rw [he]
      exact smGet_smSet ..
    rw [memTag, hs, hpoison]
    split
    · next h => rw [poisonedAt_granule ha h, hp, Bool.not_false, Bool.and_true]
    · rfl

/-- A store outside the code store marks nothing stale. -/
theorem getSeat_markStale {s : State} {q a n : Nat} (h : ∀ i, i < n → inCode (getSeat s q) (a + i) = false) (p : Nat) :
    getSeat (markStale s q a n) p = getSeat s p := by
  have hfold : ∀ (x : Seat) (m : SMap Bool), (∀ i, i < n → inCode x (a + i) = false) → ∀ k, k ≤ n →
      (List.range k).foldl (fun m i => if inCode x (a + i) then smSet false m ((a + i) % 16384) true else m) m = m := by
    intro x m hx k hk
    induction k with
    | zero => rfl
    | succ k ih => rw [List.range_succ, List.foldl_append, ih (by omega), List.foldl_cons, List.foldl_nil, if_neg (by simp [hx k (by omega)])]
  rw [markStale, getSeat_modSeat]
  split
  · next hp =>
    subst hp
    rw [hfold _ _ h n le_rfl]
  · rfl

theorem seatPut_plain {s : State} {q a : Nat} {ws : List Word} {gran tag : Bool} (hrole : (curBank (getSeat s q)).role = .none)
    (hf : s.mem.flips = []) (hr : s.mem.rot = []) (hn : 0 < ws.length) (h : ∀ i, i < ws.length → PlainWord s q (a + i)) :
    GranulePut s.mem (seatPut s q a ws gran tag).mem a ws tag ∧ Translated q s (seatPut s q a ws gran tag) := by
  have ha := h 0 hn
  rw [Nat.add_zero] at ha
  have hx : getSeat (markStale s q a ws.length) q = getSeat s q := getSeat_markStale (fun i hi => (h i hi).code) q
  have hm : (markStale s q a ws.length).mem = s.mem := markStale_mem ..
  have ht : Translated q s (markStale s q a ws.length) := (Translated.refl q s).modSeat _ fun _ => rfl
  obtain ⟨-, hsys, -, hhost⟩ := isCase_of_lt ha.inCase
  have he : seatPut s q a ws gran tag = putGranule (markStale s q a ws.length) a ws tag := by
    unfold seatPut
    simp only [hx, ha.stick, hrole, hsys, hhost, Bool.false_eq_true, if_false, ne_eq, not_true_eq_false, Bool.or_self]
  rw [he]
  refine ⟨?_, ht.putGranule ..⟩
  have := putGranule_plain (s := markStale s q a ws.length) (ws := ws) (tag := tag) (by rw [hm]; exact hf) (by rw [hm]; exact hr) ha.inCase
    (by rw [hm]; exact ha.sound)
  rwa [hm] at this

/-- A run of words within one granule is stored at once. -/
theorem granules_one {a : Nat} {ws : List Word} (hn : 0 < ws.length) (h : a % 4 + ws.length ≤ 4) : granules a ws = [(a, ws)] := by
  cases ws with
  | nil => simp at hn
  | cons w ws =>
    have hd : (w :: ws).drop (4 - a % 4) = [] := List.drop_eq_nil_of_le (by omega)
    have ht : (w :: ws).take (4 - a % 4) = w :: ws := List.take_of_length_le (by omega)
    rw [granules, List.length_cons, granulesFuel, ht, hd]
    · cases ws.length <;> rfl
    · simp

theorem seatWrite_one {s : State} {q a : Nat} {ws : List Word} (hn : 0 < ws.length) (h : a % 4 + ws.length ≤ 4) :
    seatWrite s q a ws = seatPut s q a ws false false := by
  rw [seatWrite, granules_one hn h]
  rfl

/-! The stores over plain words, and over words of the stick (05 R151, 06 R208). -/

section
variable {s u : State} {q a : Nat}

theorem PlainWord.recount (h : PlainWord s q a) (hu : Recount s u) : PlainWord u q a := by
  obtain ⟨hc, hs, hcode, hp⟩ := h
  refine ⟨hc, ?_, ?_, ?_⟩
  · rwa [hu.getSeat_eq]
  · rwa [hu.getSeat_eq]
  · rwa [hu.mem_eq]

theorem Translated.inRing_eq (h : Translated q s u) : inRing u q = inRing s q := by
  rw [inRing, statusOfSeat, h.status]
  rfl

theorem Translated.wGet_eq (h : Translated q s u) (k : Nat) : wGet u q k = wGet s q k := by
  rw [wGet, h.curBank_eq]
  rfl

theorem Translated.cGet_eq (h : Translated q s u) (k : Nat) : cGet u q k = cGet s q k := by
  rw [cGet, h.curBank_eq]
  rfl

theorem markStale_translated (s : State) (q a n : Nat) : Translated q s (markStale s q a n) :=
  (Translated.refl q s).modSeat _ fun _ => rfl

theorem stickPut_translated (s : State) (q a : Nat) (ws : List Word) (tag : Bool) : Translated q s (stickPut s q a ws tag) :=
  (Translated.refl q s).modSeat _ fun _ => rfl

theorem Recount.translated (h : Recount s u) : Translated q s u := by
  obtain ⟨c, rfl⟩ := h
  exact ⟨rfl, fun _ _ => rfl, rfl⟩

theorem pairOver_unpaired (h : (curBank (getSeat s q)).role = .none) : pairOver s q = false := by
  simp [pairOver, h]

theorem pairOver_memUpdate_unpaired {m : MemOp} {n : Nat} (hr : inRing s q = false) (h : (curBank (getSeat s q)).role = .none) :
    pairOver (memUpdate s q m n) q = false := by
  rw [pairOver_memUpdate hr, pairOver_unpaired h]

end

section
variable {s s1 : State} {q : SeatNo} {rd : Reg} {m : MemOp} {a n : Nat}

/-- A checked store of n words at a puts them into the one granule that holds them. -/
theorem store_plain {x : Access} (h : PlainAccess s q x) {ws : List Word} (hn : ws.length = x.n)
    (hg : x.ea.toNat % 4 + x.n ≤ 4) :
    ∃ u g, Recount s u ∧ accessAll q [x] s = .ok g ∧ g.st = u ∧ g.pa 0 = x.ea.toNat ∧
      storeRuns g q 0 ws = seatPut u q x.ea.toNat ws false false := by
  obtain ⟨u, hu, hg'⟩ := accessAll_plain h.level (as := [x]) (by simpa using h)
  refine ⟨u, _, hu, hg', rfl, rfl, ?_⟩
  have ht : ws.take x.n = ws := List.take_of_length_le hn.le
  have hpos := h.pos
  simp [storeRuns, splitRuns, plainRun, ht, seatWrite_one (ws := ws) (a := x.ea.toNat) (by omega) (by omega)]

/-- A store of words of one granule of case, notes apart. -/
theorem seatPut_span {u : State} {ws : List Word} {gran tag : Bool} (h : PlainSpan s q a ws.length) (hn : 0 < ws.length) (hu : Recount s u) :
    GranulePut s.mem (seatPut u q a ws gran tag).mem a ws tag ∧ Translated q s (seatPut u q a ws gran tag) := by
  have hw : ∀ i, i < ws.length → PlainWord s q (a + i) := fun i hi => h.word (by omega) (by omega)
  obtain ⟨-, -, -, -, -, hrole, hf, hro, -⟩ := h
  obtain ⟨hm, ht⟩ := seatPut_plain (s := u) (gran := gran) (tag := tag) (by rwa [hu.getSeat_eq]) (by rwa [hu.mem_eq]) (by rwa [hu.mem_eq]) hn
    fun i hi => (hw i hi).recount hu
  exact ⟨hu.mem_eq ▸ hm, hu.translated.trans ht⟩

/-- An instruction of the table whose effect is a plain store and the base's update. -/
theorem store_effect {i : Instr} {f : State → Option State} {u : State} {ws : List Word} {gran tag : Bool}
    (htab : storeEffect i = some (q, f)) (hi : Issues s q i s1) (hp : PlainSpan s1 q a ws.length) (hn : 0 < ws.length) (hu : Recount s1 u)
    (hf : f s1 = some (memUpdate (seatPut u q a ws gran tag) q m n)) :
    ∃ t, exec i s = .next t ∧ GranulePut s1.mem t.mem a ws tag ∧ ∀ r, wGet t q r = wGet s1 q r := by
  obtain ⟨hm, htr⟩ := seatPut_span (gran := gran) (tag := tag) hp hn hu
  obtain ⟨-, hr, -, -, -, hrole, -, -, -⟩ := hp
  have hr' : inRing (seatPut u q a ws gran tag) q = false := htr.inRing_eq.trans hr
  obtain ⟨t, ht, hq⟩ := store_completes i q f s s1 _ htab hi hf (pairOver_memUpdate_unpaired hr' (by rwa [htr.curBank_eq]))
  have hg := goesOn_of_quiet hq
  refine ⟨t, ht, ?_, fun r => ?_⟩
  · rwa [hg.mem, memUpdate_mem hr']
  · rw [hg.wGet, wGet_memUpdate hr', htr.wGet_eq]

/-- STW over a plain word. -/
theorem stw_plain (hi : Issues s q (.stw q rd m) s1) (hp : PlainSpan s1 q a 1) (ha : memEa s1 q m 1 = a)
    (hix : memBadIndex s1 q m = false) (hc : Reaches (cGet s1 q m.ca.toNat) a 1 rWR) :
    ∃ t, exec (.stw q rd m) s = .next t ∧ GranulePut s1.mem t.mem a [wGet s1 q rd.toNat] false ∧ ∀ r, wGet t q r = wGet s1 q r := by
  have hacc := plainAccess_mem (align := 1) (write := true) hp (by omega) ha hix hc (Nat.mod_one a)
  obtain ⟨u, g, hu, hg, -, -, hst⟩ := store_plain hacc (ws := [wGet s1 q rd.toNat]) rfl (by simp only [memAccess]; omega)
  have he : (memAccess s1 q m 1 1 rWR true).ea.toNat = a := by simp [memAccess, ha]
  rw [he] at hst
  exact store_effect (m := m) (n := 1) (gran := false) (ws := [wGet s1 q rd.toNat]) rfl hi hp (by simp) hu (by simp only [hg, hst])

/-- STD over a plain pair. -/
theorem std_plain (hi : Issues s q (.std q rd m) s1) (hp : PlainSpan s1 q a 2) (ha : memEa s1 q m 2 = a)
    (hix : memBadIndex s1 q m = false) (hal : a % 2 = 0) (hc : Reaches (cGet s1 q m.ca.toNat) a 2 rWR) :
    ∃ t, exec (.std q rd m) s = .next t ∧ GranulePut s1.mem t.mem a [wGet s1 q rd.toNat, wGet s1 q (rd.toNat + 1)] false ∧
      ∀ r, wGet t q r = wGet s1 q r := by
  have hacc := plainAccess_mem (align := 2) (write := true) hp (by omega) ha hix hc hal
  have he : (memAccess s1 q m 2 2 rWR true).ea.toNat = a := by simp [memAccess, ha]
  obtain ⟨u, g, hu, hg, -, hpa, hst⟩ := store_plain hacc (ws := [wGet s1 q rd.toNat, wGet s1 q (rd.toNat + 1)]) rfl
    (by rw [he]; simp only [memAccess]; omega)
  rw [he] at hst hpa
  have hsys : isSystem a = false := (isCase_of_lt (by have := hp.free.inCase; omega)).2.1
  exact store_effect (m := m) (n := 2) (gran := false) (ws := [wGet s1 q rd.toNat, wGet s1 q (rd.toNat + 1)]) rfl hi hp
    (by simp) hu
    (by simp only [hg, hpa, hsys, Bool.false_and, Bool.false_eq_true, if_false, hst])

/-- STC over a plain granule. -/
theorem stc_plain (hi : Issues s q (.stc q rd m) s1) (hp : PlainSpan s1 q a 4) (ha : memEa s1 q m 4 = a)
    (hix : memBadIndex s1 q m = false) (hal : a % 4 = 0) (hc : Reaches (cGet s1 q m.ca.toNat) a 4 rWR)
    (htag : (cGet s1 q rd.toNat).tag = true → holds (capRights (cGet s1 q m.ca.toNat)) rWC = true ∧
      (capGlobal (cGet s1 q rd.toNat) = true ∨ holds (capRights (cGet s1 q m.ca.toNat)) rWL = true)) :
    ∃ t, exec (.stc q rd m) s = .next t ∧
      GranulePut s1.mem t.mem a (capWords (cGet s1 q rd.toNat)) (cGet s1 q rd.toNat).tag ∧ ∀ r, wGet t q r = wGet s1 q r := by
  have hr : inRing s1 q = false := hp.noRing
  have he : (stcAccess s1 q rd m).ea.toNat = a := by simp [stcAccess, memAccess, ha]
  have hacc : PlainAccess s1 q (stcAccess s1 q rd m) := by
    refine PlainSpan.access (by rw [he]; exact hp) (show 0 < 4 by omega) rfl rfl rfl (stepFail_reaches ?_ ?_ ?_ hix ?_)
    · rw [he]
      simpa [stcAccess, memAccess, memAuth, hr] using hc
    · simp [stcAccess, memAccess, ha]
    · simp only [stcAccess, memAccess, ha]
      exact_mod_cast hal
    · simpa [stcAccess, memAccess, memAuth, hr, or_iff_not_imp_left] using htag
  obtain ⟨u, g, hu, hg, hgu, hpa, -⟩ := store_plain hacc (ws := capWords (cGet s1 q rd.toNat)) rfl
    (by rw [he]; simp only [stcAccess, memAccess]; omega)
  rw [he] at hpa
  have hcase := hp.free.inCase
  have hfence : isFenceBlock a = false := by
    simp only [caseEnd] at hcase
    simp only [isFenceBlock, Bool.and_eq_false_iff, decide_eq_false_iff_not]
    omega
  have hst : storeGranule g.st q a (cGet s1 q rd.toNat) = seatPut u q a (capWords (cGet s1 q rd.toNat)) true (cGet s1 q rd.toNat).tag := by
    rw [storeGranule, hfence, hgu]
    rfl
  unfold stcAccess at hg
  exact store_effect (m := m) (n := 4) (gran := true) (ws := capWords (cGet s1 q rd.toNat)) rfl hi hp (by simp [capWords]) hu
    (by simp only [hr, Bool.false_eq_true, if_false, hg, hpa, hst])

/-- A seat other than the one that goes on stays as it was. -/
theorem getSeat_of_quiet {r t : State} {len p : Nat} (h : quiet q t = quiet q (nextInstr q len r)) (hp : p ≠ q.val) : getSeat t p = getSeat r p := by
  have hq : ∀ u : State, getSeat (quiet q u) p = getSeat u p := fun u => ((getSeat_modSeat u q p unsampled).trans (if_neg hp) :)
  rw [← hq t, h, hq, nextInstr, goOn, getSeat_modCur_ne _ _ hp]

theorem getSeat_memUpdate_ne {v : State} (hr : inRing v q = false) {p : Nat} (hp : p ≠ q.val) : getSeat (memUpdate v q m n) p = getSeat v p := by
  rcases memUpdate_cap hr (m := m) (n := n) with h | ⟨-, c, h⟩ <;> rw [h]
  exact getSeat_modCur_ne _ _ hp

/-- STW into the stick, and the mark it leaves in the code store (06 R208, R209). -/
theorem stw_stick (hi : Issues s q (.stw q rd m) s1) (hp : StickSpan s1 q a 1) (ha : memEa s1 q m 1 = a)
    (hix : memBadIndex s1 q m = false) (hc : Reaches (cGet s1 q m.ca.toNat) a 1 rWR) :
    ∃ t, exec (.stw q rd m) s = .next t ∧ t.mem = s1.mem ∧ (∀ r, wGet t q r = wGet s1 q r) ∧ (∀ p, p ≠ q.val → getSeat t p = getSeat s1 p) ∧
      ∀ {α : Type} (f : Seat → α), (∀ x b, f { x with samples := [], banks := b } = f x) →
        f (getSeat t q) = f { getSeat s1 q with
          stick := smSet 0 (getSeat s1 q).stick (a % 16384) (wGet s1 q rd.toNat)
          stickTag := smSet false (getSeat s1 q).stickTag (a % 16384 / 4) false
          stale := if inCode (getSeat s1 q) a then smSet false (getSeat s1 q).stale (a % 16384) true else (getSeat s1 q).stale } := by
  have he : (memAccess s1 q m 1 1 rWR true).ea.toNat = a := by simp [memAccess, ha]
  have hacc := stickAccess_mem (align := 1) (write := true) hp (by omega) ha hix hc (Nat.mod_one a)
  obtain ⟨u, g, hu, hg, -, -, hst⟩ := store_plain hacc (ws := [wGet s1 q rd.toNat]) rfl (by simp only [memAccess]; omega)
  obtain ⟨-, hr, -, -, -, hrole, hin⟩ := hp
  have hs : inStick (getSeat (markStale u q a 1) q) a = true := by
    rw [markStale, getSeat_modSeat_self, hu.getSeat_eq]
    exact hin a le_rfl (by omega)
  have hv : seatPut u q a [wGet s1 q rd.toNat] false false = stickPut (markStale u q a 1) q a [wGet s1 q rd.toNat] false := if_pos hs
  have htr : Translated q s1 (stickPut (markStale u q a 1) q a [wGet s1 q rd.toNat] false) :=
    (hu.translated.trans (markStale_translated ..)).trans (stickPut_translated ..)
  have hr' := htr.inRing_eq.trans hr
  obtain ⟨t, ht, hq⟩ := store_completes (.stw q rd m) q _ s s1 _ rfl hi (by simp only [hg, hst, he, hv])
    (pairOver_memUpdate_unpaired (m := m) (n := 1) hr' (by rwa [htr.curBank_eq]))
  have hgo := goesOn_of_quiet hq
  refine ⟨t, ht, ?_, fun r => ?_, fun p hpq => ?_, fun f hf => ?_⟩
  · rw [hgo.mem, memUpdate_mem hr', stickPut_mem, markStale_mem, hu.mem_eq]
  · rw [hgo.wGet, wGet_memUpdate hr', htr.wGet_eq]
  · rw [getSeat_of_quiet hq hpq, getSeat_memUpdate_ne hr' hpq, htr.others p hpq]
  · rw [hgo.field f hf, memUpdate_field hr' f fun x b => (hf { x with banks := b } b).symm.trans (hf x b), stickPut, getSeat_modSeat_self,
      markStale, getSeat_modSeat_self, hu.getSeat_eq]
    rfl

end

/-- Settles O25: the three stores over plain words, and STW into the stick. -/
theorem plainStoresWriteMemory : Obligations.PlainStoresWriteMemory := by
  intro s s1 q rd m a
  refine ⟨fun hi ha hix hp hc => ?_, fun hi ha hix hal hp hc => ?_, fun hi ha hix hal hp hc htag => ?_, fun hi ha hix hp hc => ?_⟩
  · obtain ⟨t, ht, hm, hw⟩ := stw_plain hi hp ha hix hc
    refine ⟨t, ht, fun b => ?_, fun b => ?_, hw⟩
    · rw [hm.words]
      grind
    · rw [hm.tags]
      grind
  · obtain ⟨t, ht, hm, hw⟩ := std_plain hi hp ha hix hal hc
    refine ⟨t, ht, fun b => ?_, fun b => ?_, hw⟩
    · rw [hm.words]
      grind
    · rw [hm.tags]
      grind
  · obtain ⟨t, ht, hm, hw⟩ := stc_plain hi hp ha hix hal hc htag
    refine ⟨t, ht, fun b => ?_, fun b => ?_, hw⟩
    · rw [hm.words, capWords]
      grind
    · exact hm.tags b
  · obtain ⟨t, ht, hm, hw, hother, hfield⟩ := stw_stick hi hp ha hix hc
    refine ⟨t, ht, hm, fun i => ?_, fun g => ?_, ?_, fun i => ?_, hother, hw⟩
    · rw [hfield Seat.stick fun _ _ => rfl, smGet_smSet]
    · rw [hfield Seat.stickTag fun _ _ => rfl, smGet_smSet]
      grind
    · rw [hfield Seat.code fun _ _ => rfl]
    · rw [hfield Seat.stale fun _ _ => rfl]
      dsimp only
      split <;> grind [smGet_smSet]

end Sys2Proof.Machine
end

section

namespace Sys2Proof.Machine

/-! Words stored one by one and gathered by granule (05 R152, R154; 10 R322): what memory holds after those of a set S, of which the
pending ones are still to be performed. -/

/-- From s, the words of S, and no other, hold val in t, their granules are untagged, and nothing else that a seat sees differs. -/
structure Stored (q : Nat) (s : State) (val : Nat → Word) (S : Set Nat) (t : State) : Prop where
  same : Translated q s t
  inside : ∀ b ∈ S, memWord t.mem b = val b
  outside : ∀ b ∉ S, memWord t.mem b = memWord s.mem b
  cleared : ∀ b, (∃ c ∈ S, c / 4 = b / 4) → memTag t.mem b = false
  kept : ∀ b, (¬ ∃ c ∈ S, c / 4 = b / 4) → memTag t.mem b = memTag s.mem b
  poison : ∀ b, poisonedAt t.mem b = poisonedAt s.mem b
  flips : t.mem.flips = []
  rot : t.mem.rot = []

/-- As Stored, of which the words lo to hi-1, in one granule, are pending in g. -/
structure Gathered (q : Nat) (s : State) (val : Nat → Word) (S : Set Nat) (lo hi : Nat) (g : Gather) : Prop where
  done : Stored q s val (S \ Set.Ico lo hi) g.st
  pend : ∀ e, e ∈ g.pend ↔ e.1 ∈ Set.Ico lo hi ∧ e.2 = val e.1
  sub : Set.Ico lo hi ⊆ S
  granule : ∀ b ∈ Set.Ico lo hi, b / 4 = lo / 4
  plain : ∀ b ∈ S, PlainWord s q b

section
variable {q : Nat} {s t u : State} {val : Nat → Word} {S : Set Nat} {lo hi a : Nat} {g : Gather}

theorem Translated.inStick_eq (h : Translated q s t) (b : Nat) : inStick (getSeat t q) b = inStick (getSeat s q) b := by
  have hx := h.seat
  exact (congrArg (inStick · b) hx :)

theorem Translated.inCode_eq (h : Translated q s t) (b : Nat) : inCode (getSeat t q) b = inCode (getSeat s q) b := by
  have hx := h.seat
  exact (congrArg (inCode · b) hx :)

theorem Stored.refl (hf : s.mem.flips = []) (hr : s.mem.rot = []) : Stored q s val ∅ s :=
  ⟨.refl q s, by simp, by simp, by simp, by simp, fun _ => rfl, hf, hr⟩

theorem Stored.recount (h : Stored q s val S t) (hu : Recount t u) : Stored q s val S u := by
  obtain ⟨h1, h2, h3, h4, h5, h6, h7, h8⟩ := h
  have hm := hu.mem_eq
  exact ⟨h1.trans hu.translated, by rwa [hm], by rwa [hm], by rwa [hm], by rwa [hm], by rwa [hm], by rwa [hm], by rwa [hm]⟩

theorem Stored.word (h : Stored q s val S t) {b : Nat} (hw : PlainWord s q b) : PlainWord t q b := by
  obtain ⟨h1, h2, h3, h4⟩ := hw
  exact ⟨h1, by rwa [h.same.inStick_eq], by rwa [h.same.inCode_eq], by rwa [h.poison]⟩

/-- The words lo to hi-1 of one granule are put after those of S. -/
theorem Stored.put (h : Stored q s val S t) (hrole : (curBank (getSeat s q)).role = .none) (hlt : lo < hi)
    (hg : ∀ b ∈ Set.Ico lo hi, b / 4 = lo / 4) (hw : ∀ b ∈ Set.Ico lo hi, PlainWord s q b) :
    Stored q s val (S ∪ Set.Ico lo hi) (seatPut t q lo ((List.Ico lo hi).map val) false false) := by
  have hlen : ((List.Ico lo hi).map val).length = hi - lo := by simp
  obtain ⟨hm, htr⟩ := seatPut_plain (s := t) (q := q) (a := lo) (ws := (List.Ico lo hi).map val) (gran := false) (tag := false)
    (by rwa [h.same.curBank_eq]) h.flips h.rot (by omega) fun i hi' => h.word (hw _ ⟨by omega, by omega⟩)
  have hword : ∀ b, memWord (seatPut t q lo ((List.Ico lo hi).map val) false false).mem b =
      if lo ≤ b ∧ b < hi then val b else memWord t.mem b := fun b => by
    rw [hm.words, hlen]
    by_cases hb : lo ≤ b ∧ b < hi
    · rw [if_pos (by omega), if_pos hb, List.getD_eq_getElem _ _ (by omega), List.getElem_map]
      simp only [List.Ico, List.getElem_range']
      congr 1
      omega
    · rw [if_neg (by omega), if_neg hb]
  have hgr : ∀ b, (∃ c ∈ Set.Ico lo hi, c / 4 = b / 4) ↔ b / 4 = lo / 4 := fun b =>
    ⟨fun ⟨c, hc, hb⟩ => hb ▸ hg c hc, fun hb => ⟨lo, ⟨le_rfl, hlt⟩, hb.symm⟩⟩
  refine ⟨h.same.trans htr, fun b hb => ?_, fun b hb => ?_, fun b hb => ?_, fun b hb => ?_, fun b => ?_, hm.flips, hm.rot⟩
  · rw [hword]
    split
    · rfl
    · next hn => exact h.inside b (hb.resolve_right hn)
  · rw [hword, if_neg (show ¬ (lo ≤ b ∧ b < hi) from fun hn => hb (.inr hn)), h.outside b fun hn => hb (.inl hn)]
  · rw [hm.tags]
    split
    · rfl
    · next hn =>
      obtain ⟨c, hc, he⟩ := hb
      exact h.cleared b ⟨c, hc.resolve_right fun hc => hn ((hgr b).1 ⟨c, hc, he⟩), he⟩
  · rw [hm.tags, if_neg fun hn => ?_, h.kept b fun ⟨c, hc, he⟩ => hb ⟨c, .inl hc, he⟩]
    obtain ⟨c, hc, he⟩ := (hgr b).2 hn
    exact hb ⟨c, .inr hc, he⟩
  · rw [hm.poison, h.poison]

/-- The pending word of place i of the granule. -/
theorem pending_find (hp : ∀ e, e ∈ g.pend ↔ e.1 ∈ Set.Ico lo hi ∧ e.2 = val e.1) (hg : ∀ b ∈ Set.Ico lo hi, b / 4 = lo / 4) {i : Nat}
    (hi4 : i < 4) : (g.pend.find? fun e => e.1 % 4 == i) =
      if lo ≤ lo / 4 * 4 + i ∧ lo / 4 * 4 + i < hi then some (lo / 4 * 4 + i, val (lo / 4 * 4 + i)) else none := by
  cases he : g.pend.find? fun e => e.1 % 4 == i with
  | none =>
    rw [if_neg fun hb => ?_]
    have hno := List.find?_eq_none.1 he _ ((hp (lo / 4 * 4 + i, val (lo / 4 * 4 + i))).2 ⟨hb, rfl⟩)
    simp only [beq_iff_eq] at hno
    omega
  | some e =>
    obtain ⟨hmem, hval⟩ := (hp e).1 (List.mem_of_find?_eq_some he)
    have hmod : e.1 % 4 = i := by simpa using List.find?_some he
    have hq := hg e.1 hmem
    have h1 : e.1 = lo / 4 * 4 + i := by omega
    rw [if_pos (h1 ▸ hmem), ← h1, ← hval]

/-- The pending words, in ascending order. -/
theorem pending_sorted (hp : ∀ e, e ∈ g.pend ↔ e.1 ∈ Set.Ico lo hi ∧ e.2 = val e.1) (hg : ∀ b ∈ Set.Ico lo hi, b / 4 = lo / 4)
    (hle : lo ≤ hi) : (List.range 4).filterMap (fun i => g.pend.find? fun e => e.1 % 4 == i) = (List.Ico lo hi).map fun b => (b, val b) := by
  have htop : hi ≤ lo / 4 * 4 + 4 := by
    rcases hle.eq_or_lt with h | h
    · omega
    · have := hg (hi - 1) ⟨by omega, by omega⟩
      omega
  have hsplit : (List.range 4).map (lo / 4 * 4 + ·) = List.Ico (lo / 4 * 4) lo ++ (List.Ico lo hi ++ List.Ico hi (lo / 4 * 4 + 4)) := by
    rw [List.Ico.append_consecutive hle htop, List.Ico.append_consecutive (by omega) (by omega), ← List.Ico.zero_bot, List.Ico.map_add,
      Nat.zero_add, Nat.add_comm]
  calc (List.range 4).filterMap (fun i => g.pend.find? fun e => e.1 % 4 == i)
      = ((List.range 4).map (lo / 4 * 4 + ·)).filterMap fun b => if lo ≤ b ∧ b < hi then some (b, val b) else none := by
        rw [List.filterMap_map]
        exact List.filterMap_congr fun i hi4 => pending_find hp hg (List.mem_range.1 hi4)
    _ = (List.Ico lo hi).filterMap fun b => if lo ≤ b ∧ b < hi then some (b, val b) else none := by
        have hnil : ∀ x y, (∀ b, x ≤ b → b < y → ¬ (lo ≤ b ∧ b < hi)) →
            (List.Ico x y).filterMap (fun b => if lo ≤ b ∧ b < hi then some (b, val b) else none) = [] := fun x y h =>
          List.filterMap_eq_nil_iff.2 fun b hb => if_neg (h b (List.Ico.mem.1 hb).1 (List.Ico.mem.1 hb).2)
        rw [hsplit, List.filterMap_append, List.filterMap_append, hnil _ lo fun b _ _ => by omega, hnil hi _ fun b _ _ => by omega,
          List.nil_append, List.append_nil]
    _ = (List.Ico lo hi).map fun b => (b, val b) := by
        rw [← List.filterMap_eq_map]
        exact List.filterMap_congr fun b hb => if_pos (List.Ico.mem.1 hb)

/-- The pending words are performed. -/
theorem Gathered.flush (h : Gathered q s val S lo hi g) (hrole : (curBank (getSeat s q)).role = .none) (hle : lo ≤ hi) :
    Stored q s val S (gatherFlush q g) := by
  have hu : S \ Set.Ico lo hi ∪ Set.Ico lo hi = S := Set.sdiff_union_of_subset h.sub
  unfold gatherFlush
  simp only [pending_sorted h.pend h.granule hle]
  rcases hle.eq_or_lt with he | hlt
  · have hd := h.done
    subst he
    rw [List.Ico.self_empty, List.map_nil]
    simpa using hd
  · have hp := h.done.put hrole hlt h.granule fun b hb => h.plain b (h.sub hb)
    rw [hu] at hp
    rw [List.Ico.eq_cons hlt, List.map_cons] at hp ⊢
    simpa [Function.comp_def] using hp

/-- A first pending word. -/
theorem Stored.gathered (h : Stored q s val S t) (hw : ∀ b ∈ insert a S, PlainWord s q b) (ha : a ∉ S) :
    Gathered q s val (insert a S) a (a + 1) { st := t, pend := [(a, val a)] } := by
  have hone : Set.Ico a (a + 1) = {a} := by
    ext b
    simp only [Set.mem_Ico, Set.mem_singleton_iff]
    omega
  refine ⟨?_, fun e => ?_, ?_, ?_, hw⟩
  · rwa [hone, Set.insert_sdiff_self_of_notMem ha]
  · rw [hone, List.mem_singleton, Set.mem_singleton_iff, Prod.ext_iff]
    exact and_congr_right fun he => by rw [he]
  · rw [hone]
    simp
  · rw [hone]
    simp

/-- The word at a, which extends the pending ones at one end, joins them, or is the first of its granule. -/
theorem Gathered.add (h : Gathered q s val S lo hi g) (hrole : (curBank (getSeat s q)).role = .none) (hle : lo ≤ hi) (ha : a ∉ S)
    (hw : PlainWord s q a) (hend : a = hi ∨ a + 1 = lo) :
    ∃ lo' hi', lo' ≤ hi' ∧ (a = hi → hi' = a + 1) ∧ (a + 1 = lo → lo' = a) ∧
      Gathered q s val (insert a S) lo' hi' (gatherPut q g a (val a) false) := by
  have hplain : ∀ b ∈ insert a S, PlainWord s q b := by
    rintro b (rfl | hb)
    · exact hw
    · exact h.plain b hb
  unfold gatherPut
  rw [if_neg Bool.false_ne_true]
  split
  · next hnil =>
    have hempty : Set.Ico lo hi = ∅ := Set.eq_empty_of_forall_notMem fun b hb => by
      have := (h.pend (b, val b)).2 ⟨hb, rfl⟩
      simp [hnil] at this
    have hd := h.done
    rw [hempty, Set.sdiff_empty] at hd
    exact ⟨a, a + 1, by omega, fun _ => rfl, fun _ => rfl, hd.gathered hplain ha⟩
  · next e rest hpend =>
    have he := ((h.pend e).1 (by simp [hpend])).1
    split
    · next hgr =>
      have hmem : ∀ f, f ∈ (a, val a) :: g.pend.filter (fun y => y.1 != a) ↔ (f.1 = a ∨ f.1 ∈ Set.Ico lo hi) ∧ f.2 = val f.1 := fun f => by
        rw [List.mem_cons, List.mem_filter, h.pend, Prod.ext_iff]
        by_cases hf : f.1 = a
        · simp [hf]
        · simp [hf]
      have hjoin : ∀ lo' hi', Set.Ico lo' hi' = insert a (Set.Ico lo hi) → lo' / 4 = a / 4 →
          Gathered q s val (insert a S) lo' hi' { g with pend := (a, val a) :: g.pend.filter fun y => y.1 != a } := by
        intro lo' hi' hi hlo'
        refine ⟨?_, fun f => ?_, ?_, ?_, hplain⟩
        · rw [hi, Set.insert_sdiff_of_mem _ (Set.mem_insert ..), Set.sdiff_insert_of_notMem ha]
          exact h.done
        · rw [hi, hmem]
          rfl
        · rw [hi]
          exact Set.insert_subset_insert h.sub
        · rw [hi, hlo']
          rintro b (rfl | hb)
          · rfl
          · rw [h.granule b hb, ← hgr, h.granule _ he]
      rcases hend with rfl | rfl
      · refine ⟨lo, a + 1, by omega, fun _ => rfl, fun _ => by omega, hjoin _ _ ?_ ((h.granule _ he).symm.trans hgr)⟩
        ext b
        simp only [Set.mem_Ico, Set.mem_insert_iff]
        omega
      · refine ⟨a, hi, by omega, fun _ => by omega, fun _ => rfl, hjoin _ _ ?_ rfl⟩
        have := he.1
        have := he.2
        ext b
        simp only [Set.mem_Ico, Set.mem_insert_iff]
        omega
    · exact ⟨a, a + 1, by omega, fun _ => rfl, fun _ => rfl, (h.flush hrole hle).gathered hplain ha⟩

end

end Sys2Proof.Machine
end

section

namespace Sys2Proof.Machine

/-! The loops of STM, MOVW and FILLW over plain words (05 R152, R154): word by word they pass their checks and gather their words. -/

section
variable {s t u : State} {q : SeatNo} {val : Nat → Word} {S : Set Nat} {a n : Nat}

/-- What a plain span depends on. -/
theorem PlainSpan.congr (h : PlainSpan s q a n) (hst : statusOfSeat t q = statusOfSeat s q) (hfence : t.fence = s.fence) (hsys : t.sys = s.sys)
    (hrole : (curBank (getSeat t q)).role = (curBank (getSeat s q)).role) (hstick : ∀ b, inStick (getSeat t q) b = inStick (getSeat s q) b)
    (hcode : ∀ b, inCode (getSeat t q) b = inCode (getSeat s q) b) (hf : t.mem.flips = []) (hr : t.mem.rot = [])
    (hp : ∀ b, poisonedAt t.mem b = poisonedAt s.mem b) : PlainSpan t q a n := by
  obtain ⟨h1, h2, h3, h4, h5, h6, -, -, h9⟩ := h
  refine ⟨?_, ?_, h3, by rwa [hfence], ?_, by rwa [hrole], hf, hr, fun b hb hb' => ?_⟩
  · rwa [levelOf, hst]
  · rwa [inRing, hst]
  · rwa [touchesSetAside, hsys]
  · rw [hstick, hcode, hp]
    exact h9 b hb hb'

theorem PlainSpan.stored (h : PlainSpan s q a n) (ht : Stored q s val S t) : PlainSpan t q a n := by
  have hrest := ht.same.rest
  exact h.congr ht.same.status (congrArg State.fence hrest :) (congrArg State.sys hrest :) (by rw [ht.same.curBank_eq]) ht.same.inStick_eq
    ht.same.inCode_eq ht.flips ht.rot ht.poison

/-- Case is no side-effect space (10 R317). -/
theorem strictRun_plain {x : Access} (h : PlainAccess s q x) (hu : Recount s u) (dir : Nat) : strictRun u q dir (plainRun x) = false := by
  obtain ⟨c, rfl⟩ := hu
  have hfree : FreeSpan s x.ea.toNat 1 := h.span.mono le_rfl (by have := h.pos; omega)
  have hf : fenceCheck { s with counters := c } (seatReq (getSeat s q).status dir x.ea.toNat 1 false) = .ok (defaultRegion 0) :=
    fenceCheck_free ⟨hfree.inCase, hfree.descs, hfree.aside⟩ (seatClass_atM h.level) Nat.one_pos
  have hx : getSeat { s with counters := c } q = getSeat s q := rfl
  simp only [strictRun, plainRun, hx, hf]
  simp [defaultRegion]

/-- The store of a word of case passes. -/
theorem write_passes {x : Access} (h : PlainAccess s q x) :
    ∃ p, Recount s p.st ∧ accessAll q [x] s = .ok p ∧ p.pa 0 = x.ea.toNat ∧ p.strict q 0 1 = false := by
  obtain ⟨u, hu, hp⟩ := accessAll_plain h.level (as := [x]) (by simpa using h)
  exact ⟨_, hu, hp, rfl, by simp [Passed.strict, strictRun_plain h hu]⟩

/-- So does the load of one. -/
theorem read_passes {x : Access} (h : PlainAccess s q x) (hw : x.write = false) (hn : x.n = 1) :
    ∃ p, Recount s p.st ∧ accessAll q [x] s = .ok p ∧ p.word 0 = viewWord s (some q) x.ea.toNat := by
  obtain ⟨u, hu, hp⟩ := accessAll_plain h.level (as := [x]) (by simpa using h)
  exact ⟨_, hu, hp, by simp [Passed.word, Passed.words, plainWords, hw, hn]⟩

/-- So do the store and the load of a word of MOVW. -/
theorem move_passes {x y : Access} (hx : PlainAccess s q x) (hy : PlainAccess s q y) (hw : y.write = false) (hn : y.n = 1) :
    ∃ p, Recount s p.st ∧ accessAll q [x, y] s = .ok p ∧ p.pa 0 = x.ea.toNat ∧ p.pa 1 = y.ea.toNat ∧ p.strict q 0 1 = false ∧
      p.strict q 1 0 = false ∧ (p.data.getD 1 []).getD 0 0 = viewWord s (some q) y.ea.toNat := by
  obtain ⟨u, hu, hp⟩ := accessAll_plain hx.level (as := [x, y]) (by simp [hx, hy])
  exact ⟨_, hu, hp, rfl, rfl, by simp [Passed.strict, strictRun_plain hx hu], by simp [Passed.strict, strictRun_plain hy hu],
    by simp [plainWords, hw, hn]⟩

end

/-- Part of the words a to a+n-1 stand stored in g, others are pending, and no others are touched. -/
structure Underway (q : Nat) (s : State) (val : Nat → Word) (a n : Nat) (g : Gather) : Prop where
  done : ∃ S ⊆ Set.Ico a (a + n), Stored q s val S g.st
  pend : ∀ e ∈ g.pend, e.1 ∈ Set.Ico a (a + n)

section
variable {s : State} {q : SeatNo} {val : Nat → Word} {S : Set Nat} {a n lo hi : Nat} {g : Gather}

theorem Gathered.underway (h : Gathered q s val S lo hi g) (hS : S ⊆ Set.Ico a (a + n)) : Underway q s val a n g :=
  ⟨⟨_, Set.sdiff_subset.trans hS, h.done⟩, fun e he => hS (h.sub ((h.pend e).1 he).1)⟩

theorem Gathered.recount {u : State} (h : Gathered q s val S lo hi g) (hu : Recount g.st u) : Gathered q s val S lo hi { g with st := u } :=
  ⟨h.done.recount hu, h.pend, h.sub, h.granule, h.plain⟩

theorem Gathered.empty (hf : s.mem.flips = []) (hr : s.mem.rot = []) (a : Nat) : Gathered q s val ∅ a a { st := s, pend := [] } := by
  refine ⟨?_, fun e => ?_, ?_, ?_, ?_⟩
  · simpa using Stored.refl hf hr
  all_goals simp

/-- A loop over the words a to a+n-1, L being what is left of it after i of them: whichever word comes next in either direction, it
ends with them all gathered. -/
theorem gather_up {α : Type} {L : Nat → Gather → α} (hp : PlainSpan s q a n)
    (h : ∀ i < n, ∀ g, Underway q s val a n g → ∃ u, Recount g.st u ∧ L i g = L (i + 1) (gatherPut q { g with st := u } (a + i) (val (a + i)) false)) :
    ∃ g, L 0 { st := s, pend := [] } = L n g ∧ Underway q s val a n g ∧ Stored q s val (Set.Ico a (a + n)) (gatherFlush q g) := by
  obtain ⟨hf, hr⟩ := hp.faultless
  have hloop : ∀ i ≤ n, ∃ g lo, lo ≤ a + i ∧ L 0 { st := s, pend := [] } = L i g ∧ Gathered q s val (Set.Ico a (a + i)) lo (a + i) g := by
    intro i hi
    induction i with
    | zero => exact ⟨_, a, le_rfl, rfl, by simpa using Gathered.empty hf hr a⟩
    | succ i ih =>
      obtain ⟨g, lo, hlo, hl, hg⟩ := ih (by omega)
      obtain ⟨u, hu, hs⟩ := h i (by omega) g (hg.underway (Set.Ico_subset_Ico_right (by omega)))
      obtain ⟨lo', hi', hle, he, -, hg'⟩ := (hg.recount hu).add hp.role hlo (by simp) (hp.word (by omega) (by omega)) (.inl rfl)
      have hset : insert (a + i) (Set.Ico a (a + i)) = Set.Ico a (a + (i + 1)) := by
        ext b
        simp only [Set.mem_insert_iff, Set.mem_Ico]
        omega
      rw [hset, he rfl] at hg'
      exact ⟨_, lo', he rfl ▸ hle, hl.trans hs, hg'⟩
  obtain ⟨g, lo, hle, hl, hg⟩ := hloop n le_rfl
  exact ⟨g, hl, hg.underway subset_rfl, hg.flush hp.role hle⟩

theorem gather_down {α : Type} {L : Nat → Gather → α} (hp : PlainSpan s q a n)
    (h : ∀ i < n, ∀ g, Underway q s val a n g →
      ∃ u, Recount g.st u ∧ L i g = L (i + 1) (gatherPut q { g with st := u } (a + (n - 1 - i)) (val (a + (n - 1 - i))) false)) :
    ∃ g, L 0 { st := s, pend := [] } = L n g ∧ Underway q s val a n g ∧ Stored q s val (Set.Ico a (a + n)) (gatherFlush q g) := by
  obtain ⟨hf, hr⟩ := hp.faultless
  have hloop : ∀ i ≤ n, ∃ g hi, a + (n - i) ≤ hi ∧ L 0 { st := s, pend := [] } = L i g ∧
      Gathered q s val (Set.Ico (a + (n - i)) (a + n)) (a + (n - i)) hi g := by
    intro i hi
    induction i with
    | zero => exact ⟨_, a + n, le_rfl, rfl, by simpa using Gathered.empty hf hr (a + n)⟩
    | succ i ih =>
      obtain ⟨g, hi, hhi, hl, hg⟩ := ih (by omega)
      obtain ⟨u, hu, hs⟩ := h i (by omega) g (hg.underway (Set.Ico_subset_Ico_left (by omega)))
      have hnext : n - (i + 1) = n - 1 - i := by omega
      obtain ⟨lo', hi', hle, -, he, hg'⟩ := (hg.recount hu).add hp.role hhi (a := a + (n - 1 - i)) (by simp; omega)
        (hp.word (by omega) (by omega)) (.inr (by omega))
      have hset : insert (a + (n - 1 - i)) (Set.Ico (a + (n - i)) (a + n)) = Set.Ico (a + (n - (i + 1))) (a + n) := by
        ext b
        simp only [Set.mem_insert_iff, Set.mem_Ico]
        omega
      rw [hset, he (by omega), ← hnext] at hg'
      rw [he (by omega), ← hnext] at hle
      exact ⟨_, hi', hle, hl.trans (hnext ▸ hs), hg'⟩
  obtain ⟨g, hi, hle, hl, hg⟩ := hloop n le_rfl
  rw [Nat.sub_self, Nat.add_zero] at hg hle
  exact ⟨g, hl, hg.underway subset_rfl, hg.flush hp.role hle⟩

end

end Sys2Proof.Machine
end

section

namespace Sys2Proof.Machine

/-! One word at a time: the accesses of LDM, STM, MOVW and FILLW (05 R152, R154). -/

/-- An access to the one word b. -/
def oneWord (c : Cap) (b need : Nat) (write : Bool) : Access := { cap := c, ea := b, n := 1, need := need, write := write }

/-- The trap of the first word beyond a capability's bounds (02 R48, step 6). -/
def outsideTrap (b : Nat) (write : Bool) : Trap := { cause := cBOUNDS, addr := BitVec.ofNat 36 b, step := 6, write := write }

theorem wordAt_eq (c : Cap) (k need : Nat) (write : Bool) : wordAt c k need write = oneWord c (capCursor c + k) need write := by
  simp [wordAt, oneWord]

section
variable {s t : State} {q : SeatNo} {c : Cap} {m : MemOp} {a b n k need : Nat} {write : Bool}

theorem memAccess_eq (hr : inRing s q = false) (ha : memEa s q m n = a) (hix : memBadIndex s q m = false) :
    { memAccess s q m n 1 need write with n := 1 } = oneWord (cGet s q m.ca.toNat) a need write := by
  simp [memAccess, oneWord, memAuth, hr, ha, hix]

theorem oneWord_add : { oneWord c a need write with ea := (oneWord c a need write).ea + k } = oneWord c (a + k) need write := by
  simp [oneWord]

theorem PlainSpan.oneWord (h : PlainSpan s q a n) (hc : Reaches c a n need) (hk : k < n) :
    PlainAccess s q (oneWord c (a + k) need write) := by
  have hcase := h.free.inCase
  obtain ⟨h1, h2, h3, h4, h5, h6, h7⟩ := hc
  refine PlainSpan.access (h.mono (Nat.le_add_right a k) (by simp only [Machine.oneWord, Int.toNat_natCast]; omega)) Nat.one_pos rfl rfl rfl
    (stepFail_reaches ⟨h1, h2, h3, h4, ?_, ?_, ?_⟩ (Int.natCast_nonneg _) (by simp [Machine.oneWord]) rfl fun h => by cases h)
  · simp only [Machine.oneWord, Int.toNat_natCast]
    omega
  · simp only [Machine.oneWord, Int.toNat_natCast]
    omega
  · simp only [Machine.oneWord, Int.toNat_natCast, caseEnd] at hcase ⊢
    omega

/-- The word behind a capability's last fails step 6, where what else is accessed passes steps 1 to 5. -/
theorem accessAll_outside {as : List Access} (hl : levelOf s q = .M) (hc : Reaches c a n need) (hlast : capLast c + 1 = a + n)
    (hlt : a + n < 2 ^ 36) (has : ∀ x ∈ as, ∀ k, stepFail .M (sideOf s q) x k = none) :
    accessAll q (oneWord c (a + n) need write :: as) s = .error (outsideTrap (a + n) write, s) := by
  obtain ⟨h1, h2, h3, h4, h5, -, -⟩ := hc
  have hpass : ∀ k ∈ [1, 2, 3, 4, 5], stepFail .M (sideOf s q) (oneWord c (a + n) need write) k = none := by
    simp [stepFail, oneWord, h1, h2, h3, h4, sideUsable]
  have hfail : stepFail .M (sideOf s q) (oneWord c (a + n) need write) 6 = some (outsideTrap (a + n) write) := by
    have h6 : ¬ ((oneWord c (a + n) need write).ea > (space36 : Int) - 1) := by
      simp only [oneWord, space36]
      omega
    have hb : boundsWord (oneWord c (a + n) need write) = a + n := by
      simp only [boundsWord, oneWord, Int.toNat_natCast, hlast]
      rw [if_neg (by omega), max_self]
    simp only [stepFail, boundsFail, hb]
    rw [if_neg (by simp [oneWord]; omega), if_neg h6, if_neg (by simp [oneWord]), if_neg (by simp only [oneWord, Int.toNat_natCast]; omega)]
    rfl
  have hnone : ∀ k, as.findSome? (fun x => stepFail .M (sideOf s q) x k) = none := fun k =>
    List.findSome?_eq_none_iff.2 fun x hx => has x hx k
  have hs : stepsFail (levelOf s q) (sideOf s q) (oneWord c (a + n) need write :: as) [1, 2, 3, 4, 5, 6] = some (outsideTrap (a + n) write) := by
    rw [hl]
    simp [stepsFail, List.findSome?_cons, hpass, hfail, hnone]
  rw [accessAll, hs]

end

/-! STM (05 R152). -/

theorem withOffsets_drop {rs : List Nat} (h : rs.Nodup) {i : Nat} (hi : i < rs.length) :
    (withOffsets rs rs).drop i = (rs[i], i) :: (withOffsets rs rs).drop (i + 1) := by
  rw [List.drop_eq_getElem_cons (by simpa [withOffsets] using hi)]
  simp [withOffsets, h.idxOf_getElem]

section
variable {s : State} {q : SeatNo} {cd cs : Cap} {rs : List Nat} {a b n j count : Nat}

/-- The word of STM at b. -/
def stmWord (s : State) (q : Nat) (rs : List Nat) (a b : Nat) : Word := wGet s q (rs.getD (b - a) 0)

theorem stm_gathers (hp : PlainSpan s q a j) (hc : Reaches cd a j rWR) (hn : rs.Nodup) (hj : j ≤ rs.length) :
    ∃ g, stmLoop q (oneWord cd a rWR true) [] (withOffsets rs rs) { st := s, pend := [] } =
        stmLoop q (oneWord cd a rWR true) [] ((withOffsets rs rs).drop j) g ∧
      Underway q s (stmWord s q rs a) a j g ∧ Stored q s (stmWord s q rs a) (Set.Ico a (a + j)) (gatherFlush q g) := by
  refine gather_up (L := fun i g => stmLoop q (oneWord cd a rWR true) [] ((withOffsets rs rs).drop i) g) hp fun i hi g hg => ?_
  obtain ⟨⟨S, -, hd⟩, -⟩ := hg
  obtain ⟨p, hu, hacc, hpa, hstrict⟩ := write_passes ((hp.stored hd).oneWord (write := true) hc hi)
  have hw : wGet p.st q rs[i] = stmWord s q rs a (a + i) := by
    rw [(hd.same.trans hu.translated).wGet_eq, stmWord, Nat.add_sub_cancel_left, List.getD_eq_getElem]
  refine ⟨p.st, hu, ?_⟩
  simp only [withOffsets_drop hn (show i < rs.length by omega), stmLoop, oneWord_add, hacc, hpa, hstrict, hw]
  rfl

/-- FILLW. -/
theorem fill_gathers (w : Word) (hp : PlainSpan s q a j) (hc : Reaches cd a j rWR) (ha : capCursor cd = a) (hj : j ≤ count) :
    ∃ g, fillLoop q cd w count 0 count { st := s, pend := [] } = fillLoop q cd w count 0 (count - j) g ∧
      Underway q s (fun _ => w) a j g ∧ Stored q s (fun _ => w) (Set.Ico a (a + j)) (gatherFlush q g) := by
  refine gather_up (L := fun i g => fillLoop q cd w count 0 (count - i) g) hp fun i hi g hg => ?_
  obtain ⟨⟨S, -, hd⟩, -⟩ := hg
  obtain ⟨p, hu, hacc, hpa, hstrict⟩ := write_passes ((hp.stored hd).oneWord (write := true) hc hi)
  have hm : count - i = count - (i + 1) + 1 := by omega
  have hk : count - (count - (i + 1) + 1 + 0) = i := by omega
  refine ⟨p.st, hu, ?_⟩
  simp only [hm, fillLoop, hk, wordAt_eq, ha, hacc, hpa, hstrict]
  rfl

/-- The word of MOVW at x. -/
def movWord (s : State) (a b x : Nat) : Word := memWord s.mem (b + (x - a))

/-- One word of MOVW, whose source is not among the words that it writes. -/
theorem mov_gathers {down : Bool} {i m N n : Nat} {g : Gather} (hp : PlainSpan s q a N) (hc : Reaches cd a N rWR) (ha : capCursor cd = a)
    (hp' : PlainSpan s q b n) (hc' : Reaches cs b n rRD) (hb : capCursor cs = b) (hi : i < N) (hi' : i < n)
    (hdis : a + N ≤ b ∨ b + n ≤ a) (hk : (if down then m + 1 + 0 - 1 else count - (m + 1 + 0)) = i) (hg : Underway q s (movWord s a b) a N g) :
    ∃ u, Recount g.st u ∧ movLoop q cd cs count down 0 (m + 1) g =
      movLoop q cd cs count down 0 m (gatherPut q { g with st := u } (a + i) (movWord s a b (a + i)) false) := by
  obtain ⟨⟨S, hS, hd⟩, hpend⟩ := hg
  have hout : b + i ∉ Set.Ico a (a + N) := by
    simp only [Set.mem_Ico]
    omega
  have hsrc := hp'.stored hd
  obtain ⟨p, hu, hacc, hpa0, hpa1, hs0, hs1, hdata⟩ := move_passes ((hp.stored hd).oneWord (write := true) hc hi)
    (hsrc.oneWord (write := false) hc' hi') rfl rfl
  have hfind : (g.pend.find? fun e => e.1 == p.pa 1) = none := List.find?_eq_none.2 fun e he hx => by
    rw [hpa1, oneWord, Int.toNat_natCast, beq_iff_eq] at hx
    exact hout (hx ▸ hpend e he)
  have hword : (p.data.getD 1 []).getD 0 0 = movWord s a b (a + i) := by
    rw [hdata, oneWord, Int.toNat_natCast, viewWord_plain hsrc (by omega) (by omega), hd.outside _ fun h => hout (hS h), movWord,
      Nat.add_sub_cancel_left]
  have hmov : movAccess q [oneWord cd (a + i) rWR true, oneWord cs (b + i) rRD false] g = (g, .ok p) := by
    simp [movAccess, hacc, hs1]
  refine ⟨p.st, hu, ?_⟩
  rw [movLoop]
  simp only [hk, wordAt_eq, ha, hb, hmov, hfind, hword, hpa0, hs0]
  rfl

theorem mov_up_gathers (hp : PlainSpan s q a j) (hc : Reaches cd a j rWR) (ha : capCursor cd = a) (hp' : PlainSpan s q b count)
    (hc' : Reaches cs b count rRD) (hb : capCursor cs = b) (hj : j ≤ count) (hdis : a + j ≤ b ∨ b + count ≤ a) :
    ∃ g, movLoop q cd cs count false 0 count { st := s, pend := [] } = movLoop q cd cs count false 0 (count - j) g ∧
      Underway q s (movWord s a b) a j g ∧ Stored q s (movWord s a b) (Set.Ico a (a + j)) (gatherFlush q g) := by
  refine gather_up (L := fun i g => movLoop q cd cs count false 0 (count - i) g) hp fun i hi g hg => ?_
  have hm : count - i = count - (i + 1) + 1 := by omega
  have hk : count - (count - (i + 1) + 1 + 0) = i := by omega
  rw [hm]
  exact mov_gathers hp hc ha hp' hc' hb hi (by omega) hdis hk hg

theorem mov_down_gathers (hp : PlainSpan s q a count) (hc : Reaches cd a count rWR) (ha : capCursor cd = a) (hp' : PlainSpan s q b count)
    (hc' : Reaches cs b count rRD) (hb : capCursor cs = b) (hdis : a + count ≤ b ∨ b + count ≤ a) :
    ∃ g, movLoop q cd cs count true 0 count { st := s, pend := [] } = movLoop q cd cs count true 0 0 g ∧
      Stored q s (movWord s a b) (Set.Ico a (a + count)) (gatherFlush q g) := by
  obtain ⟨g, hl, -, hd⟩ := gather_down (L := fun i g => movLoop q cd cs count true 0 (count - i) g) hp fun i hi g hg => by
    have hm : count - i = count - (i + 1) + 1 := by omega
    have hk : count - (i + 1) + 1 + 0 - 1 = count - 1 - i := by omega
    rw [hm]
    exact mov_gathers hp hc ha hp' hc' hb (by omega) (by omega) hdis hk hg
  exact ⟨g, by simpa using hl, hd⟩

end

/-! LDM (05 R152). -/

/-- The state when i words, those at a onwards, have been loaded into the registers rs in their order. -/
def loadRegs (s : State) (q : Nat) (rs : List Nat) (a : Nat) : Nat → State
  | 0 => s
  | i + 1 => wSet (loadRegs s q rs a i) q (rs.getD i 0) (memWord s.mem (a + i))

section
variable {s t : State} {q : SeatNo} {c : Cap} {rs : List Nat} {a j i k r : Nat}

theorem loadRegs_rest : loadRegs s q rs a i = { s with seats := (loadRegs s q rs a i).seats } := by
  induction i with
  | zero => rfl
  | succ i ih =>
    rw [loadRegs]
    exact (congrArg (fun u : State => wSet u q (rs.getD i 0) (memWord s.mem (a + i))) ih :)

theorem loadRegs_mem : (loadRegs s q rs a i).mem = s.mem := by rw [loadRegs_rest]

/-- What a change of the seat's banks keeps. -/
theorem loadRegs_field {α : Type} (f : Seat → α) (hf : ∀ x b, f { x with banks := b } = f x) :
    f (getSeat (loadRegs s q rs a i) q) = f (getSeat s q) := by
  induction i with
  | zero => rfl
  | succ i ih =>
    rw [loadRegs, wSet, getSeat_modCur, ← ih]
    exact hf ..

theorem loadRegs_role : (curBank (getSeat (loadRegs s q rs a i) q)).role = (curBank (getSeat s q)).role := by
  induction i with
  | zero => rfl
  | succ i ih =>
    rw [loadRegs, wSet, curBank_modCur, ← ih, bankSetW]
    split <;> rfl

theorem Recount.wSet (h : Recount s t) (q r : Nat) (v : Word) : Recount (Machine.wSet s q r v) (Machine.wSet t q r v) := by
  obtain ⟨c, rfl⟩ := h
  exact ⟨c, rfl⟩

theorem loadRegs_pairOver : pairOver (loadRegs s q rs a i) q = pairOver s q := by
  induction i with
  | zero => rfl
  | succ i ih => rw [loadRegs, pairOver_wSet, ih]

theorem cGet_loadRegs : cGet (loadRegs s q rs a i) q r = cGet s q r := by
  induction i with
  | zero => rfl
  | succ i ih => rw [loadRegs, cGet_wSet, ih]

theorem wGet_loadRegs_notMem (hi : i ≤ rs.length) (h : r ∉ rs.take i) : wGet (loadRegs s q rs a i) q r = wGet s q r := by
  induction i with
  | zero => rfl
  | succ i ih =>
    rw [List.take_succ_eq_append_getElem (by omega), List.mem_append, List.mem_singleton, not_or] at h
    rw [loadRegs, wGet_wSet, List.getD_eq_getElem _ _ (by omega), if_neg fun he => h.2 he.1, ih (by omega) h.1]

theorem wGet_loadRegs_mem (hn : rs.Nodup) (h0 : 0 ∉ rs) (hi : i ≤ rs.length) (hk : k < i) :
    wGet (loadRegs s q rs a i) q (rs[k]'(by omega)) = memWord s.mem (a + k) := by
  induction i with
  | zero => omega
  | succ i ih =>
    rw [loadRegs, wGet_wSet, List.getD_eq_getElem _ _ (by omega)]
    by_cases he : k = i
    · subst he
      exact if_pos ⟨rfl, fun hz => h0 (hz ▸ List.getElem_mem _)⟩
    · rw [if_neg fun hx => he ((hn.getElem_inj_iff).1 hx.1), ih (by omega) (by omega)]

theorem PlainSpan.loadRegs {n b : Nat} (h : PlainSpan s q b n) : PlainSpan (loadRegs s q rs a i) q b n := by
  have hm : (Machine.loadRegs s q rs a i).mem = s.mem := loadRegs_mem
  obtain ⟨hf, hr⟩ := h.faultless
  refine h.congr (loadRegs_field Seat.status fun _ _ => rfl) (by rw [loadRegs_rest]) (by rw [loadRegs_rest]) loadRegs_role
    (fun b => loadRegs_field (inStick · b) fun _ _ => rfl) (fun b => loadRegs_field (inCode · b) fun _ _ => rfl) (by rwa [hm]) (by rwa [hm])
    fun b => by rw [hm]

theorem ldm_loads (hp : PlainSpan s q a j) (hc : Reaches c a j rRD) (hn : rs.Nodup) (hj : j ≤ rs.length) :
    ∃ t, Recount (loadRegs s q rs a j) t ∧
      ldmLoop q (oneWord c a rRD false) [] (withOffsets rs rs) s = ldmLoop q (oneWord c a rRD false) [] ((withOffsets rs rs).drop j) t := by
  have hloop : ∀ i ≤ j, ∃ t, Recount (loadRegs s q rs a i) t ∧ ldmLoop q (oneWord c a rRD false) [] (withOffsets rs rs) s =
      ldmLoop q (oneWord c a rRD false) [] ((withOffsets rs rs).drop i) t := by
    intro i hi
    induction i with
    | zero => exact ⟨s, ⟨_, rfl⟩, rfl⟩
    | succ i ih =>
      obtain ⟨t, ht, hl⟩ := ih (by omega)
      have hpt : PlainSpan t q a j := by
        obtain ⟨k, rfl⟩ := ht
        exact hp.loadRegs
      obtain ⟨p, hu, hacc, hw⟩ := read_passes (hpt.oneWord (write := false) hc (show i < j by omega)) rfl rfl
      rw [oneWord, Int.toNat_natCast, viewWord_plain hpt (by omega) (by omega), ht.mem_eq, loadRegs_mem] at hw
      refine ⟨wSet p.st q rs[i] (memWord s.mem (a + i)), ?_, hl.trans ?_⟩
      · rw [loadRegs, List.getD_eq_getElem _ _ (by omega)]
        exact (ht.trans hu).wSet ..
      · rw [withOffsets_drop hn (by omega), ldmLoop]
        simp only [oneWord_add, hacc, hw]
  exact hloop j le_rfl

end

end Sys2Proof.Machine
end

section

namespace Sys2Proof.Machine

/-! A trap at M, of a seat whose M set is free, enters M (07 R220, R222): what it saves, and what it leaves. -/

/-- The word and capability registers of every bank are the same. -/
structure SameRegs (x y : Seat) : Prop where
  w : ∀ i k, bankW (getBank y i) k = bankW (getBank x i) k
  c : ∀ i k, bankC (getBank y i) k = bankC (getBank x i) k

theorem SameRegs.trans {x y z : Seat} (h : SameRegs x y) (h' : SameRegs y z) : SameRegs x z :=
  ⟨fun i k => (h'.w i k).trans (h.w i k), fun i k => (h'.c i k).trans (h.c i k)⟩

theorem SameRegs.of_banks {x y : Seat} (h : ∀ i, getBank y i = getBank x i) : SameRegs x y :=
  ⟨fun i _ => by rw [h], fun i _ => by rw [h]⟩

/-- A bank changed beside its registers. -/
theorem sameRegs_modBank (x : Seat) (i : Nat) {f : Bank → Bank} (hf : ∀ b k, bankW (f b) k = bankW b k ∧ bankC (f b) k = bankC b k) :
    SameRegs x (modBank x i f) := by
  constructor <;> intro j k <;> rw [getBank_modBank] <;> split
  · next h => rw [(hf ..).1, h]
  · rfl
  · next h => rw [(hf ..).2, h]
  · rfl

/-- A seat that leaves bank b for M, the save set v written. -/
def latchedM (x : Seat) (b : Nat) (v : SaveSet) : Seat :=
  { modBank (if x.idle then x else leaveBank x) b (fun b => { b with progress := 0 }) with svM := v, idle := false }

/-- The change of a seat that enters M with the save set v. -/
def enteredM (x : Seat) (b : Nat) (v : SaveSet) (pcc : Cap) : Seat :=
  let x := modBank (latchedM x b v) 8 fun b => { b with pcc := pcc }
  { x with status := { x.status with lvl := .M, bank := 8, ringMode := false, ring := 0, wideOn := false } }

theorem latchedM_regs (x : Seat) (b : Nat) (v : SaveSet) : SameRegs x (latchedM x b v) := by
  have h1 : SameRegs x (if x.idle then x else leaveBank x) := by
    split
    · exact .of_banks fun _ => rfl
    · exact sameRegs_modBank _ _ fun _ _ => ⟨rfl, rfl⟩
  have h2 := sameRegs_modBank (if x.idle then x else leaveBank x) b (f := fun b => { b with progress := 0 }) fun _ _ => ⟨rfl, rfl⟩
  exact (h1.trans h2).trans (.of_banks fun _ => rfl)

theorem enteredM_regs (x : Seat) (b : Nat) (v : SaveSet) (pcc : Cap) : SameRegs x (enteredM x b v pcc) := by
  have h := sameRegs_modBank (latchedM x b v) 8 (f := fun b => { b with pcc := pcc }) fun _ _ => ⟨rfl, rfl⟩
  exact ((latchedM_regs x b v).trans h).trans (.of_banks fun _ => rfl)

/-- The save set that a synchronous entry to M of seat x writes (07 R217). -/
def savedM (x : Seat) (t : Trap) (cause : Nat) (pcc : Cap) (b : Nat) : SaveSet :=
  { pcc := pcc, granB := if cause == cRETURNCHECK then t.attempt else x.svM.granB, st := statusWord (liveStatus x),
    cause := causeWord t false cause 0, addr := t.addr, aux := t.aux, prog := t.prog, bank := svBankWord (liveStatus x) b,
    atst := if cause == cRETURNCHECK then t.atst else x.svM.atst, forced := forcedDet x }

theorem enterM_eq (s : State) (q : Nat) (t : Trap) (cause b : Nat) (pcc : Cap) : enterM s q t false cause 0 pcc b =
    reloadCode (modSeatR s q fun x => enteredM x b (savedM (getSeat s q) t cause pcc b) (asPcc (smGet {} s.sys.vectors 10))) q := rfl

/-- What an entry to M from memory without errors leaves of memory and of its seat. -/
theorem enterM_keeps {s : State} (q : Nat) (t : Trap) (hf : s.mem.flips = []) (hr : s.mem.rot = []) (cause b : Nat) (pcc : Cap) :
    (enterM s q t false cause 0 pcc b).mem = s.mem ∧ SameRegs (getSeat s q) (getSeat (enterM s q t false cause 0 pcc b) q) ∧
      (getSeat (enterM s q t false cause 0 pcc b) q).svM = savedM (getSeat s q) t cause pcc b := by
  have hm : ∀ f, (modSeatR s q f).mem = s.mem := fun f => modSeatR_mem ..
  rw [enterM_eq, reloadCode_sound q (by rw [hm]; exact hf) (by rw [hm]; exact hr), getSeat_modSeat_self, getSeat_modSeatR, if_pos rfl]
  obtain ⟨run, since, fired, hx⟩ := residUpdate_only s.time
    (enteredM (getSeat s q) b (savedM (getSeat s q) t cause pcc b) (asPcc (smGet {} s.sys.vectors 10)))
  rw [hx]
  exact ⟨(modSeat_mem ..).trans (hm _), (enteredM_regs ..).trans (.of_banks fun _ => rfl), rfl⟩

/-- A trap at M into a free M set. -/
theorem takeTrap_atM {s : State} {q : Nat} (t : Trap) (hl : levelOf s q = .M) (ho : occupied (getSeat s q).svM = false)
    (hm : mHeld s = false) (hf : s.mem.flips = []) (hr : s.mem.rot = []) :
    ∃ u, quiet q (takeTrap s q t) = quiet q u ∧ u.mem = s.mem ∧ SameRegs (getSeat s q) (getSeat u q) ∧
      (getSeat u q).svM = savedM (getSeat s q) t t.cause (curBank (getSeat s q)).pcc (getSeat s q).status.bank := by
  have hlvl : (getSeat s q).status.lvl = .M := hl
  have hM : trapToM (getSeat s q) t = true := by simp [trapToM, hlvl]
  refine ⟨enterM s q t false t.cause 0 (curBank (getSeat s q)).pcc (getSeat s q).status.bank, ?_, enterM_keeps q t hf hr ..⟩
  unfold takeTrap
  simp only [hM, if_true, ho, hm, Bool.false_eq_true, if_false, quiet_seatCount]

theorem occupied_savedM (x : Seat) (t : Trap) (cause : Nat) (pcc : Cap) (b : Nat) : occupied (savedM x t cause pcc b) = true := by
  simp [occupied, savedM, svBankWord, bit_eq_getLsbD, getLsbD_flag]

/-- SV_CAUSE of a word beyond the bounds. -/
theorem bits_causeWord_outside (b : Nat) (write : Bool) :
    bits (causeWord (outsideTrap b write) false cBOUNDS 0) 5 0 = 0o05 ∧ bits (causeWord (outsideTrap b write) false cBOUNDS 0) 16 13 = 6 := by
  have h : causeWord (outsideTrap b write) false cBOUNDS 0 = causeWord (outsideTrap 0 write) false cBOUNDS 0 := rfl
  rw [h]
  cases write <;> decide

/-- An instruction at M whose word at b lies beyond the bounds: it traps to M, with its progress. -/
theorem seatRun_outside {s s1 u : State} {q : SeatNo} {i : Instr} {permitted : Status → Bool} {body : State → Except (Trap × State) Done}
    {b : Nat} {write : Bool} {prog : Word} (hi : Issues s q i s1) (hp : permitted (statusOfSeat s1 q.val) = true)
    (hb : body s1 = .error ({ outsideTrap b write with prog := prog }, u)) (hl : levelOf u q = .M)
    (ho : occupied (getSeat u q).svM = false) (hm : mHeld u = false) (hf : u.mem.flips = []) (hr : u.mem.rot = [])
    (hover : pairOver u q = false) :
    ∃ t, seatRun q i permitted body s = .next t ∧ t.mem = u.mem ∧ BoundsAt t q b ∧ (getSeat t q.val).svM.prog = prog ∧
      SameRegs (getSeat u q) (getSeat t q) := by
  obtain ⟨t, ht, hq⟩ := seatRun_traps hi hp hb hover
  have hx : getSeat (modCur u q.val fun k => { k with progress := prog }) q.val = _ := getSeat_modCur ..
  have hv : levelOf (modCur u q.val fun k => { k with progress := prog }) q.val = .M := (congrArg (fun x : Seat => x.status.lvl) hx).trans hl
  have hov : occupied (getSeat (modCur u q.val fun k => { k with progress := prog }) q.val).svM = false :=
    (congrArg (fun x : Seat => occupied x.svM) hx).trans ho
  have hregs : SameRegs (getSeat u q) (getSeat (modCur u q.val fun k => { k with progress := prog }) q.val) :=
    hx ▸ sameRegs_modBank _ _ fun _ _ => ⟨rfl, rfl⟩
  obtain ⟨z, hz, hmem, hregs', hsv⟩ := takeTrap_atM { outsideTrap b write with prog := prog } hv hov hm hf hr
  have hq' := hq.trans hz
  obtain ⟨hmt, -, hbanks⟩ := alike_of_quiet hq'
  have hseat := (getSeat_quiet_self q.val t).symm.trans ((congrArg (getSeat · q.val) hq').trans (getSeat_quiet_self ..))
  have hsvt : (getSeat t q.val).svM = (getSeat z q.val).svM := (congrArg Seat.svM hseat :)
  rw [hsv] at hsvt
  refine ⟨t, ht, hmt.trans hmem, ?_, by rw [hsvt]; rfl, (hregs.trans hregs').trans (.of_banks hbanks)⟩
  unfold BoundsAt
  rw [hsvt]
  exact ⟨occupied_savedM .., (bits_causeWord_outside b write).1, (bits_causeWord_outside b write).2, rfl⟩

end Sys2Proof.Machine
end

section

namespace Sys2Proof.Machine

/-! What LDM, STM, MOVW and FILLW make of their operands, and what a stopped one records (05 R152, R157, R159). -/

/-- The registers of a mask, ascending. -/
theorem maskRegs_eq (w : Word) : (List.range 32).filter (fun r => decide (1 ≤ r) && w.getLsbD r) = maskRegs w := by
  refine List.filter_congr fun r _ => ?_
  rw [bit_eq_getLsbD]
  cases r <;> simp

theorem maskRegs_sorted (w : Word) : (maskRegs w).SortedLT := (List.pairwise_lt_range.filter _).sortedLT

theorem maskRegs_nodup (w : Word) : (maskRegs w).Nodup := List.nodup_range.filter _

theorem zero_notMem_maskRegs (w : Word) : 0 ∉ maskRegs w := by simp [maskRegs]

theorem testBit_regsMask {rs : List Nat} (h : rs.SortedLT) (r : Nat) : (regsMask rs).testBit r = decide (r ∈ rs) := by
  have hs : regsMask rs = (rs.map fun i => 2 ^ i).sum := by
    rw [regsMask, List.sum_eq_foldl, List.foldl_map]
  rw [Bool.eq_iff_iff, ← Nat.mem_bitIndices, hs, Nat.bitIndices_sum_map_two_pow h, decide_eq_true_iff]

/-- The mask that SV_PROG records: VALID, and the registers left. -/
theorem getLsbD_progWord_regsMask {rs : List Nat} (h : rs.SortedLT) : (progWord (regsMask rs)).getLsbD 35 = true ∧
    ∀ r, r < 35 → (progWord (regsMask rs)).getLsbD r = decide (r ∈ rs) := by
  refine ⟨by simp [progWord, getLsbD_flag], fun r hr => ?_⟩
  rw [progWord, BitVec.getLsbD_or, getLsbD_flag, getLsbD_field, Nat.sub_zero, Nat.testBit_mod_two_pow, testBit_regsMask h]
  simp [hr, show r < 36 by omega, show r ≠ 35 by omega]

/-- The count that SV_PROG records. -/
theorem progWord_eq {n : Nat} (h : n < 2 ^ 35) : progWord n = BitVec.ofNat 36 (2 ^ 35 + n) := by
  refine BitVec.eq_of_getLsbD_eq fun i hi => ?_
  rw [progWord, BitVec.getLsbD_or, getLsbD_flag, getLsbD_field, Nat.sub_zero, Nat.mod_eq_of_lt h, BitVec.getLsbD_ofNat]
  rcases Nat.lt_or_ge i 35 with hlt | hge
  · rw [Nat.testBit_two_pow_add_gt hlt]
    simp [show i ≠ 35 by omega]
  · obtain rfl : i = 35 := by omega
    rw [Nat.testBit_two_pow_add_eq, Nat.testBit_lt_two_pow h]
    simp

section
variable {s : State} {q : SeatNo} {m : MemOp} {all : List Nat} {count : Nat} {a : Access}

/-- A fresh LDM or STM that nothing interrupts does the whole mask. -/
theorem multiRun_fresh {loop : List Nat → List (Nat × Nat) → State → Except (Trap × State) State}
    (hp : bit (curBank (getSeat s q)).progress 35 = false) (hi : interrupted s q = false) :
    ∃ f : State → Done, (∀ t, (f t).st = memUpdate t q m all.length ∧ (f t).next = .advance) ∧
      multiRun q m all a loop s = (loop [] (withOffsets all all) s).map f := by
  refine ⟨fun t => { st := memUpdate t q m all.length, ea := a.word, acc := true, pa := firstPa s q a }, fun _ => ⟨rfl, rfl⟩, ?_⟩
  simp only [multiRun, maskLeft, hp, wordsMoved, hi, Bool.false_eq_true, if_false, List.drop_length, List.take_length]
  cases loop [] (withOffsets all all) s <;> rfl

/-- So does a fresh MOVW or FILLW its count. -/
theorem blockRun_fresh {loop : Nat → Nat → State → Except (Trap × State) State}
    (hp : bit (curBank (getSeat s q)).progress 35 = false) (hi : interrupted s q = false) :
    ∃ f : State → Done, (∀ t, (f t).st = t ∧ (f t).next = .advance) ∧ blockRun q count a loop s = (loop 0 count s).map f := by
  refine ⟨fun t => { st := t, acc := count != 0, ea := a.word, pa := firstPa s q a }, fun _ => ⟨rfl, rfl⟩, ?_⟩
  simp only [blockRun, countLeft, hp, wordsMoved, hi, Bool.false_eq_true, if_false, Nat.sub_self, if_true]
  cases loop 0 count s <;> rfl

end

theorem withOffsets_drop_fst (rs : List Nat) (i : Nat) : ((withOffsets rs rs).drop i).map Prod.fst = rs.drop i := by
  simp [withOffsets, List.map_drop, Function.comp_def]

section
variable {s : State} {q : SeatNo} {cd cs : Cap} {rs : List Nat} {a b j count : Nat}

/-- The loops stop at the first word beyond the bounds of the capability they write through, or LDM reads through. -/
theorem stmLoop_outside {g : Gather} (hl : levelOf g.st q = .M) (hc : Reaches cd a j rWR) (hlast : capLast cd + 1 = a + j)
    (hlt : a + j < 2 ^ 36) (hn : rs.Nodup) (hj : j < rs.length) :
    stmLoop q (oneWord cd a rWR true) [] ((withOffsets rs rs).drop j) g =
      .error ({ outsideTrap (a + j) true with prog := progWord (regsMask (rs.drop j)) }, gatherFlush q g) := by
  rw [withOffsets_drop hn hj, stmLoop]
  simp only [oneWord_add, accessAll_outside hl hc hlast hlt (as := []) (by simp), withOffsets_drop_fst, List.append_nil,
    ← List.drop_eq_getElem_cons hj]

theorem ldmLoop_outside {t : State} (hl : levelOf t q = .M) (hc : Reaches cs a j rRD) (hlast : capLast cs + 1 = a + j)
    (hlt : a + j < 2 ^ 36) (hn : rs.Nodup) (hj : j < rs.length) :
    ldmLoop q (oneWord cs a rRD false) [] ((withOffsets rs rs).drop j) t =
      .error ({ outsideTrap (a + j) false with prog := progWord (regsMask (rs.drop j)) }, t) := by
  rw [withOffsets_drop hn hj, ldmLoop]
  simp only [oneWord_add, accessAll_outside hl hc hlast hlt (as := []) (by simp), withOffsets_drop_fst, List.append_nil,
    ← List.drop_eq_getElem_cons hj]

theorem fillLoop_outside {g : Gather} (w : Word) (hl : levelOf g.st q = .M) (hc : Reaches cd a j rWR) (ha : capCursor cd = a)
    (hlast : capLast cd + 1 = a + j) (hlt : a + j < 2 ^ 36) (hj : j < count) :
    fillLoop q cd w count 0 (count - j) g =
      .error ({ outsideTrap (a + j) true with prog := progWord (count - j) }, gatherFlush q g) := by
  obtain ⟨m, hm⟩ : ∃ m, count - j = m + 1 := ⟨count - j - 1, by omega⟩
  have hk : count - (m + 1 + 0) = j := by omega
  rw [hm, fillLoop]
  simp only [hk, wordAt_eq, ha, accessAll_outside hl hc hlast hlt (as := []) (by simp), Nat.add_zero]

theorem movLoop_outside {g : Gather} (hl : levelOf g.st q = .M) (hc : Reaches cd a j rWR) (ha : capCursor cd = a)
    (hlast : capLast cd + 1 = a + j) (hlt : a + j < 2 ^ 36) (hj : j < count)
    (hs : ∀ k, stepFail .M (sideOf g.st q) (oneWord cs (capCursor cs + j) rRD false) k = none) :
    movLoop q cd cs count false 0 (count - j) g =
      .error ({ outsideTrap (a + j) true with prog := progWord (count - j) }, gatherFlush q g) := by
  obtain ⟨m, hm⟩ : ∃ m, count - j = m + 1 := ⟨count - j - 1, by omega⟩
  have hk : count - (m + 1 + 0) = j := by omega
  have hacc := accessAll_outside (write := true) hl hc hlast hlt (as := [oneWord cs (capCursor cs + j) rRD false]) (by simpa using hs)
  rw [hm, movLoop]
  simp only [Bool.false_eq_true, if_false, hk, wordAt_eq, ha, movAccess, hacc, Nat.add_zero]

end

end Sys2Proof.Machine
end

section

namespace Sys2Proof.Machine

/-! LDM, STM, MOVW and FILLW over plain words (05 R152 to R159). -/

/-- Words a to a+n-1 of memory are val, no other word differs, and their granules alone have lost their tags (02 R37). -/
structure Transferred (s t : State) (val : Nat → Word) (a n : Nat) : Prop where
  words : ∀ k, k < n → memWord t.mem (a + k) = val (a + k)
  others : ∀ b, b < a ∨ a + n ≤ b → memWord t.mem b = memWord s.mem b
  tags : TagsCleared s t a n

theorem Stored.transferred {s t u : State} {q a n : Nat} {val : Nat → Word} (h : Stored q s val (Set.Ico a (a + n)) u) (hm : t.mem = u.mem) :
    Transferred s t val a n := by
  refine ⟨fun k hk => ?_, fun b hb => ?_, fun b => ?_⟩
  · rw [hm, h.inside _ ⟨by omega, by omega⟩]
  · rw [hm, h.outside _ fun hn => by have := hn.1; have := hn.2; omega]
  · have hg : (∃ c ∈ Set.Ico a (a + n), c / 4 = b / 4) ↔ n ≠ 0 ∧ a / 4 ≤ b / 4 ∧ b / 4 ≤ (a + n - 1) / 4 := by
      constructor
      · rintro ⟨c, ⟨h1, h2⟩, h3⟩
        omega
      · rintro ⟨h1, h2, h3⟩
        by_cases hab : a / 4 = b / 4
        · exact ⟨a, ⟨le_rfl, by omega⟩, hab⟩
        · exact ⟨b / 4 * 4, ⟨by omega, by omega⟩, by omega⟩
    rw [hm]
    by_cases hc : n ≠ 0 ∧ a / 4 ≤ b / 4 ∧ b / 4 ≤ (a + n - 1) / 4
    · rw [h.cleared b (hg.2 hc), decide_eq_true hc, Bool.not_true, Bool.and_false]
    · rw [h.kept b (mt hg.1 hc), decide_eq_false hc, Bool.not_false, Bool.and_true]

section
variable {s s1 : State} {q : SeatNo} {i : Instr} {permitted : Status → Bool} {body : State → Except (Trap × State) Done} {d : Done}
  {t : State} {val : Nat → Word} {S : Set Nat} {a n b : Nat} {prog : Word}

/-- A bank unpaired in s is unpaired after the stores. -/
theorem Stored.unpaired (h : Stored q s val S t) (hp : PlainSpan s q a n) : (curBank (getSeat t q)).role = .none := by
  rw [h.same.curBank_eq, hp.role]

theorem Stored.level (h : Stored q s val S t) (hp : PlainSpan s q a n) : levelOf t q = .M :=
  (congrArg Status.lvl h.same.status).trans hp.1

/-- The word behind a plain span has an address. -/
theorem PlainSpan.lt (h : PlainSpan s q a n) : a + n < 2 ^ 36 := by
  have := h.free.inCase
  simp only [caseEnd] at this
  omega

/-- A transfer that stops at the word b of M, its words so far performed. -/
theorem stores_trap (hi : Issues s q i s1) (hpm : permitted (statusOfSeat s1 q.val) = true) (hd : Stored q s1 val (Set.Ico a (a + n)) t)
    (hp : PlainSpan s1 q a n) (hb : body s1 = .error ({ outsideTrap b true with prog := prog }, t))
    (ho : occupied (getSeat s1 q.val).svM = false) (hm : mHeld s1 = false) :
    ∃ u, seatRun q i permitted body s = .next u ∧ BoundsAt u q b ∧ (getSeat u q.val).svM.prog = prog ∧ BankKept s1 u q ∧
      Transferred s1 u val a n := by
  have hseat := hd.same.seat
  have hrest := hd.same.rest
  have hov : occupied (getSeat t q.val).svM = false := (congrArg (fun x : Seat => occupied x.svM) hseat :).trans ho
  have hmh : mHeld t = false := (congrArg mHeld hrest :).trans hm
  obtain ⟨u, hu, hmem, hbounds, hprog, hregs⟩ := seatRun_outside hi hpm hb (hd.level hp) hov hmh hd.flips hd.rot
    (pairOver_unpaired (hd.unpaired hp))
  refine ⟨u, hu, hbounds, hprog, ⟨fun r => ?_, fun r => ?_⟩, hd.transferred hmem⟩
  · rw [hregs.w, hd.same.getBank_eq]
    rfl
  · rw [hregs.c, hd.same.getBank_eq]
    rfl

/-- A transfer that ends, its words performed. -/
theorem stores_complete (hi : Issues s q i s1) (hpm : permitted (statusOfSeat s1 q.val) = true) (hd : Stored q s1 val (Set.Ico a (a + n)) t)
    (hb : body s1 = .ok d) (hn : d.next = .advance) (hm : d.st.mem = t.mem) (ho : pairOver d.st q = false) :
    ∃ u, seatRun q i permitted body s = .next u ∧ Transferred s1 u val a n ∧ GoesOn q d.st u := by
  obtain ⟨u, hu, hq⟩ := seatRun_advances hi hpm hb hn ho
  have hg := goesOn_of_quiet hq
  exact ⟨u, hu, hd.transferred (hg.mem.trans hm), hg⟩

end

/-! What the four do after their decode, on a fresh start that nothing interrupts. -/

/-- The registers of an LDM or STM. -/
abbrev massRegs (s : State) (q : Nat) (rd : Reg) : List Nat := maskRegs (wGet s q rd.toNat)

/-- The count of a MOVW or FILLW. -/
abbrev massCount (s : State) (q : Nat) (rb : Reg) : Nat := (wGet s q rb.toNat).toNat % 2 ^ 35

def ldmBody (q : SeatNo) (rd : Reg) (m : MemOp) (s : State) : Except (Trap × State) Done :=
  let all := maskRegs (wGet s q.val rd.toNat)
  if all.contains rd.toNat || (inRing s q.val && all.contains m.ca.toNat) then
    .error (trapHere s q.val cILLEGAL (seatWord (.ldm q rd m)), s)
  else
    let a := { memAccess s q.val m all.length 1 rRD false with n := 1 }
    multiRun q.val m all a (ldmLoop q.val a) s

theorem execLdm_eq (q : SeatNo) (rd : Reg) (m : MemOp) (s : State) :
    exec (.ldm q rd m) s = seatRun q (.ldm q rd m) anyMode (ldmBody q rd m) s := rfl

def stmBody (q : SeatNo) (rd : Reg) (m : MemOp) (s : State) : Except (Trap × State) Done :=
  let all := maskRegs (wGet s q.val rd.toNat)
  let a := { memAccess s q.val m all.length 1 rWR true with n := 1 }
  multiRun q.val m all a (fun tail rs s => stmLoop q.val a tail rs { st := s, pend := [] }) s

theorem execStm_eq (q : SeatNo) (rd : Reg) (m : MemOp) (s : State) :
    exec (.stm q rd m) s = seatRun q (.stm q rd m) anyMode (stmBody q rd m) s := rfl

def movwBody (q : SeatNo) (rd ra rb aux : Reg) (s : State) : Except (Trap × State) Done :=
  let count := massCount s q.val rb
  let cd := blockCap s q.val rd.toNat
  let cs := blockCap s q.val ra.toNat
  blockRun q.val count (wordAt cd 0 rWR true) (fun tail n s => movLoop q.val cd cs count (aux == 1) tail n { st := s, pend := [] }) s

theorem execMovw_eq (q : SeatNo) (rd ra rb aux : Reg) (s : State) :
    exec (.movw q rd ra rb aux) s = seatRun q (.movw q rd ra rb aux) anyMode (movwBody q rd ra rb aux) s := rfl

def fillwBody (q : SeatNo) (rd ra rb : Reg) (s : State) : Except (Trap × State) Done :=
  let count := massCount s q.val rb
  let cd := blockCap s q.val rd.toNat
  let w := wGet s q.val ra.toNat
  blockRun q.val count (wordAt cd 0 rWR true) (fun tail n s => fillLoop q.val cd w count tail n { st := s, pend := [] }) s

theorem execFillw_eq (q : SeatNo) (rd ra rb : Reg) (s : State) :
    exec (.fillw q rd ra rb) s = seatRun q (.fillw q rd ra rb) anyMode (fillwBody q rd ra rb) s := rfl

section
variable {s s1 : State} {q : SeatNo} {rd ra rb aux : Reg} {m : MemOp} {a b j n : Nat}

section
variable (hr : inRing s q = false) (hprog : bit (curBank (getSeat s q)).progress 35 = false) (hint : interrupted s q = false)
include hr hprog hint

theorem ldmBody_fresh (hrd : rd.toNat ∉ massRegs s q rd) (ha : memEa s q m (massRegs s q rd).length = a) (hix : memBadIndex s q m = false) :
    ∃ f : State → Done, (∀ t, (f t).st = memUpdate t q m (massRegs s q rd).length ∧ (f t).next = .advance) ∧ ldmBody q rd m s =
      (ldmLoop q (oneWord (cGet s q m.ca.toNat) a rRD false) [] (withOffsets (massRegs s q rd) (massRegs s q rd)) s).map f := by
  have hno : ((massRegs s q rd).contains rd.toNat || (inRing s q && (massRegs s q rd).contains m.ca.toNat)) = false := by simp [hr, hrd]
  simp only [ldmBody, hno, Bool.false_eq_true, if_false, memAccess_eq hr ha hix]
  exact multiRun_fresh hprog hint

theorem stmBody_fresh (ha : memEa s q m (massRegs s q rd).length = a) (hix : memBadIndex s q m = false) :
    ∃ f : State → Done, (∀ t, (f t).st = memUpdate t q m (massRegs s q rd).length ∧ (f t).next = .advance) ∧ stmBody q rd m s =
      (stmLoop q (oneWord (cGet s q m.ca.toNat) a rWR true) [] (withOffsets (massRegs s q rd) (massRegs s q rd))
        { st := s, pend := [] }).map f := by
  simp only [stmBody, memAccess_eq hr ha hix]
  exact multiRun_fresh hprog hint

theorem movwBody_fresh : ∃ f : State → Done, (∀ t, (f t).st = t ∧ (f t).next = .advance) ∧ movwBody q rd ra rb aux s =
    (movLoop q (cGet s q rd.toNat) (cGet s q ra.toNat) (massCount s q rb) (aux == 1) 0 (massCount s q rb) { st := s, pend := [] }).map f := by
  simp only [movwBody, blockCap, hr, Bool.false_eq_true, if_false]
  exact blockRun_fresh hprog hint

theorem fillwBody_fresh : ∃ f : State → Done, (∀ t, (f t).st = t ∧ (f t).next = .advance) ∧ fillwBody q rd ra rb s =
    (fillLoop q (cGet s q rd.toNat) (wGet s q ra.toNat) (massCount s q rb) 0 (massCount s q rb) { st := s, pend := [] }).map f := by
  simp only [fillwBody, blockCap, hr, Bool.false_eq_true, if_false]
  exact blockRun_fresh hprog hint

end

theorem withOffsets_drop_all (rs : List Nat) : (withOffsets rs rs).drop rs.length = [] := by simp [withOffsets]

theorem stm_completes (hi : Issues s q (.stm q rd m) s1) (ha : memEa s1 q m (massRegs s1 q rd).length = a)
    (hix : memBadIndex s1 q m = false) (hp : PlainSpan s1 q a (massRegs s1 q rd).length)
    (hprog : bit (curBank (getSeat s1 q)).progress 35 = false) (hint : interrupted s1 q = false)
    (hc : Reaches (cGet s1 q m.ca.toNat) a (massRegs s1 q rd).length rWR) :
    ∃ t, exec (.stm q rd m) s = .next t ∧ Transferred s1 t (stmWord s1 q (massRegs s1 q rd) a) a (massRegs s1 q rd).length ∧
      ∀ r, wGet t q r = wGet s1 q r := by
  obtain ⟨f, hf, hb⟩ := stmBody_fresh hp.noRing hprog hint ha hix
  obtain ⟨g, hl, -, hd⟩ := stm_gathers hp hc (maskRegs_nodup _) le_rfl
  rw [hl, withOffsets_drop_all, stmLoop] at hb
  have hr' : inRing (gatherFlush q g) q = false := hd.same.inRing_eq.trans hp.noRing
  obtain ⟨hst, hn⟩ := hf (gatherFlush q g)
  obtain ⟨t, ht, htr, hg⟩ := stores_complete hi (permitted := anyMode) rfl hd hb hn (by rw [hst, memUpdate_mem hr'])
    (by rw [hst]; exact pairOver_memUpdate_unpaired hr' (hd.unpaired hp))
  exact ⟨t, ht, htr, fun r => by rw [hg.wGet, hst, wGet_memUpdate hr', hd.same.wGet_eq]⟩

theorem stm_stops (hi : Issues s q (.stm q rd m) s1) (ha : memEa s1 q m (massRegs s1 q rd).length = a)
    (hix : memBadIndex s1 q m = false) (hp : PlainSpan s1 q a j) (hj : j < (massRegs s1 q rd).length)
    (hlast : capLast (cGet s1 q m.ca.toNat) + 1 = a + j)
    (hprog : bit (curBank (getSeat s1 q)).progress 35 = false) (hint : interrupted s1 q = false)
    (ho : occupied (getSeat s1 q.val).svM = false) (hm : mHeld s1 = false) (hc : Reaches (cGet s1 q m.ca.toNat) a j rWR) :
    ∃ t, exec (.stm q rd m) s = .next t ∧ BoundsAt t q (a + j) ∧ (getSeat t q.val).svM.prog = progWord (regsMask ((massRegs s1 q rd).drop j)) ∧
      BankKept s1 t q ∧ Transferred s1 t (stmWord s1 q (massRegs s1 q rd) a) a j := by
  obtain ⟨f, hf, hb⟩ := stmBody_fresh hp.noRing hprog hint ha hix
  obtain ⟨g, hl, ⟨⟨S, -, hg⟩, -⟩, hd⟩ := stm_gathers hp hc (maskRegs_nodup _) hj.le
  rw [hl, stmLoop_outside (hg.level hp) hc hlast hp.lt (maskRegs_nodup _) hj] at hb
  exact stores_trap hi (permitted := anyMode) rfl hd hp hb ho hm

theorem ldm_completes (hi : Issues s q (.ldm q rd m) s1) (ha : memEa s1 q m (massRegs s1 q rd).length = a)
    (hix : memBadIndex s1 q m = false) (hp : PlainSpan s1 q a (massRegs s1 q rd).length)
    (hprog : bit (curBank (getSeat s1 q)).progress 35 = false) (hint : interrupted s1 q = false) (hrd : rd.toNat ∉ massRegs s1 q rd)
    (hc : Reaches (cGet s1 q m.ca.toNat) a (massRegs s1 q rd).length rRD) :
    ∃ t, exec (.ldm q rd m) s = .next t ∧ t.mem = s1.mem ∧
      ∀ r, wGet t q r = wGet (loadRegs s1 q (massRegs s1 q rd) a (massRegs s1 q rd).length) q r := by
  obtain ⟨f, hf, hb⟩ := ldmBody_fresh hp.noRing hprog hint hrd ha hix
  obtain ⟨u, hu, hl⟩ := ldm_loads hp hc (maskRegs_nodup _) le_rfl
  rw [hl, withOffsets_drop_all, ldmLoop] at hb
  have hr' : inRing u q = false := by
    rw [hu.inRing_eq]
    exact (loadRegs_field (fun x => x.status.ringMode) fun _ _ => rfl).trans hp.noRing
  obtain ⟨hst, hn⟩ := hf u
  obtain ⟨t, ht, hq⟩ := seatRun_advances hi (permitted := anyMode) rfl hb hn
    (by rw [hst, pairOver_memUpdate hr', hu.pairOver_eq, loadRegs_pairOver, hi.pairOver])
  have hg := goesOn_of_quiet hq
  refine ⟨t, ht, ?_, fun r => ?_⟩
  · rw [hg.mem, hst, memUpdate_mem hr', hu.mem_eq, loadRegs_mem]
  · rw [hg.wGet, hst, wGet_memUpdate hr', hu.wGet_eq]

theorem ldm_stops (hi : Issues s q (.ldm q rd m) s1) (ha : memEa s1 q m (massRegs s1 q rd).length = a)
    (hix : memBadIndex s1 q m = false) (hp : PlainSpan s1 q a j) (hj : j < (massRegs s1 q rd).length)
    (hlast : capLast (cGet s1 q m.ca.toNat) + 1 = a + j)
    (hprog : bit (curBank (getSeat s1 q)).progress 35 = false) (hint : interrupted s1 q = false) (hrd : rd.toNat ∉ massRegs s1 q rd)
    (ho : occupied (getSeat s1 q.val).svM = false) (hm : mHeld s1 = false) (hc : Reaches (cGet s1 q m.ca.toNat) a j rRD) :
    ∃ t, exec (.ldm q rd m) s = .next t ∧ t.mem = s1.mem ∧ BoundsAt t q (a + j) ∧
      (getSeat t q.val).svM.prog = progWord (regsMask ((massRegs s1 q rd).drop j)) ∧
      (∀ r, bankW (getBank (getSeat t q) (statusOfSeat s1 q).bank) r = wGet (loadRegs s1 q (massRegs s1 q rd) a j) q r) ∧
      ∀ r, bankC (getBank (getSeat t q) (statusOfSeat s1 q).bank) r = cGet s1 q r := by
  obtain ⟨f, hf, hb⟩ := ldmBody_fresh hp.noRing hprog hint hrd ha hix
  obtain ⟨u, hu, hl⟩ := ldm_loads hp hc (maskRegs_nodup _) hj.le
  have hpl := hp.loadRegs (rs := massRegs s1 q rd) (a := a) (i := j)
  have hx := hu.getSeat_eq q
  have hlvl : levelOf u q = .M := (congrArg (fun x : Seat => x.status.lvl) hx).trans hpl.1
  have hbank : (getSeat (loadRegs s1 q (massRegs s1 q rd) a j) q).status.bank = (statusOfSeat s1 q).bank :=
    loadRegs_field (fun x => x.status.bank) fun _ _ => rfl
  have hmem : u.mem = s1.mem := hu.mem_eq.trans loadRegs_mem
  have hov : occupied (getSeat u q.val).svM = false := by
    rw [hx]
    exact (loadRegs_field (fun x => occupied x.svM) fun _ _ => rfl).trans ho
  have hmh : mHeld u = false := by
    obtain ⟨c, rfl⟩ := hu
    rw [loadRegs_rest]
    exact hm
  rw [hl, ldmLoop_outside hlvl hc hlast hp.lt (maskRegs_nodup _) hj] at hb
  obtain ⟨hf0, hr0⟩ := hp.faultless
  obtain ⟨t, ht, hmt, hbounds, hpr, hregs⟩ := seatRun_outside hi (permitted := anyMode) rfl hb hlvl hov hmh (by rwa [hmem]) (by rwa [hmem])
    (by rw [hu.pairOver_eq, loadRegs_pairOver, hi.pairOver])
  refine ⟨t, ht, hmt.trans hmem, hbounds, hpr, fun r => ?_, fun r => ?_⟩
  · rw [hregs.w, hx, ← hbank]
    rfl
  · rw [hregs.c, hx, ← hbank, ← cGet_loadRegs (s := s1) (q := q) (rs := massRegs s1 q rd) (a := a) (i := j)]
    rfl

/-! MOVW and FILLW. -/

theorem fillw_completes (hi : Issues s q (.fillw q rd ra rb) s1) (hn : n = massCount s1 q rb) (ha : a = capCursor (cGet s1 q rd.toNat))
    (hp : PlainSpan s1 q a n) (hc : Reaches (cGet s1 q rd.toNat) a n rWR)
    (hprog : bit (curBank (getSeat s1 q)).progress 35 = false) (hint : interrupted s1 q = false) :
    ∃ t, exec (.fillw q rd ra rb) s = .next t ∧ Transferred s1 t (fun _ => wGet s1 q ra.toNat) a n ∧
      ∀ r, wGet t q r = wGet s1 q r ∧ cGet t q r = cGet s1 q r := by
  obtain ⟨f, hf, hb⟩ := fillwBody_fresh (rd := rd) (ra := ra) (rb := rb) hp.noRing hprog hint
  obtain ⟨g, hl, -, hd⟩ := fill_gathers (wGet s1 q ra.toNat) hp hc ha.symm le_rfl
  rw [← hn, hl, Nat.sub_self, fillLoop] at hb
  obtain ⟨hst, hnx⟩ := hf (gatherFlush q g)
  obtain ⟨t, ht, htr, hg⟩ := stores_complete hi (permitted := anyMode) rfl hd hb hnx (by rw [hst])
    (by rw [hst]; exact pairOver_unpaired (hd.unpaired hp))
  exact ⟨t, ht, htr, fun r => ⟨by rw [hg.wGet, hst, hd.same.wGet_eq], by rw [hg.cGet, hst, hd.same.cGet_eq]⟩⟩

theorem fillw_stops (hi : Issues s q (.fillw q rd ra rb) s1) (hn : n = massCount s1 q rb) (ha : a = capCursor (cGet s1 q rd.toNat))
    (hp : PlainSpan s1 q a j) (hj : j < n) (hlast : capLast (cGet s1 q rd.toNat) + 1 = a + j) (hc : Reaches (cGet s1 q rd.toNat) a j rWR)
    (hprog : bit (curBank (getSeat s1 q)).progress 35 = false) (hint : interrupted s1 q = false)
    (ho : occupied (getSeat s1 q.val).svM = false) (hm : mHeld s1 = false) :
    ∃ t, exec (.fillw q rd ra rb) s = .next t ∧ BoundsAt t q (a + j) ∧ (getSeat t q.val).svM.prog = progWord (n - j) ∧
      BankKept s1 t q ∧ Transferred s1 t (fun _ => wGet s1 q ra.toNat) a j := by
  obtain ⟨f, hf, hb⟩ := fillwBody_fresh (rd := rd) (ra := ra) (rb := rb) hp.noRing hprog hint
  obtain ⟨g, hl, ⟨⟨S, -, hg⟩, -⟩, hd⟩ := fill_gathers (wGet s1 q ra.toNat) hp hc ha.symm hj.le
  rw [← hn, hl, fillLoop_outside _ (hg.level hp) hc ha.symm hlast hp.lt hj] at hb
  exact stores_trap hi (permitted := anyMode) rfl hd hp hb ho hm

theorem movw_completes (hi : Issues s q (.movw q rd ra rb aux) s1) (hn : n = massCount s1 q rb) (ha : a = capCursor (cGet s1 q rd.toNat))
    (hp : PlainSpan s1 q a n) (hc : Reaches (cGet s1 q rd.toNat) a n rWR)
    (hprog : bit (curBank (getSeat s1 q)).progress 35 = false) (hint : interrupted s1 q = false)
    (hb : b = capCursor (cGet s1 q ra.toNat)) (hp' : PlainSpan s1 q b n) (hc' : Reaches (cGet s1 q ra.toNat) b n rRD)
    (hdis : a + n ≤ b ∨ b + n ≤ a) :
    ∃ t, exec (.movw q rd ra rb aux) s = .next t ∧ Transferred s1 t (movWord s1 a b) a n ∧
      ∀ r, wGet t q r = wGet s1 q r ∧ cGet t q r = cGet s1 q r := by
  obtain ⟨f, hf, hbody⟩ := movwBody_fresh (rd := rd) (ra := ra) (rb := rb) (aux := aux) hp.noRing hprog hint
  obtain ⟨g, hl, hd⟩ : ∃ g, movLoop q (cGet s1 q rd.toNat) (cGet s1 q ra.toNat) n (aux == 1) 0 n { st := s1, pend := [] } =
      .ok (gatherFlush q g) ∧ Stored q s1 (movWord s1 a b) (Set.Ico a (a + n)) (gatherFlush q g) := by
    cases aux == 1 with
    | true =>
      obtain ⟨g, hl, hd⟩ := mov_down_gathers hp hc ha.symm hp' hc' hb.symm hdis
      exact ⟨g, hl, hd⟩
    | false =>
      obtain ⟨g, hl, -, hd⟩ := mov_up_gathers hp hc ha.symm hp' hc' hb.symm le_rfl hdis
      exact ⟨g, by rw [hl, Nat.sub_self, movLoop], hd⟩
  rw [← hn, hl] at hbody
  obtain ⟨hst, hnx⟩ := hf (gatherFlush q g)
  obtain ⟨t, ht, htr, hg⟩ := stores_complete hi (permitted := anyMode) rfl hd hbody hnx (by rw [hst])
    (by rw [hst]; exact pairOver_unpaired (hd.unpaired hp))
  exact ⟨t, ht, htr, fun r => ⟨by rw [hg.wGet, hst, hd.same.wGet_eq], by rw [hg.cGet, hst, hd.same.cGet_eq]⟩⟩

theorem movw_stops (hi : Issues s q (.movw q rd ra rb 0) s1) (hn : n = massCount s1 q rb) (ha : a = capCursor (cGet s1 q rd.toNat))
    (hp : PlainSpan s1 q a j) (hj : j < n) (hlast : capLast (cGet s1 q rd.toNat) + 1 = a + j) (hc : Reaches (cGet s1 q rd.toNat) a j rWR)
    (hprog : bit (curBank (getSeat s1 q)).progress 35 = false) (hint : interrupted s1 q = false)
    (ho : occupied (getSeat s1 q.val).svM = false) (hm : mHeld s1 = false)
    (hb : b = capCursor (cGet s1 q ra.toNat)) (hp' : PlainSpan s1 q b n) (hc' : Reaches (cGet s1 q ra.toNat) b n rRD)
    (hdis : a + j ≤ b ∨ b + n ≤ a) :
    ∃ t, exec (.movw q rd ra rb 0) s = .next t ∧ BoundsAt t q (a + j) ∧ (getSeat t q.val).svM.prog = progWord (n - j) ∧
      BankKept s1 t q ∧ Transferred s1 t (movWord s1 a b) a j := by
  obtain ⟨f, hf, hbody⟩ := movwBody_fresh (rd := rd) (ra := ra) (rb := rb) (aux := 0) hp.noRing hprog hint
  obtain ⟨g, hl, ⟨⟨S, -, hg⟩, -⟩, hd⟩ := mov_up_gathers hp hc ha.symm hp' hc' hb.symm hj.le hdis
  have hsrc := ((hp'.stored hg).oneWord (write := false) hc' hj).steps
  rw [hb] at hsrc
  have hup : ((0 : Reg) == 1) = false := rfl
  rw [hup, ← hn, hl, movLoop_outside (hg.level hp) hc ha.symm hlast hp.lt hj hsrc] at hbody
  exact stores_trap hi (permitted := anyMode) rfl hd hp hbody ho hm

end

end Sys2Proof.Machine
end

section

namespace Sys2Proof.Machine

section
variable {s s1 : State} {q : SeatNo} {rd ra rb aux : Reg} {m : MemOp} {a b j n : Nat}

theorem stmWord_add (s : State) (q : Nat) (rs : List Nat) (a : Nat) {k : Nat} (h : k < rs.length) : stmWord s q rs a (a + k) = wGet s q rs[k] := by
  rw [stmWord, Nat.add_sub_cancel_left, List.getD_eq_getElem _ _ h]

theorem movWord_add (s : State) (a b k : Nat) : movWord s a b (a + k) = memWord s.mem (b + k) := by
  rw [movWord, Nat.add_sub_cancel_left]

/-- What is left of a sorted mask is sorted. -/
theorem sorted_drop_maskRegs (w : Word) (j : Nat) : ((maskRegs w).drop j).SortedLT :=
  ((maskRegs_sorted w).pairwise.sublist (List.drop_sublist ..)).sortedLT

/-- The registers of the mask that j loads have reached, and those that they have not. -/
theorem wGet_loadRegs {k : Nat} (w : Word) (hj : j ≤ (maskRegs w).length) (hk : k < (maskRegs w).length) :
    wGet (loadRegs s q (maskRegs w) a j) q (maskRegs w)[k] = if k < j then memWord s.mem (a + k) else wGet s q (maskRegs w)[k] := by
  split
  · next h => exact wGet_loadRegs_mem (maskRegs_nodup w) (zero_notMem_maskRegs w) hj h
  · next h =>
    refine wGet_loadRegs_notMem hj fun hm => h ?_
    obtain ⟨i, hi, he⟩ := List.mem_take_iff_getElem.1 hm
    have := (maskRegs_nodup w).getElem_inj_iff.1 he
    omega

end

/-- Settles O26: each of the four over plain words to its end, and up to the word that its capability does not reach. -/
theorem blockTransferResults : Obligations.BlockTransferResults := by
  refine ⟨?_, ?_, ?_, ?_⟩
  · intro s s1 q rd m a rs ha hix hp hprog hint
    have hrs : rs = massRegs s1 q rd := maskRegs_eq _
    clear_value rs
    subst hrs
    refine ⟨fun hi hrd hc => ?_, fun hi hc => ?_⟩
    · obtain ⟨t, ht, hm, hw⟩ := ldm_completes hi ha hix hp hprog hint hrd hc
      refine ⟨t, ht, hm, fun k hk => ?_, fun r hr => ?_⟩
      · rw [hw, wGet_loadRegs _ le_rfl hk, if_pos hk]
      · rw [hw, wGet_loadRegs_notMem le_rfl (by rwa [List.take_length])]
    · obtain ⟨t, ht, htr, hw⟩ := stm_completes hi ha hix hp hprog hint hc
      exact ⟨t, ht, fun k hk => (htr.words k hk).trans (stmWord_add _ _ _ _ hk), htr.others, htr.tags, hw⟩
  · intro s s1 q rd ra rb aux n a b hn ha hp hc hprog hint
    refine ⟨fun hi hb hp' hc' hdis => ?_, fun hi => ?_⟩
    · obtain ⟨t, ht, htr, hregs⟩ := movw_completes hi hn ha hp hc hprog hint hb hp' hc' hdis
      exact ⟨t, ht, fun k hk => (htr.words k hk).trans (movWord_add ..), htr.others, htr.tags, hregs⟩
    · obtain ⟨t, ht, htr, hregs⟩ := fillw_completes hi hn ha hp hc hprog hint
      exact ⟨t, ht, htr.words, htr.others, htr.tags, hregs⟩
  · intro s s1 q rd m a j c rs left ha hix hp hj hlast hprog hint ho hm
    have hrs : rs = massRegs s1 q rd := maskRegs_eq _
    clear_value rs
    subst hrs
    have hleft : left (progWord (regsMask ((massRegs s1 q rd).drop j))) := getLsbD_progWord_regsMask (sorted_drop_maskRegs _ j)
    refine ⟨fun hi hrd hc hlt => ?_, fun hi hc hlt => ?_⟩
    · obtain ⟨t, ht, hmem, hbounds, hpr, hw, hcap⟩ := ldm_stops hi ha hix hp hj hlast hprog hint hrd ho hm hc
      refine ⟨t, ht, hmem, hbounds, hpr ▸ hleft, fun k hk => ?_, fun r hr => ?_, hcap⟩
      · rw [hw, wGet_loadRegs _ hj.le hk]
      · rw [hw, wGet_loadRegs_notMem hj.le fun h => hr (List.mem_of_mem_take h)]
    · obtain ⟨t, ht, hbounds, hpr, hkept, htr⟩ := stm_stops hi ha hix hp hj hlast hprog hint ho hm hc
      exact ⟨t, ht, hbounds, hpr ▸ hleft, hkept, fun k hk hkj => (htr.words k hkj).trans (stmWord_add _ _ _ _ hk), htr.others, htr.tags⟩
  · intro s s1 q rd ra rb aux n a b j c hn ha hp hj hlast hc hprog hint ho hm
    have hcount : progWord (n - j) = BitVec.ofNat 36 (2 ^ 35 + (n - j)) := progWord_eq (by omega)
    refine ⟨fun hi haux hb hp' hc' hdis => ?_, fun hi => ?_⟩
    · subst haux
      obtain ⟨t, ht, hbounds, hpr, hkept, htr⟩ := movw_stops hi hn ha hp hj hlast hc hprog hint ho hm hb hp' hc' hdis
      exact ⟨t, ht, hbounds, hpr.trans hcount, hkept, fun k hk => (htr.words k hk).trans (movWord_add ..), htr.others, htr.tags⟩
    · obtain ⟨t, ht, hbounds, hpr, hkept, htr⟩ := fillw_stops hi hn ha hp hj hlast hc hprog hint ho hm
      exact ⟨t, ht, hbounds, hpr.trans hcount, hkept, htr.words, htr.others, htr.tags⟩

end Sys2Proof.Machine
end

section

namespace Sys2Proof.Machine

/-! What the update of the residence timer leaves of a seat, and that it clears a timer that nothing holds (07 R226). -/

section
variable (now : Nat) (x : Seat)

@[simp] theorem getBank_residUpdate (i : Nat) : getBank (residUpdate now x) i = getBank x i := by
  obtain ⟨_, _, _, h⟩ := residUpdate_only now x
  rw [h]
  rfl

@[simp] theorem residUpdate_idle : (residUpdate now x).idle = x.idle := by
  obtain ⟨_, _, _, h⟩ := residUpdate_only now x
  rw [h]

@[simp] theorem residUpdate_status : (residUpdate now x).status = x.status := by
  obtain ⟨_, _, _, h⟩ := residUpdate_only now x
  rw [h]

/-- The residence timer stopped and cleared. -/
def residCleared (x : Seat) : Seat := { x with residRun := 0, residFrom := none, residFired := false }

theorem residDue_cleared : residDue now (residCleared x) = false := by
  by_cases h : x.residLim = 0 <;> simp [residDue, residCleared, h]

variable {now x}

/-- Where no pre-emption is pending, a timer that is not due is stopped and cleared. -/
theorem residUpdate_cleared (hp : preemptPending x = false) (hd : residDue now x = false) : residUpdate now x = residCleared x := by
  unfold residUpdate residCleared
  cases hf : x.residFrom with
  | none => simp [hp, hd, hf]
  | some t =>
    have hstop : residDue now { x with residRun := x.residRun + (now - t), residFrom := none } = false := by
      simpa [residDue, hf] using hd
    have hstill : preemptPending { x with residRun := x.residRun + (now - t), residFrom := none } = false := hp
    simp [hp, hstop, hstill]

end

/-! Which bank asks for a seat, and what waits at its instruction boundary (08 R254, 07 R224). -/

section
variable {s : State} {q b : Nat} {x y : Seat}

theorem topBank_congr (h : ∀ i, bankAsks (getBank y i).st = bankAsks (getBank x i).st) : topBank y = topBank x := by
  simp only [topBank, h]

/-- A bank above the one in use asks for the seat: a pre-emption is pending. -/
theorem preemptPending_of_above (hidle : x.idle = false) (htop : topBank x = some b) (hlt : x.status.bank < b) (hb : b < 8) :
    preemptPending x = true := by
  have hheld : heldBank x = some x.status.bank := by simp [heldBank, hidle, hlt.trans hb]
  simp [preemptPending, hheld, htop, hlt]

theorem preemptPending_of_idle (h : x.idle = true) : preemptPending x = false := by
  simp [preemptPending, heldBank, h]

theorem asyncPending_of_none (hs : (getSeat s q).pendStow = []) (hp : (getSeat s q).pendPair = [])
    (hr : residDue s.time (getSeat s q) = false) : asyncPending s q = false := by
  simp [asyncPending, hs, hp, hr]

@[simp] theorem getBank_runBank (x : Seat) (b i : Nat) :
    getBank (runBank x b) i = if i = b then { getBank x b with st := .running } else getBank x i :=
  getBank_setBank ..

/-- An idle seat in service, with no set OCCUPIED and no asynchronous trap pending, runs its highest bank where that bank is READY,
and stays as it is where it is not. -/
theorem getSeat_selectBank (hpow : (getSeat s q).powered = true) (hstop : (getSeat s q).checkStop.isNone = true)
    (hidle : (getSeat s q).idle = true) (hocc : anyOccupied (getSeat s q) = false) (hasync : asyncPending s q = false)
    (htop : topBank (getSeat s q) = some b) :
    getSeat (selectBank s q) q =
      if (getBank (getSeat s q) b).st = .ready then residUpdate s.time (runBank (getSeat s q) b) else getSeat s q := by
  simp only [selectBank, hpow, hstop, hidle, hocc, hasync, htop, Bool.not_false, Bool.and_true, if_true]
  split
  · rw [getSeat_modSeatR, if_pos rfl]
  · rfl

end

/-! The change of a seat, with what follows from it, leaves the timebase. -/

section
variable (s : State) (q : Nat)

@[simp] theorem coxWake_time (x : Nat) : (coxWake s x).time = s.time := by
  unfold coxWake
  split <;> rfl

@[simp] theorem postRise_time (x : Seat) : (postRise x s q).time = s.time := by
  unfold postRise
  split <;> simp

@[simp] theorem sideNote_time (x : Seat) : (sideNote x s q).time = s.time := by
  unfold sideNote
  split <;> simp

@[simp] theorem modSeatR_time (f : Seat → Seat) : (modSeatR s q f).time = s.time := by simp [modSeatR]

end

/-! A pre-emption (06 R204, 07 R225, 08 R254). -/

/-- The seat whose running bank has stopped for a pre-emption, and waits READY with the STATUS it had. -/
def stoodDown (x : Seat) : Seat := { modBank (leaveBank x) x.status.bank (fun v => { v with st := .ready }) with idle := true }

/-- The bank that stopped is kept beside its state and STATUS, and the others whole. -/
theorem getBank_stoodDown (x : Seat) (i : Nat) :
    getBank (stoodDown x) i = if i = x.status.bank then { curBank x with st := .ready, status := x.status } else getBank x i := by
  have h : getBank (stoodDown x) i = getBank (modBank (leaveBank x) x.status.bank fun v => { v with st := .ready }) i := rfl
  rw [h, getBank_modBank, leaveBank, getBank_modBank, getBank_modBank, if_pos rfl]
  split <;> rfl

/-- A bank that ran asks for the seat as much once it is READY. -/
theorem topBank_stoodDown {x : Seat} (hrun : (curBank x).st = .running) : topBank (stoodDown x) = topBank x := by
  refine topBank_congr fun i => ?_
  rw [getBank_stoodDown]
  split
  · next h => rw [h, show getBank x x.status.bank = curBank x from rfl, hrun]; rfl
  · rfl

/-- The state in which the seat of a pre-emption looks for its next bank. -/
def bankStopped (s : State) (q : Nat) : State := seatCount (modSeatR s q stoodDown) q 30

section
variable {s : State} {q b : Nat}

/-- The seat holds no pre-emption any more, and its residence timer is cleared (07 R226). -/
theorem getSeat_bankStopped (hr : residDue s.time (getSeat s q) = false) :
    getSeat (bankStopped s q) q = residCleared (stoodDown (getSeat s q)) := by
  rw [bankStopped, getSeat_seatCount, getSeat_modSeatR, if_pos rfl]
  exact residUpdate_cleared (preemptPending_of_idle rfl) hr

/-- The seat after a pre-emption runs bank b where b is READY, and stands idle where it is not. -/
theorem getSeat_preempted (hserves : seatServes s q = true) (hocc : anyOccupied (getSeat s q) = false)
    (hps : (getSeat s q).pendStow = []) (hpp : (getSeat s q).pendPair = []) (hr : residDue s.time (getSeat s q) = false)
    (htop : topBank (getSeat s q) = some b) (hrun : (curBank (getSeat s q)).st = .running) :
    let z := residCleared (stoodDown (getSeat s q))
    getSeat (selectBank (bankStopped s q) q) q = if (getBank z b).st = .ready then residUpdate s.time (runBank z b) else z := by
  intro z
  have hz : getSeat (bankStopped s q) q = z := getSeat_bankStopped hr
  have htime : (bankStopped s q).time = s.time := by simp [bankStopped]
  have hasync : asyncPending (bankStopped s q) q = false := by
    refine asyncPending_of_none ?_ ?_ ?_ <;> rw [hz]
    exacts [hps, hpp, residDue_cleared ..]
  have htop' : topBank z = some b := (topBank_stoodDown hrun).trans htop
  simp only [seatServes, Bool.and_eq_true] at hserves
  obtain ⟨⟨-, hpow⟩, hstop⟩ := hserves
  rw [← hz] at htop'
  rw [getSeat_selectBank (hz ▸ hpow) (hz ▸ hstop) (hz ▸ rfl) (hz ▸ hocc) hasync htop', hz, htime]

end

/-- A pre-emption that is pending at a boundary where nothing comes before it is taken. -/
theorem exec_preemption {s : State} {q : SeatNo} (hserves : seatServes s q.val = true) (hidle : (getSeat s q.val).idle = false)
    (hpre : preemptPending (getSeat s q.val) = true) (hocc : anyOccupied (getSeat s q.val) = false)
    (hasync : asyncPending s q.val = false) (hrun : (curBank (getSeat s q.val)).st = .running) :
    exec (.preemption q) s = .next (selectBank (bankStopped s q.val) q.val) := by
  simp only [exec, execPreemption, hserves, hidle, hpre, hocc, hasync, hrun]
  rfl

/-- Settles O35: the bank that stopped is not the one above it, so what the seat does next leaves it. -/
theorem preemptionSwitchesBank : Obligations.PreemptionSwitchesBank := by
  intro s q b x p hserves hidle hlt hb htop hocc hps hpp hr hrun
  refine ⟨_, exec_preemption hserves hidle (preemptPending_of_above hidle htop hlt hb) hocc (asyncPending_of_none hps hpp hr) hrun, ?_⟩
  intro y
  have hbank (i : Nat) : getBank (residCleared (stoodDown x)) i =
      if i = p then { curBank x with st := .ready, status := x.status } else getBank x i := getBank_stoodDown x i
  have habove : getBank (residCleared (stoodDown x)) b = getBank x b := (hbank b).trans (if_neg hlt.ne')
  have hy : y = _ := getSeat_preempted hserves hocc hps hpp hr htop hrun
  rw [habove] at hy
  have hkept : getBank y p = { curBank x with st := .ready, status := x.status } := by
    rw [hy]
    split
    · rw [getBank_residUpdate, getBank_runBank, if_neg hlt.ne, hbank, if_pos rfl]
    · rw [hbank, if_pos rfl]
  refine ⟨by rw [hkept], by rw [hkept], fun r => by rw [hkept]; exact ⟨rfl, rfl⟩, fun hready => ?_, fun hposted => ?_, ?_⟩
  · rw [hy, if_pos hready, residUpdate_idle, residUpdate_status, getBank_residUpdate, getBank_runBank, if_pos rfl]
    exact ⟨rfl, rfl, rfl, rfl⟩
  · rw [hy, if_neg (by simp [hposted]), habove]
    exact ⟨rfl, hposted⟩
  · simp [bankStopped]

end Sys2Proof.Machine
end
